-- ==== Sys2Proof/Word.lean ====
section
/-!
DEFINITION. The word types of the W20 and their plainest arithmetic: bit fields, sign extension and the
little-endian order of bytes (R11).
-/
namespace Sys2Proof

/-- One byte of any memory. -/
abbrev Byte := BitVec 8

/-- A 64-bit general register, a register of register space, a word of a memory structure. -/
abbrev Word := BitVec 64

/-- A 64-byte line: byte 0 in bits 7 to 0 (R11). -/
abbrev LineData := BitVec 512

/-- Bits `hi` down to `lo` of a number. -/
def bits (x hi lo : Nat) : Nat := (x >>> lo) % 2 ^ (hi + 1 - lo)

/-- One bit of a number as a truth value. -/
def bit (x i : Nat) : Bool := x.testBit i

/-- A truth value as the bit that software reads. -/
def b2n (b : Bool) : Nat := if b then 1 else 0

/-- `x` with the `w` bits from `lo` replaced by the low bits of `v`. -/
def setBits (x lo w v : Nat) : Nat :=
  x - (bits x (lo + w - 1) lo) * 2 ^ lo + (v % 2 ^ w) * 2 ^ lo

/-- `x` with bit `i` set to `b`. -/
def setBit (x i : Nat) (b : Bool) : Nat := setBits x i 1 (b2n b)

/-- The two's complement value of the low `w` bits of `x`. -/
def toSigned (w x : Nat) : Int :=
  if (x % 2 ^ w).testBit (w - 1) then Int.ofNat (x % 2 ^ w) - (2 ^ w : Nat) else Int.ofNat (x % 2 ^ w)

/-- The low `w` bits of an integer in two's complement. -/
def ofSigned (w : Nat) (x : Int) : Nat := (x % ((2 ^ w : Nat) : Int)).toNat

/-- A count that saturates at the top of a `w`-bit field. -/
def satAdd (w x n : Nat) : Nat := min (x + n) (2 ^ w - 1)

/-- A count that wraps in a `w`-bit field. -/
def wrapAdd (w x n : Nat) : Nat := (x + n) % 2 ^ w

/-- Quotient rounded up. -/
def ceilDiv (a b : Nat) : Nat := (a + b - 1) / b

/-- The number held by a list of bytes, byte 0 the lowest (R11). -/
def leNat : List Byte → Nat
  | [] => 0
  | b :: bs => b.toNat + 256 * leNat bs

/-- The `n` low bytes of a number, byte 0 the lowest (R11). -/
def leBytes : Nat → Nat → List Byte
  | 0, _ => []
  | n + 1, x => BitVec.ofNat 8 x :: leBytes n (x / 256)

end Sys2Proof
end

