-- ==== Sys2Proof/Syntax.lean ====
section
/-!
DEFINITION. The commands of the W20: one constructor of `Instr` per row of spec/opcode_table.json, with the operands
that its rule names, and before it the types of those operands. Values that the outside world measures or
sends (a self-test result, a temperature, a response's data) are operands of the command that reports them.
-/
namespace Sys2Proof

/-- The unit kinds of event entries (Table 19.4), which fences and resets name too. -/
inductive UnitKind where
  | none | core | ply | bay | router | vault | hostPort | bendPort | sensor | central | walker
  deriving DecidableEq, Repr

/-- A unit: its kind and its number. -/
structure UnitRef where
  kind : UnitKind
  id : Nat
  deriving DecidableEq, Repr

/-- What a step of the wake observes (Tables 3.1 and 3.2, R83, R657): whether each image's signature verifies, the
journaled objects with no valid copy, the units that fail self-test, the mesh links that fail their check. -/
structure WakeObs where
  imageA : Bool := true
  imageB : Bool := true
  lost : List Nat := []
  failed : List UnitRef := []
  links : List (Nat × Nat) := []
  retrained : List Nat := []
  deriving DecidableEq, Repr

/-- A host's offer at link training (R107): the rate code of R125, the lanes, and 0 PCIe only, 1 CXL 68 B flits,
2 CXL 256 B flits; `degraded` when the link trained below what both ends offered (Table 5.8). -/
structure LinkOffer where
  rate : Nat
  width : Nat
  proto : Nat
  degraded : Bool := false
  deriving DecidableEq, Repr

/-- The configuration fields of a function that the spec gives a meaning (Tables 4.3 to 4.5, R110, R113, R132,
R139, R148). -/
inductive CfgField where
  | vendorId | deviceId | classCode | revisionId | subsystemVendorId | subsystemId | totalVFs | initialVFs
  | firstVFOffset | vfStride | supportedPageSizes | msixVectors | flrCapable | noSoftReset
  | readiness1 | readiness2 | cacheCapable | ioCapable | memCapable | memHwInitMode | hdmCount
  | cacheWbInvCapable | cxlResetCapable | viralCapable | cacheSizeUnit | cacheSize | memoryInfoValid
  | memoryActive | ctoRanges | ctoDisableSupported | nonCxlFunctionMap | registerLocator
  | vfEnable | busMaster | memEnable | maxPayload | maxReadRequest | relaxedOrdering | tag10 | tag14
  | ctoValue | msixEnable | msixMask | pmeEn | pmeStatus | viralEnable | cacheInvalid | atomicRequester
  | hdmDecoder0 | hdmDecoder1
  deriving DecidableEq, Repr

/-- The errors of Table 5.1, one name for each. -/
inductive HostError where
  | receiverError | badTlp | badDllp | replayTimerTimeout | replayNumRollover | headerLogOverflow
  | advisoryNonFatal | cxlCorrectedEcc | crcThreshold | sfCorr | bufCorr | linkDegraded
  | completionTimeout | poisonedTlp | unexpectedCompletion | unsupportedRequest | cxlPoison | bufUncorr
  | fencedHdm | dataLinkProtocol | flowControlProtocol | receiverOverflow | malformedTlp | cxlParity
  | cxlReservedEncoding | cxlReceiverOverflow | surpriseDown | ideCheckFailed | misroutedIde | cxlIdeRx
  | cxlIdeTx | sfUncorr | d2hTimeout | internal | viralRx
  deriving DecidableEq, Repr

/-- A configuration request to a function (R93, R131, R135, R139 have rows of their own for the writes that start
something). `setMask`, `setSeverity` and `clearStatus` act on one error of Table 5.1 (R148, R149). -/
inductive CfgReq where
  | read (f : CfgField)
  | write (f : CfgField) (v : Nat)
  | maskVector (vec : Nat) (masked : Bool)
  | setMask (e : HostError) (masked : Bool)
  | setSeverity (e : HostError) (fatal : Bool)
  | clearStatus (e : HostError)
  deriving DecidableEq, Repr

/-- What an error record of HT_ERR_HDR_LOG holds (Table 5.8), and the IDE stream it concerns: 0 the link stream, 1 to 4 the
selective streams, 5 the CXL stream. -/
structure ErrInfo where
  address : Nat := 0
  reqId : Nat := 0
  coil : Option Nat := Option.none
  source : Nat := 0
  unit : Nat := 0
  detail : Nat := 0
  stream : Nat := 0
  deriving DecidableEq, Repr

/-- Who performs a register access: a host through BAR0 of the PF or of a VF of a port, or through BAR4 of the PF (the Rigging Table), RIG-level
code on a core, or Cleat. -/
inductive Agent where
  | pf (port : Nat)
  | vf (port n : Nat)
  | table (port : Nat)
  | rig (core : Nat)
  | cleat
  deriving DecidableEq, Repr

/-- A host's access to HDM (R239, R241): reads, full or masked writes, and whether it came over CXL.io and in a stream in the
Secure state (R173). -/
structure HdmReq where
  write : Bool := false
  io : Bool := false
  secure : Bool := false
  data : LineData := 0
  mask : BitVec 64 := 0
  poison : Bool := false
  deriving DecidableEq, Repr

/-- What the line check of a read finds (Table 7.4): the symbols in error, the dirty copy that comes back from the
invalidation of R226 if one does, and what three or more symbols in error are miscorrected to if they are not detected (R225). -/
structure LineCheck where
  symbols : Nat := 0
  recovered : Option LineData := Option.none
  miscorrected : Option LineData := Option.none
  deriving DecidableEq, Repr

/-- A request at a vault controller (R214): the requesting coil, `none` for RIG level and Cleat; the owner that the shared
mark names; a masked write or a read; what the line check finds. -/
structure SpoolReq where
  coil : Option Nat := Option.none
  shared : Option Nat := Option.none
  write : Bool := false
  data : LineData := 0
  mask : BitVec 64 := BitVec.allOnes 64
  poison : Bool := false
  check : LineCheck := {}
  deriving DecidableEq, Repr

/-- Who waits for a Net or host-link response. -/
inductive Src where
  | core (n id : Nat)
  | tackle (ch id : Nat)
  | capstan
  | walker (bay w : Nat)
  | hitch (port : Nat)
  | bend (b : Nat)
  | ply (ply line : Nat)
  | cleat
  deriving DecidableEq, Repr

/-- The host's GO responses to a D2H request (Table 10.9). -/
inductive GoKind where
  | s | e | m | i | err
  deriving DecidableEq, Repr

/-- The requests that a home serves (Tables 10.6 and 10.11), with what they carry. MetaValue is 0 I, 1 S, 2 A; SnpType is 0 No-Op, 1 SnpData,
2 SnpInv, 3 SnpCur. -/
inductive HomeOp where
  | rda | rds | rdx | own (full : Bool) | clnr | invr
  | rdnc
  | wrnc (data : LineData) (mask : BitVec 64) (poison : Bool)
  | atom (op : Nat) (off size : Nat) (operand compare : Nat)
  | memRd (mv snp : Nat)
  | memRdData
  | memInv (mv : Nat)
  | memClnEvct
  | memWr (mv : Nat) (data : LineData) (mask : BitVec 64) (poison : Bool)
  deriving DecidableEq, Repr

/-- Snoop responses (R337, R359). -/
inductive Rsp where
  | rspI | rspS | rspV | rspData
  deriving DecidableEq, Repr

/-- The second source of a scalar ALU instruction: a register, or the immediate field of the immediate form (R450). -/
inductive Opnd where
  | reg (n : Nat)
  | imm (v : Nat)
  deriving DecidableEq, Repr

/-- The MOD fields of a vector ALU instruction (Table 13.9) with its governing predicate in SRC3. -/
structure VMod where
  ty : Nat := 0
  u : Bool := false
  z : Bool := false
  rmo : Nat := 0
  ty2 : Nat := 0
  part : Nat := 0
  sub : Nat := 0
  imm : Nat := 0
  pred : Nat := 0
  deriving DecidableEq, Repr

/-- The MOD fields of a scalar memory instruction (Table 13.6), and of the memory form of class 0x7 (R486). -/
structure MMod where
  sz : Nat := 0
  sx : Bool := false
  strm : Bool := false
  space : Nat := 0
  off : Nat := 0
  deriving DecidableEq, Repr

/-- The MOD fields of a vector memory instruction (Table 13.12) with its governing predicate in SRC3. -/
structure VMMod where
  ty : Nat := 0
  space : Nat := 0
  z : Bool := false
  strm : Bool := false
  off : Nat := 0
  pred : Nat := 0
  deriving DecidableEq, Repr

/-- What a bay measures over a slack tick (R561, R588): its energy and that metered to the tasks that ran in it, in µJ. -/
structure BayMeas where
  bay : Nat
  used : Nat := 0
  metered : Nat := 0
  deriving DecidableEq, Repr

/-- What the head reads at a slack tick: the wafer draw and that of the Net, vault and port rails and central agents, in W, and the bays. -/
structure TickMeas where
  pMeas : Nat := 0
  nonbay : Nat := 0
  bays : List BayMeas := []
  deriving DecidableEq, Repr

/-- What a Bend training step observes (R665 to R667): whether it succeeds; the lanes usable at both ends; the identifiers that the peer's
LANE_ID blocks carry, and whether a lane shows a number other than its own or another peer than the others. -/
structure TrainObs where
  ok : Bool := true
  lanes : Nat := 0
  peerSystem : Nat := 0
  peerWafer : Nat := 0
  peerPort : Nat := 0
  mismatch : Bool := false
  deriving DecidableEq, Repr

/-- How a model task of Halyard ended: the fault code of a task that faulted or did not set DONE, else the logits rows that it wrote, as FP32
codes, in the order of its work list (R721). -/
structure ModelEnd where
  fault : Option Nat := Option.none
  rows : List (List Nat) := []
  deriving DecidableEq, Repr

/-- The commands of the W20, one constructor per row of the opcode table, in its order. -/
inductive Instr where
  /-- ALWAYS_ON_START (R50). -/
  | alwaysOnStart
  /-- AO_EN_FALL (R51). -/
  | aoEnFall
  /-- WAKE_STEP_END (R78). -/
  | wakeStepEnd (o : WakeObs)
  /-- PERST_N_ASSERT (R90). -/
  | perstNAssert (p : Nat)
  /-- PERST_N_DEASSERT (R90). -/
  | perstNDeassert (p : Nat)
  /-- HITCH_READY (R91). -/
  | hitchReady (p : Nat)
  /-- LINK_TRAINED (R107). -/
  | linkTrained (p : Nat) (o : LinkOffer)
  /-- HOT_RESET (R96). -/
  | hotReset (p : Nat)
  /-- SURPRISE_DOWN (R166). -/
  | surpriseDown (p : Nat)
  /-- L0P_WIDTH_CHANGE (R140). -/
  | l0pWidthChange (p width : Nat)
  /-- L1_ENTRY (R134). -/
  | l1Entry (p : Nat) (enter : Bool)
  /-- CONFIG_REQUEST (R93). -/
  | configRequest (p fn : Nat) (r : CfgReq)
  /-- SET_D3HOT (R131). -/
  | setD3hot (p : Nat)
  /-- D3HOT_WRITEBACK_DONE (R131). -/
  | d3hotWritebackDone (p : Nat)
  /-- RETURN_TO_D0 (R132). -/
  | returnToD0 (p : Nat)
  /-- PME_STATUS_CLEAR (R132). -/
  | pmeStatusClear (p : Nat)
  /-- INITIATE_FLR (R136). -/
  | initiateFlr (p fn : Nat)
  /-- FLR_STEP_END (R136). -/
  | flrStepEnd (p fn : Nat)
  /-- INITIATE_CACHE_WRITEBACK (R139). -/
  | initiateCacheWriteback (p : Nat)
  /-- CXL_IO_COMPLETION (R129). -/
  | cxlIoCompletion (p tag : Nat) (data : List Byte) (poison : Bool)
  /-- COMPLETION_TIMEOUT (R153). -/
  | completionTimeout (p tag : Nat)
  /-- D2H_TIMEOUT (R155). -/
  | d2hTimeout (p id : Nat)
  /-- HOST_PORT_ERROR (R146). -/
  | hostPortError (p : Nat) (e : HostError) (i : ErrInfo)
  /-- PORT_HOLD_DONE (R158). -/
  | portHoldDone (p : Nat)
  /-- HOLD_RELEASE (R162). -/
  | holdRelease (p key : Nat) (go : Bool)
  /-- IDE_REQUIRE (R173). -/
  | ideRequire (p : Nat) (io cxl : Bool)
  /-- VF_BIND (R605). -/
  | vfBind (p n coil : Nat)
  /-- VF_UNBIND (R606). -/
  | vfUnbind (p n : Nat)
  /-- TK_OWNER_WRITE (R142). -/
  | tkOwnerWrite (p j func coil : Nat) (valid : Bool)
  /-- HDM_ACCESS (R241). -/
  | hdmAccess (p dpa : Nat) (r : HdmReq)
  /-- QUERY (R171). -/
  | query (p : Nat)
  /-- KEY_PROG (R171). -/
  | keyProg (p stream sub dir set : Nat)
  /-- K_SET_GO (R171). -/
  | kSetGo (p stream sub dir set : Nat)
  /-- K_SET_STOP (R171). -/
  | kSetStop (p stream sub dir set : Nat)
  /-- CXL_QUERY (R171). -/
  | cxlQuery (p : Nat)
  /-- CXL_KEY_PROG (R171). -/
  | cxlKeyProg (p dir set : Nat)
  /-- CXL_K_SET_GO (R171). -/
  | cxlKSetGo (p dir set : Nat)
  /-- CXL_K_SET_STOP (R171). -/
  | cxlKSetStop (p dir set : Nat)
  /-- CXL_GETKEY (R171). -/
  | cxlGetkey (p dir set : Nat)
  /-- FLIT_CRC_FAIL (R184). -/
  | flitCrcFail (k q : Nat) (again : Bool)
  /-- NET_LINK_DOWN (R185). -/
  | netLinkDown (k q : Nat)
  /-- ROUTE_TABLES_LOADED (R192). -/
  | routeTablesLoaded
  /-- NET_QUIET (R192). -/
  | netQuiet
  /-- FENCE_NOTICE (R202). -/
  | fenceNotice (k : Nat) (u : UnitRef)
  /-- CLEARING_NOTICE (R201). -/
  | clearingNotice (k : Nat) (u : UnitRef)
  /-- NET_TIMEOUT (R204). -/
  | netTimeout (k : Nat) (src : Src)
  /-- ESCAPE_WAIT (R190). -/
  | escapeWait (k : Nat) (src : Src)
  /-- AGE_INCREMENT (R195). -/
  | ageIncrement (k : Nat) (src : Src)
  /-- VAULT_REQUEST (R214). -/
  | vaultRequest (v off : Nat) (r : SpoolReq)
  /-- VAULT_CONTROLLER_FAULT (R252). -/
  | vaultControllerFault (v : Nat)
  /-- VAULT_ASSIGN (R213). -/
  | vaultAssign (p v coil : Nat)
  /-- VAULT_RELEASE (R215). -/
  | vaultRelease (p v : Nat)
  /-- VAULT_CLEAR_DONE (R236). -/
  | vaultClearDone (v : Nat)
  /-- PATROL_SCRUB (R234). -/
  | patrolScrub (v off : Nat) (c : LineCheck) (endOfPass : Bool)
  /-- SPARE_ROW_COPY_DONE (R228). -/
  | spareRowCopyDone (v row : Nat)
  /-- KEY_GENERATE (R231). -/
  | keyGenerate (p coil : Nat)
  /-- KEY_CLEAR (R231). -/
  | keyClear (p coil : Nat)
  /-- STRIPE_ACTIVATE (R220). -/
  | stripeActivate (p coil : Nat)
  /-- STRIPE_DEACTIVATE (R220). -/
  | stripeDeactivate (p coil : Nat)
  /-- HDM_MAP_WRITE (R240). -/
  | hdmMapWrite (p f fathom coil : Nat) (valid : Bool)
  /-- RESERVATION_WRITE (R246). -/
  | reservationWrite (p coil gbps : Nat)
  /-- SLICE_BOUNDARY (R248). -/
  | sliceBoundary
  /-- TRANSLATION_MISS (R273). -/
  | translationMiss (c : Nat)
  /-- WALK_ENTRY_READ (R267). -/
  | walkEntryRead (k w : Nat)
  /-- WALKER_FAULT (R274). -/
  | walkerFault (k w : Nat)
  /-- INV_RANGE (R284). -/
  | invRange (p coil base count : Nat)
  /-- INV_ALL (R284). -/
  | invAll (p coil : Nat)
  /-- INVALIDATION_DONE (R286). -/
  | invalidationDone (coil : Nat)
  /-- CONTEXT_ENABLE (R261). -/
  | contextEnable (p coil : Nat)
  /-- CONTEXT_DISABLE (R260). -/
  | contextDisable (p coil : Nat)
  /-- CTX_TABLE_WRITE (R295). -/
  | ctxTableWrite (p coil : Nat) (isRoot : Bool) (base count : Nat)
  /-- SHARE_GRANT (R281). -/
  | shareGrant (p g owner grantee perm : Nat)
  /-- SHARE_REVOKE (R281). -/
  | shareRevoke (p g : Nat)
  /-- SHARE_REVOKE_DRAINED (R281). -/
  | shareRevokeDrained (g : Nat)
  /-- L1I_FILL (R298). -/
  | l1iFill (c : Nat)
  /-- L1D_FILL_PIECE (R302). -/
  | l1dFillPiece (c line q : Nat)
  /-- MB_DRAIN_TIMEOUT (R306). -/
  | mbDrainTimeout (c line : Nat)
  /-- MB_DRAIN_ACK (R306). -/
  | mbDrainAck (c line : Nat)
  /-- NT_DRAIN_TIMEOUT (R389). -/
  | ntDrainTimeout (c block : Nat)
  /-- NT_DRAIN_ACK (R389). -/
  | ntDrainAck (c block : Nat)
  /-- PLY_CACHE_TAG_UE (R311). -/
  | plyCacheTagUe (y : Nat)
  /-- CARVE (R320). -/
  | carve (p y ways : Nat)
  /-- CARVE_DONE (R320). -/
  | carveDone (y : Nat)
  /-- CLEAN_WAY (R322). -/
  | cleanWay (p y way set : Nat)
  /-- INV_WAY (R322). -/
  | invWay (p y way set : Nat)
  /-- CLEAN_INV_WAY (R322). -/
  | cleanInvWay (p y way set : Nat)
  /-- CLEAN_INV_ALL (R322). -/
  | cleanInvAll (p y : Nat)
  /-- MAINT_DONE (R324). -/
  | maintDone (y : Nat) (who : Option (Nat × Nat))
  /-- BRD (R339). -/
  | brd (y line : Nat) (streaming : Bool)
  /-- BRDS (R339). -/
  | brds (y line : Nat)
  /-- BRDX (R339). -/
  | brdx (y line : Nat)
  /-- BOWN (R339). -/
  | bown (y line : Nat) (full : Bool)
  /-- BWB (R340). -/
  | bwb (y line : Nat)
  /-- BEVC (R340). -/
  | bevc (y line : Nat)
  /-- BCLN (R340). -/
  | bcln (y line : Nat)
  /-- BCLR (R339). -/
  | bclr (y line : Nat)
  /-- BINV (R339). -/
  | binv (y line : Nat)
  /-- BNC (R339). -/
  | bnc (y line : Nat) (c : LineCheck)
  /-- REQUEST_PROMOTED (R342). -/
  | requestPromoted (y line : Nat)
  /-- RDA (R348). -/
  | rda (y line : Nat) (c : LineCheck)
  /-- RDS (R348). -/
  | rds (y line : Nat) (c : LineCheck)
  /-- RDX (R348). -/
  | rdx (y line : Nat) (c : LineCheck)
  /-- OWN (R348). -/
  | own (y line : Nat) (full : Bool) (c : LineCheck)
  /-- WB (R349). -/
  | wb (k line : Nat)
  /-- CLN (R349). -/
  | cln (k line : Nat)
  /-- EVC (R349). -/
  | evc (k line : Nat)
  /-- DNG (R349). -/
  | dng (k line : Nat)
  /-- CLNR (R348). -/
  | clnr (y line : Nat)
  /-- INVR (R348). -/
  | invr (y line : Nat)
  /-- RDNC (R348). -/
  | rdnc (line : Nat) (coil shared : Option Nat) (c : LineCheck)
  /-- WRNC (R348). -/
  | wrnc (line : Nat) (coil shared : Option Nat) (data : LineData) (mask : BitVec 64) (poison : Bool)
  /-- ATOM (R348). -/
  | atom (line : Nat) (coil shared : Option Nat) (op off size b c : Nat)
  /-- SNPS (R336). -/
  | snps (k line : Nat)
  /-- SNPINV (R336). -/
  | snpinv (k line : Nat)
  /-- SNPCUR (R336). -/
  | snpcur (k line : Nat)
  /-- SNPCLEAN (R336). -/
  | snpclean (k line : Nat)
  /-- GRANT (R347). -/
  | grant (line : Nat)
  /-- ACK (R343). -/
  | ack (k line : Nat)
  /-- RSPI (R337). -/
  | rspi (h line : Nat)
  /-- RSPS (R337). -/
  | rsps (h line : Nat)
  /-- RSPV (R337). -/
  | rspv (h line : Nat)
  /-- RSPDATA (R348). -/
  | rspdata (h line : Nat)
  /-- CMPACK (R346). -/
  | cmpack (line : Nat)
  /-- SWEEP_DONE (R353). -/
  | sweepDone (k : Nat)
  /-- GO (R355). -/
  | go (p id : Nat) (go : GoKind) (data : LineData) (poison : Bool)
  /-- GO_WRITEPULL (R355). -/
  | goWritepull (p id : Nat)
  /-- EXTCMP (R356). -/
  | extcmp (p id : Nat)
  /-- H2D_SNPINV (R357). -/
  | h2dSnpinv (p addr : Nat)
  /-- H2D_SNPDATA (R357). -/
  | h2dSnpdata (p addr : Nat)
  /-- H2D_SNPCUR (R357). -/
  | h2dSnpcur (p addr : Nat)
  /-- MEMRD (R358). -/
  | memrd (p dpa mv snp : Nat)
  /-- MEMRDDATA (R358). -/
  | memrddata (p dpa : Nat)
  /-- MEMINV (R358). -/
  | meminv (p dpa mv : Nat)
  /-- MEMCLNEVCT (R358). -/
  | memclnevct (p dpa : Nat)
  /-- MEMWR (R358). -/
  | memwr (p dpa mv : Nat) (data : LineData) (poison : Bool)
  /-- MEMWRPTL (R358). -/
  | memwrptl (p dpa mv : Nat) (data : LineData) (mask : BitVec 64) (poison : Bool)
  /-- MEMSPECRD (R358). -/
  | memspecrd (p dpa : Nat)
  /-- MEMRDFWD (R361). -/
  | memrdfwd (p dpa : Nat)
  /-- MEMWRFWD (R361). -/
  | memwrfwd (p dpa : Nat)
  /-- BIRSP (R359). -/
  | birsp (p line : Nat) (kind : Rsp)
  /-- BICONFLICT (R359). -/
  | biconflict (p line : Nat) (op : HomeOp)
  /-- BIAS_FLIP (R362). -/
  | biasFlip (p fathom : Nat) (toDevice : Bool)
  /-- BIAS_FLIP_DONE (R362). -/
  | biasFlipDone (p : Nat)
  /-- FLUSH_READ_DONE (R404). -/
  | flushReadDone (p tag : Nat) (ok : Bool)
  /-- ADD (R449). -/
  | add (c d a : Nat) (b : Opnd)
  /-- SUB (R449). -/
  | sub (c d a b : Nat)
  /-- MUL (R449). -/
  | mul (c d a : Nat) (b : Opnd)
  /-- MULH (R449). -/
  | mulh (c d a b : Nat)
  /-- MULHU (R449). -/
  | mulhu (c d a b : Nat)
  /-- DIV (R451). -/
  | div (c d a b : Nat)
  /-- DIVU (R451). -/
  | divu (c d a b : Nat)
  /-- REM (R451). -/
  | rem (c d a b : Nat)
  /-- REMU (R451). -/
  | remu (c d a b : Nat)
  /-- AND (R449). -/
  | and (c d a : Nat) (b : Opnd)
  /-- OR (R449). -/
  | or (c d a : Nat) (b : Opnd)
  /-- XOR (R449). -/
  | xor (c d a : Nat) (b : Opnd)
  /-- ANDN (R449). -/
  | andn (c d a b : Nat)
  /-- SLL (R449). -/
  | sll (c d a : Nat) (b : Opnd)
  /-- SRL (R449). -/
  | srl (c d a : Nat) (b : Opnd)
  /-- SRA (R449). -/
  | sra (c d a : Nat) (b : Opnd)
  /-- ROR (R449). -/
  | ror (c d a : Nat) (b : Opnd)
  /-- SLT (R449). -/
  | slt (c d a : Nat) (b : Opnd)
  /-- SLTU (R449). -/
  | sltu (c d a : Nat) (b : Opnd)
  /-- SEQ (R449). -/
  | seq (c d a : Nat) (b : Opnd)
  /-- MIN (R449). -/
  | min (c d a b : Nat)
  /-- MAX (R449). -/
  | max (c d a b : Nat)
  /-- MINU (R449). -/
  | minu (c d a b : Nat)
  /-- MAXU (R449). -/
  | maxu (c d a b : Nat)
  /-- CLZ (R449). -/
  | clz (c d a : Nat)
  /-- CTZ (R449). -/
  | ctz (c d a : Nat)
  /-- POPC (R449). -/
  | popc (c d a : Nat)
  /-- SEXT (R449). -/
  | sext (c d a w : Nat)
  /-- ZEXT (R449). -/
  | zext (c d a w : Nat)
  /-- CSEL (R449). -/
  | csel (c d a b e : Nat)
  /-- MOVK (R449). -/
  | movk (c d imm h : Nat)
  /-- NOP (R452). -/
  | nop (c : Nat)
  /-- J (R452). -/
  | j (c off : Nat)
  /-- JAL (R452). -/
  | jal (c d off : Nat)
  /-- JR (R453). -/
  | jr (c a off : Nat)
  /-- JALR (R453). -/
  | jalr (c d a off : Nat)
  /-- BEQ (R452). -/
  | beq (c a b off : Nat)
  /-- BNE (R452). -/
  | bne (c a b off : Nat)
  /-- BLT (R452). -/
  | blt (c a b off : Nat)
  /-- BGE (R452). -/
  | bge (c a b off : Nat)
  /-- BLTU (R452). -/
  | bltu (c a b off : Nat)
  /-- BGEU (R452). -/
  | bgeu (c a b off : Nat)
  /-- BPANY (R452). -/
  | bpany (c a off : Nat)
  /-- BPNONE (R452). -/
  | bpnone (c a off : Nat)
  /-- ICINV (R454). -/
  | icinv (c : Nat)
  /-- LD (R457). -/
  | ld (c d a : Nat) (m : MMod) (ecc : Nat)
  /-- ST (R457). -/
  | st (c a b : Nat) (m : MMod)
  /-- LDX (R457). -/
  | ldx (c d a b : Nat) (m : MMod)
  /-- STX (R457). -/
  | stx (c a b e : Nat) (m : MMod)
  /-- VADD (R462). -/
  | vadd (c d a b : Nat) (m : VMod)
  /-- VSUB (R462). -/
  | vsub (c d a b : Nat) (m : VMod)
  /-- VMUL (R462). -/
  | vmul (c d a b : Nat) (m : VMod)
  /-- VMULH (R462). -/
  | vmulh (c d a b : Nat) (m : VMod)
  /-- VMIN (R462). -/
  | vmin (c d a b : Nat) (m : VMod)
  /-- VMAX (R462). -/
  | vmax (c d a b : Nat) (m : VMod)
  /-- VABS (R462). -/
  | vabs (c d a : Nat) (m : VMod)
  /-- VNEG (R462). -/
  | vneg (c d a : Nat) (m : VMod)
  /-- VADDS (R462). -/
  | vadds (c d a b : Nat) (m : VMod)
  /-- VSUBS (R462). -/
  | vsubs (c d a b : Nat) (m : VMod)
  /-- VAND (R462). -/
  | vand (c d a b : Nat) (m : VMod)
  /-- VOR (R462). -/
  | vor (c d a b : Nat) (m : VMod)
  /-- VXOR (R462). -/
  | vxor (c d a b : Nat) (m : VMod)
  /-- VNOT (R462). -/
  | vnot (c d a : Nat) (m : VMod)
  /-- VSHL (R462). -/
  | vshl (c d a b : Nat) (m : VMod)
  /-- VSHR (R462). -/
  | vshr (c d a b : Nat) (m : VMod)
  /-- VSHLI (R462). -/
  | vshli (c d a : Nat) (m : VMod)
  /-- VSHRI (R462). -/
  | vshri (c d a : Nat) (m : VMod)
  /-- VFADD (R463). -/
  | vfadd (c d a b : Nat) (m : VMod)
  /-- VFSUB (R463). -/
  | vfsub (c d a b : Nat) (m : VMod)
  /-- VFMUL (R463). -/
  | vfmul (c d a b : Nat) (m : VMod)
  /-- VFMA (R463). -/
  | vfma (c d a b : Nat) (m : VMod)
  /-- VFMIN (R463). -/
  | vfmin (c d a b : Nat) (m : VMod)
  /-- VFMAX (R463). -/
  | vfmax (c d a b : Nat) (m : VMod)
  /-- VFABS (R463). -/
  | vfabs (c d a : Nat) (m : VMod)
  /-- VFNEG (R463). -/
  | vfneg (c d a : Nat) (m : VMod)
  /-- VFDIV (R463). -/
  | vfdiv (c d a b : Nat) (m : VMod)
  /-- VFSQRT (R463). -/
  | vfsqrt (c d a : Nat) (m : VMod)
  /-- VFRCP (R463). -/
  | vfrcp (c d a : Nat) (m : VMod)
  /-- VEXP2 (R463). -/
  | vexp2 (c d a : Nat) (m : VMod)
  /-- VLOG2 (R463). -/
  | vlog2 (c d a : Nat) (m : VMod)
  /-- VCMP (R464). -/
  | vcmp (c d a b : Nat) (m : VMod)
  /-- VFCMP (R464). -/
  | vfcmp (c d a b : Nat) (m : VMod)
  /-- PAND (R462). -/
  | pand (c d a b : Nat)
  /-- POR (R462). -/
  | por (c d a b : Nat)
  /-- PXOR (R462). -/
  | pxor (c d a b : Nat)
  /-- PANDN (R462). -/
  | pandn (c d a b : Nat)
  /-- PNOT (R462). -/
  | pnot (c d a : Nat)
  /-- PFIRST (R462). -/
  | pfirst (c d a ty : Nat)
  /-- PCNT (R462). -/
  | pcnt (c d a ty : Nat)
  /-- VMOV (R462). -/
  | vmov (c d a : Nat) (m : VMod)
  /-- VBCAST (R462). -/
  | vbcast (c d a : Nat) (m : VMod)
  /-- VEXT (R462). -/
  | vext (c d a : Nat) (m : VMod)
  /-- VINS (R462). -/
  | vins (c d a : Nat) (m : VMod)
  /-- VPERM (R462). -/
  | vperm (c d a b : Nat) (m : VMod)
  /-- VSLIDEUP (R462). -/
  | vslideup (c d a : Nat) (m : VMod)
  /-- VSLIDEDN (R462). -/
  | vslidedn (c d a : Nat) (m : VMod)
  /-- VRED (R467). -/
  | vred (c d a : Nat) (m : VMod)
  /-- VCVT (R465). -/
  | vcvt (c d a : Nat) (m : VMod)
  /-- VMXSCALE (R466). -/
  | vmxscale (c d a : Nat) (m : VMod)
  /-- VCVTMX (R466). -/
  | vcvtmx (c d a b : Nat) (m : VMod)
  /-- VMXDEC (R466). -/
  | vmxdec (c d a b : Nat) (m : VMod)
  /-- VLD (R469). -/
  | vld (c d a : Nat) (m : VMMod)
  /-- VST (R469). -/
  | vst (c d a : Nat) (m : VMMod)
  /-- VLDS (R469). -/
  | vlds (c d a b : Nat) (m : VMMod)
  /-- VSTS (R469). -/
  | vsts (c d a b : Nat) (m : VMMod)
  /-- VLDX (R469). -/
  | vldx (c d a b : Nat) (m : VMMod)
  /-- VSTX (R471). -/
  | vstx (c d a b : Nat) (m : VMMod)
  /-- VLDB (R469). -/
  | vldb (c d a : Nat) (m : VMMod)
  /-- MMA (R478). -/
  | mma (c d a b e fa fb : Nat) (mx ovw : Bool)
  /-- MMA_COMPLETE (R427). -/
  | mmaComplete (c : Nat)
  /-- ACCZ (R479). -/
  | accz (c d : Nat)
  /-- ACCLD (R479). -/
  | accld (c d a : Nat)
  /-- ACCST (R479). -/
  | accst (c a b : Nat)
  /-- ACCCVT (R480). -/
  | acccvt (c a b ty rmo : Nat) (int : Bool)
  /-- ACCRD (R479). -/
  | accrd (c d a b : Nat)
  /-- ACCWR (R479). -/
  | accwr (c d a b : Nat)
  /-- TLD (R483). -/
  | tld (c d a off ecc : Nat)
  /-- TST (R483). -/
  | tst (c d a off : Nat)
  /-- TCPY (R485). -/
  | tcpy (c d a b : Nat)
  /-- TZERO (R485). -/
  | tzero (c a b : Nat)
  /-- TXP (R484). -/
  | txp (c d a w : Nat)
  /-- FENCE_C (R377). -/
  | fenceC (c mask : Nat)
  /-- FENCE_P (R377). -/
  | fenceP (c mask : Nat)
  /-- FENCE_S (R377). -/
  | fenceS (c mask : Nat)
  /-- BEND_WFENCE (R491). -/
  | bendWfence (c a mask : Nat)
  /-- LDRSV (R392). -/
  | ldrsv (c d a : Nat) (m : MMod)
  /-- STCND (R392). -/
  | stcnd (c d a b : Nat) (m : MMod)
  /-- AMOSWAP (R488). -/
  | amoswap (c d a b : Nat) (m : MMod)
  /-- AMOADD (R488). -/
  | amoadd (c d a b : Nat) (m : MMod)
  /-- AMOAND (R488). -/
  | amoand (c d a b : Nat) (m : MMod)
  /-- AMOOR (R488). -/
  | amoor (c d a b : Nat) (m : MMod)
  /-- AMOXOR (R488). -/
  | amoxor (c d a b : Nat) (m : MMod)
  /-- AMOMIN (R488). -/
  | amomin (c d a b : Nat) (m : MMod)
  /-- AMOMAX (R488). -/
  | amomax (c d a b : Nat) (m : MMod)
  /-- AMOMINU (R488). -/
  | amominu (c d a b : Nat) (m : MMod)
  /-- AMOMAXU (R488). -/
  | amomaxu (c d a b : Nat) (m : MMod)
  /-- AMOCAS (R488). -/
  | amocas (c d a b e : Nat) (m : MMod)
  /-- AMOFADD (R489). -/
  | amofadd (c d a b : Nat) (m : MMod)
  /-- AMOFMIN (R489). -/
  | amofmin (c d a b : Nat) (m : MMod)
  /-- AMOFMAX (R489). -/
  | amofmax (c d a b : Nat) (m : MMod)
  /-- ST_NT (R388). -/
  | stNt (c a b : Nat) (m : MMod)
  /-- VST_NT (R487). -/
  | vstNt (c d a : Nat) (m : MMod)
  /-- CLEAN (R322). -/
  | clean (c a : Nat) (m : MMod)
  /-- INVALIDATE (R322). -/
  | invalidate (c a : Nat) (m : MMod)
  /-- CLEAN_INV (R322). -/
  | cleanInv (c a : Nat) (m : MMod)
  /-- ZERO (R322). -/
  | zero (c a : Nat) (m : MMod)
  /-- KDEC (R492). -/
  | kdec (c d a b : Nat)
  /-- KWAIT (R493). -/
  | kwait (c d a b : Nat)
  /-- SPAWN (R494). -/
  | spawn (c d a ring : Nat)
  /-- SPAWN_TICKET_WRITTEN (R494). -/
  | spawnTicketWritten (c : Nat) (ok : Bool)
  /-- TCANCEL (R579). -/
  | tcancel (c d a : Nat)
  /-- TEND (R495). -/
  | tend (c a : Nat)
  /-- EVMON (R492). -/
  | evmon (c a : Nat) (m : MMod)
  /-- EVWAIT (R493). -/
  | evwait (c d a m : Nat)
  /-- MONITOR_WAKE (R493). -/
  | monitorWake (c : Nat)
  /-- KNOT_WAIT_END (R493). -/
  | knotWaitEnd (c : Nat)
  /-- WAIT_TIMEOUT (R493). -/
  | waitTimeout (c : Nat)
  /-- CRR (R413). -/
  | crr (c d n : Nat)
  /-- CRW (R413). -/
  | crw (c a n : Nat)
  /-- EHINT (R498). -/
  | ehint (c a : Nat)
  /-- OPREQ (R498). -/
  | opreq (c d p : Nat)
  /-- RIGCALL_COUNTERS (R499). -/
  | rigcallCounters (c : Nat)
  /-- RIGCALL_TILE_CLEAR (R499). -/
  | rigcallTileClear (c : Nat)
  /-- RIGCALL_LOG (R499). -/
  | rigcallLog (c : Nat)
  /-- RIGRET (R414). -/
  | rigret (c : Nat)
  /-- TILEZ (R497). -/
  | tilez (c : Nat)
  /-- CORE_ACCESS_RESPONSE (R435). -/
  | coreAccessResponse (c id : Nat) (ck : LineCheck)
  /-- ENERGY_OVERRUN (R435). -/
  | energyOverrun (c : Nat)
  /-- CORE_STATE_UE (R414). -/
  | coreStateUe (c : Nat)
  /-- TERMINATION_DONE (R436). -/
  | terminationDone (c energy : Nat)
  /-- TASK_WATCHDOG (R659). -/
  | taskWatchdog (c : Nat)
  /-- TERMINATION_WATCHDOG (R437). -/
  | terminationWatchdog (c : Nat)
  /-- CORE_RESET_END (R96). -/
  | coreResetEnd (c : Nat)
  /-- PLY_RESET_END (R96). -/
  | plyResetEnd (y : Nat)
  /-- BAY_RESET_END (R96). -/
  | bayResetEnd (k : Nat)
  /-- VAULT_RESET_END (R96). -/
  | vaultResetEnd (v : Nat)
  /-- COIL_RESET_END (R624). -/
  | coilResetEnd (coil : Nat)
  /-- SUBMISSION_DOORBELL (R565). -/
  | submissionDoorbell (p coil i form value : Nat)
  /-- COMPLETION_HEAD_DOORBELL (R565). -/
  | completionHeadDoorbell (p coil i form value : Nat)
  /-- SUBMISSION_RING_ENABLE (R570). -/
  | submissionRingEnable (p coil i : Nat)
  /-- SUBMISSION_RING_DISABLE (R570). -/
  | submissionRingDisable (p coil i : Nat)
  /-- COMPLETION_RING_ENABLE (R563). -/
  | completionRingEnable (p coil i : Nat)
  /-- COMPLETION_RING_DISABLE (R583). -/
  | completionRingDisable (p coil i : Nat)
  /-- TICKET_READ (R570). -/
  | ticketRead (coil i : Nat) (host : Option (List Byte))
  /-- SKFLUSH (R569). -/
  | skflush (p coil : Nat)
  /-- KNOT_READ (R574). -/
  | knotRead (p coil i : Nat)
  /-- KNOT_ARM (R574). -/
  | knotArm (p coil i n : Nat)
  /-- KNOT_DEC (R574). -/
  | knotDec (p coil i n : Nat)
  /-- KNOT_MARKED_DEC (R574). -/
  | knotMarkedDec (p coil i n : Nat)
  /-- KNOT_RESET (R574). -/
  | knotReset (p coil i : Nat)
  /-- CANCEL (R579). -/
  | cancel (p coil id : Nat)
  /-- SLACK_TICK (R587). -/
  | slackTick (m : TickMeas)
  /-- TASK_PLACEMENT (R591). -/
  | taskPlacement (t : Nat)
  /-- DISPATCH (R589). -/
  | dispatch (k : Nat)
  /-- TASK_END (R636). -/
  | taskEnd (t : Nat)
  /-- HELD_RECORD_RELEASE (R583). -/
  | heldRecordRelease (coil cring : Nat)
  /-- MODERATION_EXPIRY (R584). -/
  | moderationExpiry (coil cring : Nat)
  /-- CORE_PARK_RETAIN (R593). -/
  | coreParkRetain (c : Nat)
  /-- CORE_PARK_DARK (R593). -/
  | coreParkDark (c : Nat)
  /-- CORE_WAKE_DONE (R538). -/
  | coreWakeDone (c : Nat)
  /-- BAY_PLL_STOP (R536). -/
  | bayPllStop (k : Nat)
  /-- BAY_PLL_LOCK (R536). -/
  | bayPllLock (k : Nat)
  /-- TILE_STORE_POWER_UP (R539). -/
  | tileStorePowerUp (c : Nat)
  /-- OP_CHANGE_DONE (R542). -/
  | opChangeDone (c : Nat)
  /-- PWRBRAKE_N_ASSERT (R551). -/
  | pwrbrakeNAssert
  /-- PWRBRAKE_N_DEASSERT (R552). -/
  | pwrbrakeNDeassert
  /-- PUMP_FAULT_IN (R64). -/
  | pumpFaultIn
  /-- LEAK_IN (R64). -/
  | leakIn
  /-- INPUT_RANGE (R56). -/
  | inputRange (low : Bool)
  /-- INPUT_LOSS (R57). -/
  | inputLoss (copied : Bool)
  /-- COOLANT_TERM_UPDATE (R544). -/
  | coolantTermUpdate (tin tout flow : Option Nat)
  /-- THERMAL_BAND_CHANGE (R555). -/
  | thermalBandChange (sensor reading : Nat)
  /-- SENSOR_FAULT (R554). -/
  | sensorFault (sensor : Nat)
  /-- BAY_TRIP (R556). -/
  | bayTrip (k : Nat)
  /-- BAY_TRIP_RECOVERY (R556). -/
  | bayTripRecovery (k : Nat)
  /-- WAFER_TRIP (R557). -/
  | waferTrip (cause : Nat)
  /-- WAFER_TRIP_RECOVERY (R557). -/
  | waferTripRecovery
  /-- PATROL_TEST_START (R632). -/
  | patrolTestStart (c : Nat)
  /-- PATROL_TEST_DONE (R632). -/
  | patrolTestDone (c : Nat) (ok : Bool)
  /-- PAWL_WATCHDOG (R659). -/
  | pawlWatchdog (k : Nat)
  /-- CAPSTAN_WATCHDOG (R659). -/
  | capstanWatchdog
  /-- TAIL_WRITE (R506). -/
  | tailWrite (p ch tail : Nat)
  /-- TAIL_WORD_CHANGE (R507). -/
  | tailWordChange (ch : Nat)
  /-- DESCRIPTOR_FETCHED (R513). -/
  | descriptorFetched (ch : Nat) (host : Option (List Byte))
  /-- BEAT_READ_DATA (R515). -/
  | beatReadData (ch : Nat)
  /-- BEAT_WRITE_ACK (R516). -/
  | beatWriteAck (ch : Nat)
  /-- DESCRIPTOR_COMPLETE (R516). -/
  | descriptorComplete (ch : Nat)
  /-- STATUS_WRITE_ACK (R518). -/
  | statusWriteAck (ch : Nat)
  /-- CHANNEL_ENABLE (R505). -/
  | channelEnable (p ch : Nat)
  /-- CHANNEL_DISABLE (R527). -/
  | channelDisable (p ch : Nat)
  /-- PAUSE (R522). -/
  | pause (p ch : Nat)
  /-- PAUSE_CLEAR (R523). -/
  | pauseClear (p ch : Nat)
  /-- PAUSED (R522). -/
  | paused (ch : Nat)
  /-- CHANNEL_STOPPED (R527). -/
  | channelStopped (ch : Nat)
  /-- CREATE (R604). -/
  | create (p coil : Nat)
  /-- SEAL (R612). -/
  | seal (p coil : Nat)
  /-- DESTROY (R625). -/
  | destroy (p coil : Nat)
  /-- DESTRUCTION_STEP_END (R625). -/
  | destructionStepEnd (coil : Nat)
  /-- COIL_REPEATABLE_WRITE (R617). -/
  | coilRepeatableWrite (p coil : Nat) (on : Bool)
  /-- PLY_ASSIGN (R607). -/
  | plyAssign (p y coil : Nat)
  /-- PLY_RELEASE (R608). -/
  | plyRelease (p y : Nat)
  /-- PLY_CLEAR_STEP_END (R609). -/
  | plyClearStepEnd (y : Nat)
  /-- SHARE_WRITE (R613). -/
  | shareWrite (p coil w : Nat)
  /-- QUIESCE (R624). -/
  | quiesce (p coil : Nat)
  /-- RESUME (R624). -/
  | resume (p coil : Nat)
  /-- RESET (R624). -/
  | reset (p coil : Nat)
  /-- BEND_ENABLE (R663). -/
  | bendEnable (p b : Nat)
  /-- BEND_DISABLE (R663). -/
  | bendDisable (p b : Nat)
  /-- TRAINING_STEP_END (R666). -/
  | trainingStepEnd (b : Nat) (o : TrainObs)
  /-- TRAINING_RETRY (R667). -/
  | trainingRetry (b : Nat)
  /-- FLIT_RECEIVED (R675). -/
  | flitReceived (b : Nat) (flit : BitVec 2048) (corrected : Nat) (uncorr : Bool)
  /-- NAK (R676). -/
  | nak (b seq : Nat)
  /-- INIT (R672). -/
  | init (b wafer system port : Nat) (credits : List Nat)
  /-- INIT_ACK (R672). -/
  | initAck (b : Nat)
  /-- DOWN (R672). -/
  | down (b : Nat)
  /-- INIT_RESEND (R672). -/
  | initResend (b : Nat)
  /-- ACK_TIMER (R675). -/
  | ackTimer (b : Nat)
  /-- REPLAY_TIMEOUT (R676). -/
  | replayTimeout (b : Nat)
  /-- RECOVERY_END (R677). -/
  | recoveryEnd (b : Nat) (ok : Bool) (lanes : Nat)
  /-- LOSS_OF_SIGNAL (R677). -/
  | lossOfSignal (b : Nat)
  /-- RETRAIN (R702). -/
  | retrain (p b : Nat)
  /-- RD (R684). -/
  | rd (b : Nat) (c : LineCheck)
  /-- WR (R688). -/
  | wr (b : Nat)
  /-- BEND_ATOM (R684). -/
  | bendAtom (b : Nat)
  /-- WFENCE (R689). -/
  | wfence (b : Nat)
  /-- MSG (R692). -/
  | msg (b : Nat)
  /-- RD_DATA (R685). -/
  | rdData (b : Nat)
  /-- CMP (R688). -/
  | cmp (b : Nat)
  /-- ATOM_DATA (R685). -/
  | atomData (b : Nat)
  /-- BEND_REQUEST_TIMEOUT (R681). -/
  | bendRequestTimeout (b tag : Nat)
  /-- WINDOW_OPEN (R682). -/
  | windowOpen (p b w coil dst dstPort entry kind fathoms : Nat)
  /-- WINDOW_CLOSE (R686). -/
  | windowClose (p b w : Nat)
  /-- WINDOW_DRAINED (R686). -/
  | windowDrained (b : Nat) (entry : Bool) (i : Nat)
  /-- SPLICE_ENTRY_VALID (R683). -/
  | spliceEntryValid (p b e coil kind : Nat) (r w : Bool) (srcWafer srcCoil : Nat)
  /-- SPLICE_ENTRY_INVALIDATE (R686). -/
  | spliceEntryInvalidate (p b e : Nat)
  /-- MSG_PARTIAL_TIMEOUT (R690). -/
  | msgPartialTimeout (b w block : Nat)
  /-- HALYARD_START (R708). -/
  | halyardStart (c : Nat)
  /-- HALYARD_STOP (R709). -/
  | halyardStop (coil : Nat)
  /-- REQUEST_SUBMIT (R713). -/
  | requestSubmit (coil r tail : Nat)
  /-- HALYARD_STEP (R716). -/
  | halyardStep (coil : Nat) (ends : List ModelEnd)
  /-- HALYARD_RECOVERY (R729). -/
  | halyardRecovery (coil : Nat)
  /-- FORWARD_TIMEOUT (R727). -/
  | forwardTimeout (coil serial : Nat)
  /-- FRAGMENT_TIMEOUT (R727). -/
  | fragmentTimeout (coil wafer serial : Nat)
  /-- CLEAT_WATCHDOG (R660). -/
  | cleatWatchdog
  /-- GWYN_RESUME (R660). -/
  | gwynResume
  /-- NVM_UPDATE_DONE (R656). -/
  | nvmUpdateDone
  /-- PLATE_UPDATE_START (R73). -/
  | plateUpdateStart (readings : List Nat)
  /-- PLATE_STEP_DONE (R73). -/
  | plateStepDone
  /-- COALESCE_EXPIRY (R649). -/
  | coalesceExpiry (code : Nat) (u : UnitRef) (coil : Option Nat)
  /-- EVENT_VECTOR_HOLDOFF (R653). -/
  | eventVectorHoldoff (p : Nat)
  /-- EVENT_POP (R771). -/
  | eventPop (p : Nat)
  /-- CL_GPIO_WRITE (R66). -/
  | clGpioWrite (p pin func : Nat) (high : Bool)
  /-- CL_FENCE_REQ (R630). -/
  | clFenceReq (p kind unit : Nat)
  /-- SKEIN_VERIFY (R767). -/
  | skeinVerify (p coil : Nat)
  /-- SKEIN_VERIFY_DONE (R767). -/
  | skeinVerifyDone (status size : Nat)
  /-- TSYNC_EDGE (R764). -/
  | tsyncEdge (offsetNs : Int)
  /-- TSYNC_EDGE_MISSED (R764). -/
  | tsyncEdgeMissed
  /-- LOCATE_N (R52). -/
  | locateN (low : Bool)
  /-- LOCATE_TIMEOUT (R755). -/
  | locateTimeout
  /-- OSFP_INSERT (R768). -/
  | osfpInsert (b cage : Nat)
  /-- OSFP_FAULT (R768). -/
  | osfpFault (b cage : Nat)
  /-- SET_ENDPOINT_ID (R751). -/
  | setEndpointId (eid : Nat)
  /-- GET_ENDPOINT_ID (R751). -/
  | getEndpointId
  /-- GET_ENDPOINT_UUID (R751). -/
  | getEndpointUuid
  /-- GET_MCTP_VERSION_SUPPORT (R751). -/
  | getMctpVersionSupport (type : Nat)
  /-- GET_MESSAGE_TYPE_SUPPORT (R751). -/
  | getMessageTypeSupport
  /-- GET_PDR (R753). -/
  | getPdr (handle : Nat)
  /-- GET_PDR_REPOSITORY_INFO (R753). -/
  | getPdrRepositoryInfo
  /-- GET_SENSOR_READING (R753). -/
  | getSensorReading (id measured : Nat)
  /-- GET_STATE_SENSOR_READINGS (R753). -/
  | getStateSensorReadings (id : Nat)
  /-- POWER_CAP_VOLATILE (R755). -/
  | powerCapVolatile (w : Nat)
  /-- POWER_CAP_PERSISTENT (R755). -/
  | powerCapPersistent (w : Nat)
  /-- LOCATE (R755). -/
  | locate (on : Bool) (timeout : Nat)
  /-- GET_NUMERIC_EFFECTER_VALUE (R753). -/
  | getNumericEffecterValue (id : Nat)
  /-- GET_STATE_EFFECTER_STATES (R753). -/
  | getStateEffecterStates (id : Nat)
  /-- SET_EVENT_RECEIVER (R754). -/
  | setEventReceiver (eid : Nat)
  /-- WAFER_RESET (R86). -/
  | waferReset
  /-- BAY_RESET (R97). -/
  | bayReset (k : Nat)
  /-- PORT_RESET (R756). -/
  | portReset (isBend : Bool) (p : Nat)
  /-- PORT_HOLD (R157). -/
  | portHold (p : Nat)
  /-- PORT_RELEASE (R162). -/
  | portRelease (p : Nat)
  /-- SELF_TEST_MODE (R80). -/
  | selfTestMode (m : Nat)
  /-- STOPPER_CLEAR (R89). -/
  | stopperClear (full : Bool) (units : List UnitRef)
  /-- FENCE_REQUEST (R630). -/
  | fenceRequest (u : UnitRef)
  /-- CONTROL_PORT (R118). -/
  | controlPort (p : Nat)
  /-- GPIO_CLAIM (R66). -/
  | gpioClaim (pin func : Nat) (store : Bool)
  /-- BEND_SETTINGS (R756). -/
  | bendSettings (b ctl : Nat) (routes : List Nat)
  /-- EVENT_READ (R756). -/
  | eventRead (persistent : Bool) (index count : Nat)
  /-- EVENT_ACK (R648). -/
  | eventAck (wake index : Nat)
  /-- EVENT_CONFIG (R754). -/
  | eventConfig (threshold : Nat)
  /-- MAP_READ (R642). -/
  | mapRead (which : Nat)
  /-- PLATE_REDRAW (R765). -/
  | plateRedraw
  /-- SET_TIME (R763). -/
  | setTime (ns : Nat)
  /-- FW_COMMIT (R760). -/
  | fwCommit
  /-- FW_ROLLBACK (R760). -/
  | fwRollback
  /-- FUSE_MIN_VERSION (R761). -/
  | fuseMinVersion (v : Nat)
  /-- REQUEST_UPDATE (R758). -/
  | requestUpdate
  /-- PASS_COMPONENT_TABLE (R758). -/
  | passComponentTable (id : Nat)
  /-- UPDATE_COMPONENT (R758). -/
  | updateComponent (id : Nat)
  /-- FIRMWARE_DATA_RECEIVED (R758). -/
  | firmwareDataReceived (n : Nat) (last signed : Bool) (version : Nat)
  /-- ACTIVATE_FIRMWARE (R759). -/
  | activateFirmware
  /-- TRIAL_TIMEOUT (R760). -/
  | trialTimeout
  /-- IMAGE_COPY_DONE (R760). -/
  | imageCopyDone
  /-- GET_CERTIFICATE (R762). -/
  | getCertificate (slot : Nat)
  /-- CHALLENGE (R762). -/
  | challenge (nonce : Nat)
  /-- GET_MEASUREMENTS (R762). -/
  | getMeasurements (index : Nat)
  /-- KEY_EXCHANGE (R762). -/
  | keyExchange
  /-- HEARTBEAT (R762). -/
  | heartbeat (session : Nat)
  /-- KEY_UPDATE (R762). -/
  | keyUpdate (session : Nat)
  /-- RC_READ (R13). -/
  | rcRead (a : Agent) (off size : Nat)
  /-- REGISTER_WRITE (R13). -/
  | registerWrite (a : Agent) (off size v : Nat)
  /-- PUMP_FAULT_IN_RELEASE (R552). -/
  | pumpFaultInRelease
  /-- ROUTER_INTERNAL_ERROR (R185). -/
  | routerInternalError (k : Nat)
  /-- TACKLE_INTERNAL_FAULT (R96). -/
  | tackleInternalFault (y : Nat)
  /-- VAULT_REFRESH_CHANGE (R212). -/
  | vaultRefreshChange (v celsius : Nat)
  /-- RECORD_WRITE_ACK (R582). -/
  | recordWriteAck (t : Nat)
  /-- SKEIN_ENTRY_READ (R571). -/
  | skeinEntryRead (t : Nat) (host : Option (List Byte))
  /-- ILLEGAL_INSTRUCTION (R447). -/
  | illegalInstruction (c : Nat)
  /-- TEST_ACCESS_PORT (R53). -/
  | testAccessPort (tms trst : Bool)
  deriving DecidableEq, Repr

end Sys2Proof
end

