-- ==== Sys2Proof/Decode.lean ====
section
/-!
DEFINITION. The commands that a word spells. The opcode table of this block gives no row any bits: its commands
arrive as register accesses, protocol messages and events, not as words.
-/
namespace Sys2Proof

/-- The command that the low `nbits` bits of `w` spell by the table: none, for no row has bits. -/
def decodeTableWord (_nbits _w : Nat) : Option Instr := none

end Sys2Proof
end

