-- ==== Sys2Proof/Config.lean ====
section
/-!
DEFINITION. What an implementation fixes and the spec leaves open: the geometry constants of chapter 1, and the free
values, constants without a body that nothing can evaluate.
-/
namespace Sys2Proof.Config

/-- A free value of 64 bits: the `n`-th one drawn (DESIGN CHOICE, log entry 1). -/
opaque freeWord : Nat → BitVec 64

/-- A free line: the `n`-th one drawn. -/
opaque freeLine : Nat → BitVec 512

/-- Whether the `n`-th STCND finds its reservation gone without any other write, a spurious failure (R396) (DEDUCED, log entry 28). -/
opaque rsvLost : Nat → Bool

/-- What Cleat derives from the module serial (R751), and the tables that are fixed for a Gwyn version (R751, R753). -/
opaque uuid : Nat → Nat
opaque mctpVersions : Nat → Nat
opaque pdr : Nat → Nat → Nat
opaque pdrInfo : Nat → Nat

/-- SHA-384 of a byte content written as numbers, and a signature under the device key (R762). -/
opaque sha384 : List Nat → Nat
opaque signature : List Nat → Nat

/-- What IEEE 754 leaves to an implementation: whether tininess is detected after rounding, whether a fused multiply-add of
infinity and zero with a quiet NaN raises invalid; and the scale that OCP MX v1.0 leaves open (R463, R466) (DESIGN CHOICE, log entry 3). -/
opaque tinyAfterRounding : Bool
opaque fmaNanInvalid : Bool
opaque mxScaleSpecial : Nat → Nat

/-- Whether PFIRST of an odd number of 4-bit elements sets the predicate bit that the last of them shares with the next (R412, R462). -/
opaque pfirstHalf : Nat → Bool

/-- Where the RIG firmware's code for a service starts in the firmware region (R414). -/
opaque rigEntry : Nat → Nat

/-- The content of the RIG firmware region, line by line, and the bundled Halyard service skein with its size in bytes (R414, R769). -/
opaque rigFirmware : Nat → BitVec 512
opaque bundle : Nat → BitVec 64
opaque bundleLen : Nat

/-- The versions of the boot ROM and of the bundled service skein, and the lanes of a Bend port that passed self-test at a wake (Table 4.9). -/
opaque bootRomVersion : Nat
opaque halyardVersion : Nat
opaque bendLaneMap : Nat → Nat → BitVec 32

/-- Cores, vaults, routers and bays of the wafer (R20 to R24). -/
def cores : Nat := 3072
def plies : Nat := 384
def bays : Nat := 96
def vaults : Nat := 3072
def hostPorts : Nat := 8
def bendPorts : Nat := 6
def coils : Nat := 32

/-- The rated count of enabled cores and usable vaults (R4, R644). -/
def rated : Nat := 2880

end Sys2Proof.Config
end

