-- ==== Sys2Proof/Machine/Store.lean ====
section
/-!
DEFINITION. Sparse stores: a list of (key, value) pairs in one canonical form, keys strictly rising and no
entry equal to what an unlisted key reads as. Memories, register fields and the records of numbered units are
all held this way, so that equal contents are equal data.
-/
namespace Sys2Proof.Machine

/-- A sparse store over numbered places. -/
abbrev SMap (V : Type) := List (Nat × V)

/-- What place `k` holds; `d` is what an unlisted place reads as. -/
def SMap.get {V : Type} (d : V) : SMap V → Nat → V
  | [], _ => d
  | (k', v) :: m, k => if k = k' then v else SMap.get d m k

/-- The store without any entry at `k`. -/
def SMap.erase {V : Type} : SMap V → Nat → SMap V
  | [], _ => []
  | (k', v) :: m, k => if k = k' then SMap.erase m k else (k', v) :: SMap.erase m k

/-- An entry put at its place in the rising order. -/
def SMap.put {V : Type} : SMap V → Nat → V → SMap V
  | [], k, v => [(k, v)]
  | (k', v') :: m, k, v => if k < k' then (k, v) :: (k', v') :: m else (k', v') :: SMap.put m k v

/-- The store with `v` at place `k`; writing the value an unlisted place reads as removes the entry. -/
def SMap.set {V : Type} [DecidableEq V] (d : V) (m : SMap V) (k : Nat) (v : V) : SMap V :=
  if v = d then SMap.erase m k else SMap.put (SMap.erase m k) k v

/-- The store after every place of a list took its value, in order. -/
def SMap.setAll {V : Type} [DecidableEq V] (d : V) (m : SMap V) (l : List (Nat × V)) : SMap V :=
  l.foldl (fun m p => SMap.set d m p.1 p.2) m

/-- The store after the places that `f` names were dropped. -/
def SMap.dropIf {V : Type} (m : SMap V) (f : Nat → V → Bool) : SMap V :=
  m.filter (fun p => !(f p.1 p.2))

/-- How many listed places satisfy `f`. -/
def SMap.count {V : Type} (m : SMap V) (f : Nat → V → Bool) : Nat :=
  (m.filter (fun p => f p.1 p.2)).length

/-- Keys strictly rising. -/
def SMap.rising {V : Type} : SMap V → Bool
  | [] => true
  | [_] => true
  | (k, _) :: (k', v') :: m => decide (k < k') && SMap.rising ((k', v') :: m)

/-- The canonical form: keys strictly rising, and no entry equal to the unlisted value. -/
def SMap.wf {V : Type} [DecidableEq V] (d : V) (m : SMap V) : Bool :=
  SMap.rising m && m.all (fun p => decide (p.2 ≠ d))

end Sys2Proof.Machine
end

