-- ==== Sys2Proof/Machine/Fld.lean ====
section
/-!
DEFINITION. The registers of the W20 and their fields: one constructor of `Reg` per register of the spec's
register maps, one of `Fld` per row of its field tables (Tables 4.14, 5.8, 6.8, 7.8, 8.10, 9.10, 10.15,
12.10, 15.11, 17.9, 18.6, 19.3, 20.13, 23.6), with the bits, the access type of Table 0.3 and the reset value that the row
gives; and the register-space address of each register (R776 and each block's map). The fields of
BD_SPLICE_B, whose meaning depends on KIND and which share bits, stand as the one field BD_SPLICE_B_WORD (R702).
-/
namespace Sys2Proof.Machine

/-- The access types of Table 0.3. -/
inductive Access where
  | ro | rw | w1c | w1s | rc | wo | rwl
  deriving DecidableEq, Repr

/-- The registers of register space, by their names in the spec. -/
inductive Reg where
  | HT_ID | HT_LINK_STATUS | HT_BAY_WINDOW | HT_OUTSTANDING | HT_PM_STATUS | HT_FLR_STATUS
  | HT_SF_OCCUPANCY | HT_VF_BIND | HT_TK_OWNER | HT_BIAS_FLIP | HT_BIAS | HT_ERR_STATUS
  | HT_ERR_MASK | HT_ERR_SEVERITY | HT_ERR_FIRST | HT_ERR_HDR_LOG0 | HT_ERR_HDR_LOG1 | HT_ERR_HDR_LOG2
  | HT_ERR_HDR_LOG3 | HT_ERR_CE_COUNT | HT_HOLD_STATUS | HT_HOLD_RELEASE | HT_HOLD_COUNT | HT_IDE_STATUS
  | HT_IDE_CTL | NT_CTL | NT_STATUS | NT_ESC_ROOT | NT_NOTICE_SEQ | NT_PORT_STATUS
  | NT_LEDGER | NT_HOLD | NT_CRC_COUNT | NT_ESC_COUNT | NT_AGE_SAT_COUNT | NT_PROXY_COUNT
  | NT_FLITS | NT_ROUTE | SP_STATUS | SP_GOV | SP_GOV_SEALED | SP_SCRUB_CTL
  | SP_SCRUB_STATUS | SP_RSV | SP_KEY_CTL | SP_STRIPE_CTL | SP_HDM_STATUS | SP_VAULT_OWNER
  | SP_VAULT_STATUS | SP_STRIPE_LIST | SP_HDM_MAP | DT_STATUS | DT_CTX_ROOT | DT_CTX_TBL
  | DT_CTX_CTL | DT_INV_CMD | DT_INV_STATUS | DT_FAULT_ADDR | DT_FAULT_INFO | DT_SHARE_A
  | DT_SHARE_B | DTW_STATUS | DTW_HITS | DTW_MISSES | DTW_WALKS | DTW_FAULTS
  | DTW_DROPS | PC_STATUS | PC_CTL | PC_SCRATCH | PC_MAINT | PC_ECC
  | PC_HITS | PC_MISSES | PC_VICTIM_HITS | PC_PREFETCHES | PC_WRITEBACKS | BA_STATUS
  | BA_CTL | BA_C2C | BA_HOME_SNOOPS | BA_TXN | BA_RETRY | BA_STARVED
  | BA_MAXWAIT | CR_STATUS | CR_TASK | CR_FAULT | CR_FAULT_PC | CR_FAULT_ADDR
  | CR_FAULT_COUNT | CR_RETIRED | CR_MMA_BUSY | CR_ENERGY | CR_WAKES | CR_TILE_ECC
  | TK_ENG_STATUS | TK_ENG_BEATS | TK_ENG_PREEMPTS | TK_CH_CTL | TK_CH_RING | TK_CH_TAIL
  | TK_CH_DONE | TK_CH_WATCH | TK_CH_STATUS | TK_CH_PROGRESS | TK_CH_CUR_SRC | TK_CH_CUR_DST
  | TK_CH_STAGE | TK_CH_FAULT | TK_CH_BAD | TK_CH_BYTES | CP_STATUS | CP_POWER
  | CP_TICK | CP_PARK | CP_LOSS | CP_BAY | CP_COIL_ADMIN | CP_PLY_OWNER
  | CP_COIL_CTL | CP_COIL_POWER | CP_COIL_LIMIT | CP_COIL_SKDIR | CP_COIL_KNOTS | CP_KNOT_CMD
  | CP_CANCEL | CP_CMD_STATUS | CP_COIL_COUNT | CP_COIL_DROPS | CP_COIL_ENERGY | CP_COIL_RUN
  | CP_SRING_CFG | CP_SRING_PTR | CP_SRING_FAULT | CP_CRING_CFG | CP_CRING_PTR | CP_CRING_MOD
  | CPW_STATUS | CPW_OPCOST | CPW_ENERGY | CPW_DISPATCH | CPW_CORE | BD_CTL
  | BD_STATUS | BD_ERR | BD_FEC_CE | BD_OUTSTANDING | BD_RETRAIN | BD_ROUTE
  | BD_WIN | BD_SPLICE_A | BD_SPLICE_B | BD_SPLICE_C | CL_ID | CL_STATUS
  | CL_TIME | CL_TIME_STATUS | CL_CAPACITY | CL_BUNDLE_LEN | CL_FENCE_REQ | CL_SKV_CMD
  | CL_SKV_FILE | CL_SKV_BASE | CL_EVT_CTL | CL_EVT_STATUS | CL_EVT_POP | CL_PLOG_SEL
  | CL_GPIO | CL_EVT_ENTRY | CL_PLOG_ENTRY
  deriving DecidableEq, Repr

/-- The fields of the registers: the register's name, an underscore and the field's name. -/
inductive Fld where
  | HT_ID_PORT
  | HT_ID_ALT
  | HT_ID_BAY
  | HT_ID_CONTROL
  | HT_LINK_STATUS_SPEED
  | HT_LINK_STATUS_WIDTH
  | HT_LINK_STATUS_PROTO
  | HT_LINK_STATUS_HDM
  | HT_LINK_STATUS_READY
  | HT_LINK_STATUS_HOLD
  | HT_LINK_STATUS_L0P
  | HT_LINK_STATUS_L1
  | HT_BAY_WINDOW_BAY
  | HT_OUTSTANDING_NP
  | HT_OUTSTANDING_D2H
  | HT_OUTSTANDING_NP_LIMIT
  | HT_PM_STATUS_DSTATE
  | HT_PM_STATUS_PME_PENDING
  | HT_PM_STATUS_WAKE
  | HT_PM_STATUS_WB_BUSY
  | HT_FLR_STATUS_IN_FLR
  | HT_SF_OCCUPANCY_LINES
  | HT_SF_OCCUPANCY_DIRTY
  | HT_VF_BIND_COIL
  | HT_VF_BIND_VALID
  | HT_VF_BIND_STATUS
  | HT_TK_OWNER_FUNC
  | HT_TK_OWNER_VALID
  | HT_TK_OWNER_STATUS
  | HT_TK_OWNER_COIL
  | HT_BIAS_FLIP_FATHOM
  | HT_BIAS_FLIP_TO_DEVICE
  | HT_BIAS_FLIP_GO
  | HT_BIAS_FLIP_STATUS
  | HT_BIAS_FLIP_BUSY
  | HT_BIAS_BIAS
  | HT_ERR_STATUS_SF_CORR
  | HT_ERR_STATUS_BUF_CORR
  | HT_ERR_STATUS_LINK_DEGRADED
  | HT_ERR_STATUS_BUF_UNCORR
  | HT_ERR_STATUS_FENCED_HDM
  | HT_ERR_STATUS_SF_UNCORR
  | HT_ERR_STATUS_D2H_TIMEOUT
  | HT_ERR_STATUS_INTERNAL
  | HT_ERR_STATUS_VIRAL_RX
  | HT_ERR_MASK_MASK
  | HT_ERR_SEVERITY_SEV
  | HT_ERR_SEVERITY_SEV_FIXED
  | HT_ERR_FIRST_BIT
  | HT_ERR_FIRST_VALID
  | HT_ERR_FIRST_OVERFLOW
  | HT_ERR_HDR_LOG0_ADDRESS
  | HT_ERR_HDR_LOG1_REQ_ID
  | HT_ERR_HDR_LOG1_COIL
  | HT_ERR_HDR_LOG1_COIL_VALID
  | HT_ERR_HDR_LOG1_SOURCE
  | HT_ERR_HDR_LOG1_UNIT
  | HT_ERR_HDR_LOG2_TIME
  | HT_ERR_HDR_LOG3_DETAIL
  | HT_ERR_CE_COUNT_COUNT
  | HT_HOLD_STATUS_HOLD
  | HT_HOLD_STATUS_DONE
  | HT_HOLD_STATUS_CAUSE
  | HT_HOLD_STATUS_RELEASE_STATUS
  | HT_HOLD_STATUS_VIRAL_SENT
  | HT_HOLD_STATUS_REENTERED
  | HT_HOLD_STATUS_LINES_DROPPED
  | HT_HOLD_RELEASE_KEY
  | HT_HOLD_RELEASE_GO
  | HT_HOLD_COUNT_POSTED_DROPPED
  | HT_HOLD_COUNT_NP_UR
  | HT_IDE_STATUS_LINK_SECURE
  | HT_IDE_STATUS_SEL_SECURE
  | HT_IDE_STATUS_CXL_SECURE
  | HT_IDE_STATUS_CXL_CONTAINMENT
  | HT_IDE_CTL_REQUIRE_IO
  | HT_IDE_CTL_REQUIRE_CXL
  | NT_CTL_BANK
  | NT_CTL_PAUSE
  | NT_CTL_ESC_WAIT
  | NT_STATUS_QUIET
  | NT_STATUS_HELD
  | NT_ESC_ROOT_ROOT
  | NT_NOTICE_SEQ_SEQ
  | NT_PORT_STATUS_UP
  | NT_PORT_STATUS_PRESENT
  | NT_LEDGER_OCC
  | NT_LEDGER_TIMEOUTS
  | NT_HOLD_HELD
  | NT_CRC_COUNT_RETRIES
  | NT_CRC_COUNT_DOWN
  | NT_ESC_COUNT_ESCAPES
  | NT_AGE_SAT_COUNT_SATURATED
  | NT_PROXY_COUNT_FENCED
  | NT_PROXY_COUNT_DISCARDED
  | NT_FLITS_FLITS
  | NT_ROUTE_VC0_PORT
  | NT_ROUTE_ESC_PORT
  | SP_STATUS_USABLE
  | SP_STATUS_VAULTS_2X
  | SP_STATUS_VAULTS_4X
  | SP_GOV_CAPACITY
  | SP_GOV_RSV_TOTAL
  | SP_GOV_STATE
  | SP_GOV_SCALE
  | SP_GOV_SEALED_SEALED_TOTAL
  | SP_GOV_SEALED_PAUSE_Q
  | SP_GOV_SEALED_SEALED_COUNT
  | SP_SCRUB_CTL_PERIOD
  | SP_SCRUB_CTL_ENABLE
  | SP_SCRUB_STATUS_PASSES
  | SP_RSV_GBPS
  | SP_RSV_STATUS
  | SP_RSV_ALLOWED
  | SP_RSV_PAUSED
  | SP_KEY_CTL_GENERATE
  | SP_KEY_CTL_CLEAR
  | SP_KEY_CTL_VALID
  | SP_KEY_CTL_STATUS
  | SP_STRIPE_CTL_COUNT
  | SP_STRIPE_CTL_ACTIVE
  | SP_STRIPE_CTL_STATUS
  | SP_STRIPE_LIST_VAULT
  | SP_HDM_STATUS_UNMAPPED
  | SP_HDM_STATUS_FENCED
  | SP_VAULT_OWNER_COIL
  | SP_VAULT_OWNER_VALID
  | SP_VAULT_OWNER_STATUS
  | SP_VAULT_STATUS_STATE
  | SP_VAULT_STATUS_REFRESH
  | SP_VAULT_STATUS_CE_COUNT
  | SP_VAULT_STATUS_SPARES_USED
  | SP_VAULT_STATUS_UE_LINES
  | SP_HDM_MAP_FATHOM
  | SP_HDM_MAP_COIL
  | SP_HDM_MAP_VALID
  | SP_HDM_MAP_STATUS
  | DT_STATUS_WALKERS
  | DT_STATUS_ACTIVE
  | DT_STATUS_GRANTS
  | DT_CTX_ROOT_ROOT
  | DT_CTX_TBL_BASE
  | DT_CTX_TBL_COUNT
  | DT_CTX_CTL_ENABLE
  | DT_CTX_CTL_IRQ_EN
  | DT_CTX_CTL_IRQ_VEC
  | DT_CTX_CTL_STATUS
  | DT_INV_CMD_KIND
  | DT_INV_CMD_BASE
  | DT_INV_CMD_COUNT
  | DT_INV_STATUS_ISSUED
  | DT_INV_STATUS_DONE
  | DT_INV_STATUS_STATUS
  | DT_INV_STATUS_PENDING
  | DT_FAULT_ADDR_DVA
  | DT_FAULT_INFO_VALID
  | DT_FAULT_INFO_KIND
  | DT_FAULT_INFO_CAUSE
  | DT_FAULT_INFO_ACCESS
  | DT_FAULT_INFO_SOURCE
  | DT_FAULT_INFO_UNIT
  | DT_FAULT_INFO_LEVEL
  | DT_FAULT_INFO_COUNT
  | DT_SHARE_A_OWNER
  | DT_SHARE_A_GRANTEE
  | DT_SHARE_A_PERM
  | DT_SHARE_A_VALID
  | DT_SHARE_A_BUSY
  | DT_SHARE_A_STATUS
  | DT_SHARE_B_BASE
  | DT_SHARE_B_COUNT
  | DTW_STATUS_ENABLED
  | DTW_STATUS_BUSY
  | DTW_STATUS_QUEUED
  | DTW_HITS_COUNT
  | DTW_MISSES_COUNT
  | DTW_WALKS_COUNT
  | DTW_FAULTS_COUNT
  | DTW_DROPS_COUNT
  | PC_STATUS_WAYS
  | PC_STATUS_CARVE_BUSY
  | PC_STATUS_MAINT_BUSY
  | PC_STATUS_MISS_USED
  | PC_STATUS_VICTIM_USED
  | PC_CTL_PREFETCH
  | PC_CTL_VICTIM
  | PC_SCRATCH_WAYS
  | PC_SCRATCH_STATUS
  | PC_MAINT_OP
  | PC_MAINT_WAY
  | PC_MAINT_SET
  | PC_MAINT_STATUS
  | PC_ECC_CE
  | PC_ECC_UE_CLEAN
  | PC_ECC_UE_DIRTY
  | PC_HITS_COUNT
  | PC_MISSES_COUNT
  | PC_VICTIM_HITS_COUNT
  | PC_PREFETCHES_ISSUED
  | PC_PREFETCHES_USED
  | PC_WRITEBACKS_COUNT
  | BA_STATUS_WB_PENDING
  | BA_STATUS_SWEEP
  | BA_STATUS_PROMOTED
  | BA_CTL_FREEZE
  | BA_CTL_STARVE_LIMIT
  | BA_TXN_COUNT
  | BA_RETRY_COUNT
  | BA_STARVED_COUNT
  | BA_MAXWAIT_CYCLES
  | BA_C2C_COUNT
  | BA_HOME_SNOOPS_COUNT
  | CR_STATUS_PSTATE
  | CR_STATUS_OP
  | CR_STATUS_TASK
  | CR_STATUS_COIL
  | CR_STATUS_COIL_VALID
  | CR_STATUS_REPEATABLE
  | CR_STATUS_RIG
  | CR_STATUS_FENCED
  | CR_TASK_TASK_ID
  | CR_FAULT_CODE
  | CR_FAULT_CAUSE
  | CR_FAULT_DEFERRED
  | CR_FAULT_OVERRUN
  | CR_FAULT_VALID
  | CR_FAULT_RIG
  | CR_FAULT_PC_PC
  | CR_FAULT_ADDR_ADDR
  | CR_FAULT_COUNT_COUNT
  | CR_RETIRED_COUNT
  | CR_MMA_BUSY_CYCLES
  | CR_ENERGY_UJ
  | CR_WAKES_FROM_RETAIN
  | CR_WAKES_FROM_DARK
  | CR_TILE_ECC_CE
  | CR_TILE_ECC_UE
  | TK_ENG_STATUS_ACTIVE
  | TK_ENG_STATUS_R_QUEUE
  | TK_ENG_STATUS_COIL
  | TK_ENG_STATUS_COIL_VALID
  | TK_ENG_BEATS_COUNT
  | TK_ENG_PREEMPTS_COUNT
  | TK_CH_CTL_ENABLE
  | TK_CH_CTL_PAUSE
  | TK_CH_CTL_CLASS
  | TK_CH_CTL_PRIO
  | TK_CH_CTL_IRQ_EN
  | TK_CH_CTL_IRQ_VEC
  | TK_CH_CTL_WATCH
  | TK_CH_CTL_STATUS
  | TK_CH_RING_BASE
  | TK_CH_RING_LOG2
  | TK_CH_TAIL_TAIL
  | TK_CH_TAIL_STATUS
  | TK_CH_DONE_DONE
  | TK_CH_WATCH_ADDR
  | TK_CH_STATUS_STATE
  | TK_CH_STATUS_HALT_REASON
  | TK_CH_STATUS_EOC
  | TK_CH_PROGRESS_ROW
  | TK_CH_PROGRESS_OFFSET
  | TK_CH_CUR_SRC_ADDR
  | TK_CH_CUR_DST_ADDR
  | TK_CH_STAGE_STAGED
  | TK_CH_STAGE_IN_FLIGHT
  | TK_CH_FAULT_ADDR
  | TK_CH_BAD_COUNT
  | TK_CH_BYTES_COUNT
  | CP_STATUS_INFLIGHT
  | CP_STATUS_READY
  | CP_STATUS_WAITING
  | CP_POWER_E_W
  | CP_POWER_ALLOW_W
  | CP_POWER_PMEAS_W
  | CP_POWER_NONBAY_W
  | CP_TICK_TICKS
  | CP_PARK_CLK_US
  | CP_PARK_DARK_MS
  | CP_LOSS_LOST
  | CP_LOSS_REDISPATCHED
  | CP_BAY_GIVE
  | CP_BAY_HEADROOM
  | CP_BAY_QUEUED
  | CP_COIL_CTL_SKFLUSH
  | CP_COIL_CTL_QUIESCED
  | CP_COIL_CTL_PAUSED
  | CP_COIL_CTL_FIXED_OP
  | CP_COIL_CTL_REDISPATCH_MAX
  | CP_COIL_CTL_INFLIGHT_MAX
  | CP_COIL_POWER_SHARE_W
  | CP_COIL_POWER_STATUS
  | CP_COIL_LIMIT_DEFAULT_US
  | CP_COIL_SKDIR_BASE
  | CP_COIL_SKDIR_VALID
  | CP_COIL_KNOTS_BASE
  | CP_COIL_KNOTS_LOG2
  | CP_COIL_KNOTS_STATUS
  | CP_KNOT_CMD_KNOT
  | CP_KNOT_CMD_OP
  | CP_KNOT_CMD_COUNT
  | CP_CANCEL_TASK_ID
  | CP_CMD_STATUS_KNOT_STATUS
  | CP_CMD_STATUS_CANCEL_STATUS
  | CP_CMD_STATUS_ARMED
  | CP_CMD_STATUS_MARK
  | CP_CMD_STATUS_VALUE
  | CP_COIL_COUNT_INFLIGHT
  | CP_COIL_COUNT_READY
  | CP_COIL_COUNT_RUNNING
  | CP_COIL_DROPS_REJECTED
  | CP_COIL_DROPS_DISCARDED
  | CP_COIL_ENERGY_UJ
  | CP_SRING_CFG_BASE
  | CP_SRING_CFG_LOG2
  | CP_SRING_CFG_ENABLE
  | CP_SRING_CFG_SPAWN
  | CP_SRING_CFG_STATUS
  | CP_SRING_PTR_TAIL
  | CP_SRING_PTR_HEAD
  | CP_SRING_FAULT_HALTED
  | CP_SRING_FAULT_REASON
  | CP_SRING_FAULT_IGNORED
  | CP_CRING_CFG_BASE
  | CP_CRING_CFG_LOG2
  | CP_CRING_CFG_ENABLE
  | CP_CRING_CFG_IRQ_EN
  | CP_CRING_CFG_VEC
  | CP_CRING_PTR_WRITE
  | CP_CRING_PTR_HEAD
  | CP_CRING_MOD_MODERATE_US
  | CP_CRING_MOD_STATUS
  | CP_CRING_MOD_HELD
  | CP_CRING_MOD_IGNORED
  | CPW_STATUS_PLL
  | CPW_STATUS_RUNNING
  | CPW_STATUS_HOT
  | CPW_STATUS_TBAY
  | CPW_STATUS_QUEUED
  | CPW_STATUS_BALANCE
  | CPW_OPCOST_COST
  | CPW_ENERGY_IDLE
  | CPW_ENERGY_USED
  | CPW_DISPATCH_COUNT
  | CPW_DISPATCH_OVERSPEND
  | CPW_CORE_CEILING
  | CPW_CORE_POINT
  | CPW_CORE_BUSY
  | CPW_CORE_TJ
  | CP_COIL_ADMIN_STATE
  | CP_COIL_ADMIN_HOME
  | CP_COIL_ADMIN_HOME_VALID
  | CP_COIL_ADMIN_REPEATABLE
  | CP_COIL_ADMIN_CMD
  | CP_COIL_ADMIN_STATUS
  | CP_COIL_ADMIN_DESTROY_BUSY
  | CP_PLY_OWNER_COIL
  | CP_PLY_OWNER_VALID
  | CP_PLY_OWNER_CLEARING
  | CP_PLY_OWNER_STATUS
  | CP_COIL_RUN_QUIESCE
  | CP_COIL_RUN_RESUME
  | CP_COIL_RUN_RESET
  | CP_COIL_RUN_RESETTING
  | CP_COIL_RUN_STATUS
  | CL_CAPACITY_CORES
  | CL_CAPACITY_VAULTS
  | CL_CAPACITY_ROUTERS
  | CL_CAPACITY_BELOW_RATED
  | CL_CAPACITY_FENCE_GEN
  | BD_CTL_ENABLE
  | BD_CTL_WAFER_ID
  | BD_CTL_SYSTEM_ID
  | BD_CTL_MAX_WIDTH
  | BD_CTL_DATELINE
  | BD_CTL_LOOPBACK
  | BD_CTL_STATUS
  | BD_STATUS_STATE
  | BD_STATUS_WIDTH
  | BD_STATUS_CAGES
  | BD_STATUS_PEER_WAFER
  | BD_STATUS_PEER_PORT
  | BD_STATUS_REPLAYING
  | BD_STATUS_LANES
  | BD_ERR_FEC_UNCORR
  | BD_ERR_CRC_FAIL
  | BD_ERR_REPLAYS
  | BD_ERR_RECOVERIES
  | BD_ERR_TIMEOUTS
  | BD_FEC_CE_SYMBOLS
  | BD_OUTSTANDING_REQ
  | BD_OUTSTANDING_PENDING
  | BD_RETRAIN_GO
  | BD_ROUTE_PORT
  | BD_ROUTE_VALID
  | BD_ROUTE_CLASS_RESET
  | BD_WIN_COIL
  | BD_WIN_OPEN
  | BD_WIN_DST_WAFER
  | BD_WIN_DST_PORT
  | BD_WIN_ENTRY
  | BD_WIN_KIND
  | BD_WIN_FATHOMS
  | BD_WIN_BUSY
  | BD_WIN_STATUS
  | BD_WIN_OUTSTANDING
  | BD_SPLICE_A_COIL
  | BD_SPLICE_A_VALID
  | BD_SPLICE_A_KIND
  | BD_SPLICE_A_R
  | BD_SPLICE_A_W
  | BD_SPLICE_A_SRC_WAFER
  | BD_SPLICE_A_SRC_COIL
  | BD_SPLICE_A_STATUS
  | BD_SPLICE_A_BUSY
  | BD_SPLICE_A_PENDING
  | BD_SPLICE_B_WORD
  | BD_SPLICE_C_WRITE
  | BD_SPLICE_C_DROPPED
  | CL_ID_PORT
  | CL_ID_CONTROL
  | CL_STATUS_WAKE_STATE
  | CL_STATUS_STATE_WORD
  | CL_STATUS_IMAGE
  | CL_STATUS_TRIAL
  | CL_STATUS_TEST_MODE
  | CL_TIME_UTC_NS
  | CL_TIME_STATUS_SYNC
  | CL_TIME_STATUS_VALID
  | CL_TIME_STATUS_REJECTED
  | CL_BUNDLE_LEN_BYTES
  | CL_GPIO_FUNC
  | CL_GPIO_STATUS
  | CL_GPIO_VIA
  | CL_GPIO_LEVEL
  | CL_GPIO_OUT
  | CL_FENCE_REQ_KIND
  | CL_FENCE_REQ_UNIT
  | CL_FENCE_REQ_GO
  | CL_FENCE_REQ_STATUS
  | CL_SKV_CMD_COIL
  | CL_SKV_CMD_GO
  | CL_SKV_CMD_BUSY
  | CL_SKV_CMD_STATUS
  | CL_SKV_FILE_DVA
  | CL_SKV_BASE_LOAD_BASE
  | CL_EVT_CTL_ENABLE
  | CL_EVT_CTL_VEC
  | CL_EVT_CTL_THRESHOLD
  | CL_EVT_STATUS_LOST
  | CL_EVT_STATUS_AVAIL
  | CL_EVT_POP_GO
  | CL_EVT_ENTRY_WORD
  | CL_PLOG_SEL_INDEX
  | CL_PLOG_SEL_COUNT
  | CL_PLOG_ENTRY_WORD
  deriving DecidableEq, Repr

/-- One row of a field table: the register, the lowest bit, the width, the access type, the reset value, and
for a field that repeats inside its register how often and at what distance. -/
structure Desc where
  reg : Reg
  lo : Nat
  w : Nat
  acc : Access
  reset : Nat
  reps : Nat := 1
  stride : Nat := 64
  deriving DecidableEq, Repr

/-- The field tables, row by row. A reset of "ld" (R13) stands as 0 here: Cleat loads the value at wake (DESIGN CHOICE, log entry 8). -/
def Fld.desc : Fld → Desc
  | .HT_ID_PORT => ⟨.HT_ID, 0, 3, .ro, 0, 1, 64⟩
  | .HT_ID_ALT => ⟨.HT_ID, 3, 1, .ro, 0, 1, 64⟩
  | .HT_ID_BAY => ⟨.HT_ID, 4, 7, .ro, 0, 1, 64⟩
  | .HT_ID_CONTROL => ⟨.HT_ID, 11, 1, .ro, 0, 1, 64⟩
  | .HT_LINK_STATUS_SPEED => ⟨.HT_LINK_STATUS, 0, 3, .ro, 0, 1, 64⟩
  | .HT_LINK_STATUS_WIDTH => ⟨.HT_LINK_STATUS, 3, 5, .ro, 0, 1, 64⟩
  | .HT_LINK_STATUS_PROTO => ⟨.HT_LINK_STATUS, 8, 2, .ro, 0, 1, 64⟩
  | .HT_LINK_STATUS_HDM => ⟨.HT_LINK_STATUS, 10, 2, .ro, 0, 1, 64⟩
  | .HT_LINK_STATUS_READY => ⟨.HT_LINK_STATUS, 12, 1, .ro, 0, 1, 64⟩
  | .HT_LINK_STATUS_HOLD => ⟨.HT_LINK_STATUS, 13, 1, .ro, 0, 1, 64⟩
  | .HT_LINK_STATUS_L0P => ⟨.HT_LINK_STATUS, 14, 1, .ro, 0, 1, 64⟩
  | .HT_LINK_STATUS_L1 => ⟨.HT_LINK_STATUS, 15, 1, .ro, 0, 1, 64⟩
  | .HT_BAY_WINDOW_BAY => ⟨.HT_BAY_WINDOW, 0, 7, .rw, 0, 1, 64⟩
  | .HT_OUTSTANDING_NP => ⟨.HT_OUTSTANDING, 0, 14, .ro, 0, 1, 64⟩
  | .HT_OUTSTANDING_D2H => ⟨.HT_OUTSTANDING, 16, 13, .ro, 0, 1, 64⟩
  | .HT_OUTSTANDING_NP_LIMIT => ⟨.HT_OUTSTANDING, 32, 14, .ro, 0x100, 1, 64⟩
  | .HT_PM_STATUS_DSTATE => ⟨.HT_PM_STATUS, 0, 2, .ro, 0, 1, 64⟩
  | .HT_PM_STATUS_PME_PENDING => ⟨.HT_PM_STATUS, 2, 1, .ro, 0, 1, 64⟩
  | .HT_PM_STATUS_WAKE => ⟨.HT_PM_STATUS, 3, 1, .ro, 0, 1, 64⟩
  | .HT_PM_STATUS_WB_BUSY => ⟨.HT_PM_STATUS, 4, 1, .ro, 0, 1, 64⟩
  | .HT_FLR_STATUS_IN_FLR => ⟨.HT_FLR_STATUS, 0, 33, .ro, 0, 1, 64⟩
  | .HT_SF_OCCUPANCY_LINES => ⟨.HT_SF_OCCUPANCY, 0, 22, .ro, 0, 1, 64⟩
  | .HT_SF_OCCUPANCY_DIRTY => ⟨.HT_SF_OCCUPANCY, 32, 22, .ro, 0, 1, 64⟩
  | .HT_VF_BIND_COIL => ⟨.HT_VF_BIND, 0, 5, .rw, 0, 1, 64⟩
  | .HT_VF_BIND_VALID => ⟨.HT_VF_BIND, 15, 1, .rw, 0, 1, 64⟩
  | .HT_VF_BIND_STATUS => ⟨.HT_VF_BIND, 16, 2, .ro, 0, 1, 64⟩
  | .HT_TK_OWNER_FUNC => ⟨.HT_TK_OWNER, 0, 6, .rw, 0, 1, 64⟩
  | .HT_TK_OWNER_VALID => ⟨.HT_TK_OWNER, 15, 1, .rw, 0, 1, 64⟩
  | .HT_TK_OWNER_STATUS => ⟨.HT_TK_OWNER, 16, 2, .ro, 0, 1, 64⟩
  | .HT_TK_OWNER_COIL => ⟨.HT_TK_OWNER, 18, 5, .rw, 0, 1, 64⟩
  | .HT_BIAS_FLIP_FATHOM => ⟨.HT_BIAS_FLIP, 0, 14, .rw, 0, 1, 64⟩
  | .HT_BIAS_FLIP_TO_DEVICE => ⟨.HT_BIAS_FLIP, 16, 1, .rw, 0, 1, 64⟩
  | .HT_BIAS_FLIP_GO => ⟨.HT_BIAS_FLIP, 31, 1, .wo, 0, 1, 64⟩
  | .HT_BIAS_FLIP_STATUS => ⟨.HT_BIAS_FLIP, 32, 2, .ro, 0, 1, 64⟩
  | .HT_BIAS_FLIP_BUSY => ⟨.HT_BIAS_FLIP, 34, 1, .ro, 0, 1, 64⟩
  | .HT_BIAS_BIAS => ⟨.HT_BIAS, 0, 32, .ro, 0, 1, 64⟩
  | .HT_ERR_STATUS_SF_CORR => ⟨.HT_ERR_STATUS, 0, 1, .w1c, 0, 1, 64⟩
  | .HT_ERR_STATUS_BUF_CORR => ⟨.HT_ERR_STATUS, 1, 1, .w1c, 0, 1, 64⟩
  | .HT_ERR_STATUS_LINK_DEGRADED => ⟨.HT_ERR_STATUS, 2, 1, .w1c, 0, 1, 64⟩
  | .HT_ERR_STATUS_BUF_UNCORR => ⟨.HT_ERR_STATUS, 8, 1, .w1c, 0, 1, 64⟩
  | .HT_ERR_STATUS_FENCED_HDM => ⟨.HT_ERR_STATUS, 9, 1, .w1c, 0, 1, 64⟩
  | .HT_ERR_STATUS_SF_UNCORR => ⟨.HT_ERR_STATUS, 16, 1, .w1c, 0, 1, 64⟩
  | .HT_ERR_STATUS_D2H_TIMEOUT => ⟨.HT_ERR_STATUS, 17, 1, .w1c, 0, 1, 64⟩
  | .HT_ERR_STATUS_INTERNAL => ⟨.HT_ERR_STATUS, 18, 1, .w1c, 0, 1, 64⟩
  | .HT_ERR_STATUS_VIRAL_RX => ⟨.HT_ERR_STATUS, 19, 1, .w1c, 0, 1, 64⟩
  | .HT_ERR_MASK_MASK => ⟨.HT_ERR_MASK, 0, 20, .rw, 0, 1, 64⟩
  | .HT_ERR_SEVERITY_SEV => ⟨.HT_ERR_SEVERITY, 8, 2, .rw, 0, 1, 64⟩
  | .HT_ERR_SEVERITY_SEV_FIXED => ⟨.HT_ERR_SEVERITY, 16, 4, .ro, 0xf, 1, 64⟩
  | .HT_ERR_FIRST_BIT => ⟨.HT_ERR_FIRST, 0, 5, .ro, 0, 1, 64⟩
  | .HT_ERR_FIRST_VALID => ⟨.HT_ERR_FIRST, 8, 1, .ro, 0, 1, 64⟩
  | .HT_ERR_FIRST_OVERFLOW => ⟨.HT_ERR_FIRST, 9, 1, .w1c, 0, 1, 64⟩
  | .HT_ERR_HDR_LOG0_ADDRESS => ⟨.HT_ERR_HDR_LOG0, 0, 64, .ro, 0, 1, 64⟩
  | .HT_ERR_HDR_LOG1_REQ_ID => ⟨.HT_ERR_HDR_LOG1, 0, 16, .ro, 0, 1, 64⟩
  | .HT_ERR_HDR_LOG1_COIL => ⟨.HT_ERR_HDR_LOG1, 16, 5, .ro, 0, 1, 64⟩
  | .HT_ERR_HDR_LOG1_COIL_VALID => ⟨.HT_ERR_HDR_LOG1, 23, 1, .ro, 0, 1, 64⟩
  | .HT_ERR_HDR_LOG1_SOURCE => ⟨.HT_ERR_HDR_LOG1, 24, 8, .ro, 0, 1, 64⟩
  | .HT_ERR_HDR_LOG1_UNIT => ⟨.HT_ERR_HDR_LOG1, 32, 12, .ro, 0, 1, 64⟩
  | .HT_ERR_HDR_LOG2_TIME => ⟨.HT_ERR_HDR_LOG2, 0, 64, .ro, 0, 1, 64⟩
  | .HT_ERR_HDR_LOG3_DETAIL => ⟨.HT_ERR_HDR_LOG3, 0, 64, .ro, 0, 1, 64⟩
  | .HT_ERR_CE_COUNT_COUNT => ⟨.HT_ERR_CE_COUNT, 0, 32, .rc, 0, 1, 64⟩
  | .HT_HOLD_STATUS_HOLD => ⟨.HT_HOLD_STATUS, 0, 1, .ro, 0, 1, 64⟩
  | .HT_HOLD_STATUS_DONE => ⟨.HT_HOLD_STATUS, 1, 1, .ro, 0, 1, 64⟩
  | .HT_HOLD_STATUS_CAUSE => ⟨.HT_HOLD_STATUS, 4, 2, .ro, 0, 1, 64⟩
  | .HT_HOLD_STATUS_RELEASE_STATUS => ⟨.HT_HOLD_STATUS, 8, 2, .ro, 0, 1, 64⟩
  | .HT_HOLD_STATUS_VIRAL_SENT => ⟨.HT_HOLD_STATUS, 10, 1, .ro, 0, 1, 64⟩
  | .HT_HOLD_STATUS_REENTERED => ⟨.HT_HOLD_STATUS, 11, 1, .ro, 0, 1, 64⟩
  | .HT_HOLD_STATUS_LINES_DROPPED => ⟨.HT_HOLD_STATUS, 32, 32, .ro, 0, 1, 64⟩
  | .HT_HOLD_RELEASE_KEY => ⟨.HT_HOLD_RELEASE, 0, 16, .wo, 0, 1, 64⟩
  | .HT_HOLD_RELEASE_GO => ⟨.HT_HOLD_RELEASE, 16, 1, .wo, 0, 1, 64⟩
  | .HT_HOLD_COUNT_POSTED_DROPPED => ⟨.HT_HOLD_COUNT, 0, 32, .rc, 0, 1, 64⟩
  | .HT_HOLD_COUNT_NP_UR => ⟨.HT_HOLD_COUNT, 32, 32, .rc, 0, 1, 64⟩
  | .HT_IDE_STATUS_LINK_SECURE => ⟨.HT_IDE_STATUS, 0, 1, .ro, 0, 1, 64⟩
  | .HT_IDE_STATUS_SEL_SECURE => ⟨.HT_IDE_STATUS, 1, 4, .ro, 0, 1, 64⟩
  | .HT_IDE_STATUS_CXL_SECURE => ⟨.HT_IDE_STATUS, 5, 1, .ro, 0, 1, 64⟩
  | .HT_IDE_STATUS_CXL_CONTAINMENT => ⟨.HT_IDE_STATUS, 6, 1, .ro, 1, 1, 64⟩
  | .HT_IDE_CTL_REQUIRE_IO => ⟨.HT_IDE_CTL, 0, 1, .rw, 0, 1, 64⟩
  | .HT_IDE_CTL_REQUIRE_CXL => ⟨.HT_IDE_CTL, 1, 1, .rw, 0, 1, 64⟩
  | .NT_CTL_BANK => ⟨.NT_CTL, 0, 1, .rw, 0, 1, 64⟩
  | .NT_CTL_PAUSE => ⟨.NT_CTL, 1, 1, .rw, 0, 1, 64⟩
  | .NT_CTL_ESC_WAIT => ⟨.NT_CTL, 8, 8, .rw, 8, 1, 64⟩
  | .NT_STATUS_QUIET => ⟨.NT_STATUS, 0, 1, .ro, 0, 1, 64⟩
  | .NT_STATUS_HELD => ⟨.NT_STATUS, 16, 16, .ro, 0, 1, 64⟩
  | .NT_ESC_ROOT_ROOT => ⟨.NT_ESC_ROOT, 0, 7, .rw, 0, 1, 64⟩
  | .NT_NOTICE_SEQ_SEQ => ⟨.NT_NOTICE_SEQ, 0, 32, .ro, 0, 1, 64⟩
  | .NT_PORT_STATUS_UP => ⟨.NT_PORT_STATUS, 0, 7, .ro, 0, 1, 64⟩
  | .NT_PORT_STATUS_PRESENT => ⟨.NT_PORT_STATUS, 8, 7, .ro, 0, 1, 64⟩
  | .NT_LEDGER_OCC => ⟨.NT_LEDGER, 0, 13, .ro, 0, 1, 64⟩
  | .NT_LEDGER_TIMEOUTS => ⟨.NT_LEDGER, 16, 16, .rc, 0, 1, 64⟩
  | .NT_HOLD_HELD => ⟨.NT_HOLD, 0, 7, .ro, 0, 1, 64⟩
  | .NT_CRC_COUNT_RETRIES => ⟨.NT_CRC_COUNT, 0, 32, .rc, 0, 1, 64⟩
  | .NT_CRC_COUNT_DOWN => ⟨.NT_CRC_COUNT, 32, 16, .rc, 0, 1, 64⟩
  | .NT_ESC_COUNT_ESCAPES => ⟨.NT_ESC_COUNT, 0, 32, .rc, 0, 1, 64⟩
  | .NT_AGE_SAT_COUNT_SATURATED => ⟨.NT_AGE_SAT_COUNT, 0, 32, .rc, 0, 1, 64⟩
  | .NT_PROXY_COUNT_FENCED => ⟨.NT_PROXY_COUNT, 0, 32, .rc, 0, 1, 64⟩
  | .NT_PROXY_COUNT_DISCARDED => ⟨.NT_PROXY_COUNT, 32, 32, .rc, 0, 1, 64⟩
  | .NT_FLITS_FLITS => ⟨.NT_FLITS, 0, 64, .ro, 0, 1, 64⟩
  | .NT_ROUTE_VC0_PORT => ⟨.NT_ROUTE, 0, 4, .rw, 0, 8, 8⟩
  | .NT_ROUTE_ESC_PORT => ⟨.NT_ROUTE, 4, 4, .rw, 0, 8, 8⟩
  | .SP_STATUS_USABLE => ⟨.SP_STATUS, 0, 12, .ro, 0, 1, 64⟩
  | .SP_STATUS_VAULTS_2X => ⟨.SP_STATUS, 16, 12, .ro, 0, 1, 64⟩
  | .SP_STATUS_VAULTS_4X => ⟨.SP_STATUS, 32, 12, .ro, 0, 1, 64⟩
  | .SP_GOV_CAPACITY => ⟨.SP_GOV, 0, 24, .ro, 0, 1, 64⟩
  | .SP_GOV_RSV_TOTAL => ⟨.SP_GOV, 24, 24, .ro, 0, 1, 64⟩
  | .SP_GOV_STATE => ⟨.SP_GOV, 48, 2, .ro, 0, 1, 64⟩
  | .SP_GOV_SCALE => ⟨.SP_GOV, 50, 11, .ro, 0x400, 1, 64⟩
  | .SP_GOV_SEALED_SEALED_TOTAL => ⟨.SP_GOV_SEALED, 0, 24, .ro, 0, 1, 64⟩
  | .SP_GOV_SEALED_PAUSE_Q => ⟨.SP_GOV_SEALED, 24, 5, .ro, 0, 1, 64⟩
  | .SP_GOV_SEALED_SEALED_COUNT => ⟨.SP_GOV_SEALED, 32, 6, .ro, 0, 1, 64⟩
  | .SP_SCRUB_CTL_PERIOD => ⟨.SP_SCRUB_CTL, 0, 8, .rw, 0x18, 1, 64⟩
  | .SP_SCRUB_CTL_ENABLE => ⟨.SP_SCRUB_CTL, 8, 1, .rw, 1, 1, 64⟩
  | .SP_SCRUB_STATUS_PASSES => ⟨.SP_SCRUB_STATUS, 0, 16, .ro, 0, 1, 64⟩
  | .SP_RSV_GBPS => ⟨.SP_RSV, 0, 18, .rwl, 0, 1, 64⟩
  | .SP_RSV_STATUS => ⟨.SP_RSV, 18, 2, .ro, 0, 1, 64⟩
  | .SP_RSV_ALLOWED => ⟨.SP_RSV, 20, 20, .ro, 0, 1, 64⟩
  | .SP_RSV_PAUSED => ⟨.SP_RSV, 40, 1, .ro, 0, 1, 64⟩
  | .SP_KEY_CTL_GENERATE => ⟨.SP_KEY_CTL, 0, 1, .wo, 0, 1, 64⟩
  | .SP_KEY_CTL_CLEAR => ⟨.SP_KEY_CTL, 1, 1, .wo, 0, 1, 64⟩
  | .SP_KEY_CTL_VALID => ⟨.SP_KEY_CTL, 2, 1, .ro, 0, 1, 64⟩
  | .SP_KEY_CTL_STATUS => ⟨.SP_KEY_CTL, 3, 2, .ro, 0, 1, 64⟩
  | .SP_STRIPE_CTL_COUNT => ⟨.SP_STRIPE_CTL, 0, 12, .rw, 0, 1, 64⟩
  | .SP_STRIPE_CTL_ACTIVE => ⟨.SP_STRIPE_CTL, 16, 1, .rw, 0, 1, 64⟩
  | .SP_STRIPE_CTL_STATUS => ⟨.SP_STRIPE_CTL, 17, 2, .ro, 0, 1, 64⟩
  | .SP_STRIPE_LIST_VAULT => ⟨.SP_STRIPE_LIST, 0, 12, .rw, 0, 4, 16⟩
  | .SP_HDM_STATUS_UNMAPPED => ⟨.SP_HDM_STATUS, 0, 32, .rc, 0, 1, 64⟩
  | .SP_HDM_STATUS_FENCED => ⟨.SP_HDM_STATUS, 32, 32, .rc, 0, 1, 64⟩
  | .SP_VAULT_OWNER_COIL => ⟨.SP_VAULT_OWNER, 0, 5, .rwl, 0, 1, 64⟩
  | .SP_VAULT_OWNER_VALID => ⟨.SP_VAULT_OWNER, 15, 1, .rwl, 0, 1, 64⟩
  | .SP_VAULT_OWNER_STATUS => ⟨.SP_VAULT_OWNER, 16, 2, .ro, 0, 1, 64⟩
  | .SP_VAULT_STATUS_STATE => ⟨.SP_VAULT_STATUS, 0, 2, .ro, 0, 1, 64⟩
  | .SP_VAULT_STATUS_REFRESH => ⟨.SP_VAULT_STATUS, 2, 2, .ro, 0, 1, 64⟩
  | .SP_VAULT_STATUS_CE_COUNT => ⟨.SP_VAULT_STATUS, 16, 16, .rc, 0, 1, 64⟩
  | .SP_VAULT_STATUS_SPARES_USED => ⟨.SP_VAULT_STATUS, 32, 8, .ro, 0, 1, 64⟩
  | .SP_VAULT_STATUS_UE_LINES => ⟨.SP_VAULT_STATUS, 40, 8, .ro, 0, 1, 64⟩
  | .SP_HDM_MAP_FATHOM => ⟨.SP_HDM_MAP, 0, 17, .rw, 0, 1, 64⟩
  | .SP_HDM_MAP_COIL => ⟨.SP_HDM_MAP, 20, 5, .rw, 0, 1, 64⟩
  | .SP_HDM_MAP_VALID => ⟨.SP_HDM_MAP, 31, 1, .rw, 0, 1, 64⟩
  | .SP_HDM_MAP_STATUS => ⟨.SP_HDM_MAP, 32, 2, .ro, 0, 1, 64⟩
  | .DT_STATUS_WALKERS => ⟨.DT_STATUS, 0, 10, .ro, 0, 1, 64⟩
  | .DT_STATUS_ACTIVE => ⟨.DT_STATUS, 16, 10, .ro, 0, 1, 64⟩
  | .DT_STATUS_GRANTS => ⟨.DT_STATUS, 32, 9, .ro, 0, 1, 64⟩
  | .DT_CTX_ROOT_ROOT => ⟨.DT_CTX_ROOT, 12, 29, .rw, 0, 1, 64⟩
  | .DT_CTX_TBL_BASE => ⟨.DT_CTX_TBL, 0, 17, .rw, 0, 1, 64⟩
  | .DT_CTX_TBL_COUNT => ⟨.DT_CTX_TBL, 32, 4, .rw, 0, 1, 64⟩
  | .DT_CTX_CTL_ENABLE => ⟨.DT_CTX_CTL, 0, 1, .rw, 0, 1, 64⟩
  | .DT_CTX_CTL_IRQ_EN => ⟨.DT_CTX_CTL, 1, 1, .rw, 0, 1, 64⟩
  | .DT_CTX_CTL_IRQ_VEC => ⟨.DT_CTX_CTL, 2, 5, .rw, 0, 1, 64⟩
  | .DT_CTX_CTL_STATUS => ⟨.DT_CTX_CTL, 8, 2, .ro, 0, 1, 64⟩
  | .DT_INV_CMD_KIND => ⟨.DT_INV_CMD, 0, 3, .wo, 0, 1, 64⟩
  | .DT_INV_CMD_BASE => ⟨.DT_INV_CMD, 8, 24, .wo, 0, 1, 64⟩
  | .DT_INV_CMD_COUNT => ⟨.DT_INV_CMD, 32, 24, .wo, 0, 1, 64⟩
  | .DT_INV_STATUS_ISSUED => ⟨.DT_INV_STATUS, 0, 24, .ro, 0, 1, 64⟩
  | .DT_INV_STATUS_DONE => ⟨.DT_INV_STATUS, 24, 24, .ro, 0, 1, 64⟩
  | .DT_INV_STATUS_STATUS => ⟨.DT_INV_STATUS, 48, 2, .ro, 0, 1, 64⟩
  | .DT_INV_STATUS_PENDING => ⟨.DT_INV_STATUS, 50, 5, .ro, 0, 1, 64⟩
  | .DT_FAULT_ADDR_DVA => ⟨.DT_FAULT_ADDR, 0, 48, .ro, 0, 1, 64⟩
  | .DT_FAULT_INFO_VALID => ⟨.DT_FAULT_INFO, 0, 1, .w1c, 0, 1, 64⟩
  | .DT_FAULT_INFO_KIND => ⟨.DT_FAULT_INFO, 1, 3, .ro, 0, 1, 64⟩
  | .DT_FAULT_INFO_CAUSE => ⟨.DT_FAULT_INFO, 4, 8, .ro, 0, 1, 64⟩
  | .DT_FAULT_INFO_ACCESS => ⟨.DT_FAULT_INFO, 12, 2, .ro, 0, 1, 64⟩
  | .DT_FAULT_INFO_SOURCE => ⟨.DT_FAULT_INFO, 14, 3, .ro, 0, 1, 64⟩
  | .DT_FAULT_INFO_UNIT => ⟨.DT_FAULT_INFO, 17, 12, .ro, 0, 1, 64⟩
  | .DT_FAULT_INFO_LEVEL => ⟨.DT_FAULT_INFO, 29, 3, .ro, 0, 1, 64⟩
  | .DT_FAULT_INFO_COUNT => ⟨.DT_FAULT_INFO, 32, 32, .rc, 0, 1, 64⟩
  | .DT_SHARE_A_OWNER => ⟨.DT_SHARE_A, 0, 5, .rw, 0, 1, 64⟩
  | .DT_SHARE_A_GRANTEE => ⟨.DT_SHARE_A, 5, 5, .rw, 0, 1, 64⟩
  | .DT_SHARE_A_PERM => ⟨.DT_SHARE_A, 10, 3, .rw, 0, 1, 64⟩
  | .DT_SHARE_A_VALID => ⟨.DT_SHARE_A, 15, 1, .rw, 0, 1, 64⟩
  | .DT_SHARE_A_BUSY => ⟨.DT_SHARE_A, 16, 1, .ro, 0, 1, 64⟩
  | .DT_SHARE_A_STATUS => ⟨.DT_SHARE_A, 17, 2, .ro, 0, 1, 64⟩
  | .DT_SHARE_B_BASE => ⟨.DT_SHARE_B, 0, 17, .rw, 0, 1, 64⟩
  | .DT_SHARE_B_COUNT => ⟨.DT_SHARE_B, 32, 16, .rw, 0, 1, 64⟩
  | .DTW_STATUS_ENABLED => ⟨.DTW_STATUS, 0, 8, .ro, 0, 1, 64⟩
  | .DTW_STATUS_BUSY => ⟨.DTW_STATUS, 8, 8, .ro, 0, 1, 64⟩
  | .DTW_STATUS_QUEUED => ⟨.DTW_STATUS, 16, 7, .ro, 0, 1, 64⟩
  | .DTW_HITS_COUNT => ⟨.DTW_HITS, 0, 64, .ro, 0, 1, 64⟩
  | .DTW_MISSES_COUNT => ⟨.DTW_MISSES, 0, 64, .ro, 0, 1, 64⟩
  | .DTW_WALKS_COUNT => ⟨.DTW_WALKS, 0, 64, .ro, 0, 1, 64⟩
  | .DTW_FAULTS_COUNT => ⟨.DTW_FAULTS, 0, 64, .ro, 0, 1, 64⟩
  | .DTW_DROPS_COUNT => ⟨.DTW_DROPS, 0, 64, .ro, 0, 1, 64⟩
  | .PC_STATUS_WAYS => ⟨.PC_STATUS, 0, 4, .ro, 0, 1, 64⟩
  | .PC_STATUS_CARVE_BUSY => ⟨.PC_STATUS, 4, 1, .ro, 0, 1, 64⟩
  | .PC_STATUS_MAINT_BUSY => ⟨.PC_STATUS, 5, 1, .ro, 0, 1, 64⟩
  | .PC_STATUS_MISS_USED => ⟨.PC_STATUS, 6, 7, .ro, 0, 1, 64⟩
  | .PC_STATUS_VICTIM_USED => ⟨.PC_STATUS, 13, 6, .ro, 0, 1, 64⟩
  | .PC_CTL_PREFETCH => ⟨.PC_CTL, 0, 1, .rwl, 1, 1, 64⟩
  | .PC_CTL_VICTIM => ⟨.PC_CTL, 1, 1, .rwl, 1, 1, 64⟩
  | .PC_SCRATCH_WAYS => ⟨.PC_SCRATCH, 0, 4, .rwl, 0, 1, 64⟩
  | .PC_SCRATCH_STATUS => ⟨.PC_SCRATCH, 8, 2, .ro, 0, 1, 64⟩
  | .PC_MAINT_OP => ⟨.PC_MAINT, 0, 3, .wo, 0, 1, 64⟩
  | .PC_MAINT_WAY => ⟨.PC_MAINT, 4, 5, .wo, 0, 1, 64⟩
  | .PC_MAINT_SET => ⟨.PC_MAINT, 10, 14, .wo, 0, 1, 64⟩
  | .PC_MAINT_STATUS => ⟨.PC_MAINT, 32, 2, .ro, 0, 1, 64⟩
  | .PC_ECC_CE => ⟨.PC_ECC, 0, 16, .rc, 0, 1, 64⟩
  | .PC_ECC_UE_CLEAN => ⟨.PC_ECC, 16, 16, .rc, 0, 1, 64⟩
  | .PC_ECC_UE_DIRTY => ⟨.PC_ECC, 32, 16, .rc, 0, 1, 64⟩
  | .PC_HITS_COUNT => ⟨.PC_HITS, 0, 64, .ro, 0, 1, 64⟩
  | .PC_MISSES_COUNT => ⟨.PC_MISSES, 0, 64, .ro, 0, 1, 64⟩
  | .PC_VICTIM_HITS_COUNT => ⟨.PC_VICTIM_HITS, 0, 64, .ro, 0, 1, 64⟩
  | .PC_PREFETCHES_ISSUED => ⟨.PC_PREFETCHES, 0, 32, .ro, 0, 1, 64⟩
  | .PC_PREFETCHES_USED => ⟨.PC_PREFETCHES, 32, 32, .ro, 0, 1, 64⟩
  | .PC_WRITEBACKS_COUNT => ⟨.PC_WRITEBACKS, 0, 64, .ro, 0, 1, 64⟩
  | .BA_STATUS_WB_PENDING => ⟨.BA_STATUS, 0, 7, .ro, 0, 1, 64⟩
  | .BA_STATUS_SWEEP => ⟨.BA_STATUS, 7, 1, .ro, 0, 1, 64⟩
  | .BA_STATUS_PROMOTED => ⟨.BA_STATUS, 8, 4, .ro, 0, 1, 64⟩
  | .BA_CTL_FREEZE => ⟨.BA_CTL, 0, 1, .rw, 0, 1, 64⟩
  | .BA_CTL_STARVE_LIMIT => ⟨.BA_CTL, 16, 13, .ro, 0x1000, 1, 64⟩
  | .BA_TXN_COUNT => ⟨.BA_TXN, 0, 64, .ro, 0, 1, 64⟩
  | .BA_RETRY_COUNT => ⟨.BA_RETRY, 0, 64, .ro, 0, 1, 64⟩
  | .BA_STARVED_COUNT => ⟨.BA_STARVED, 0, 32, .rc, 0, 1, 64⟩
  | .BA_MAXWAIT_CYCLES => ⟨.BA_MAXWAIT, 0, 13, .rc, 0, 1, 64⟩
  | .BA_C2C_COUNT => ⟨.BA_C2C, 0, 64, .ro, 0, 1, 64⟩
  | .BA_HOME_SNOOPS_COUNT => ⟨.BA_HOME_SNOOPS, 0, 64, .ro, 0, 1, 64⟩
  | .CR_STATUS_PSTATE => ⟨.CR_STATUS, 0, 3, .ro, 4, 1, 64⟩
  | .CR_STATUS_OP => ⟨.CR_STATUS, 3, 3, .ro, 0, 1, 64⟩
  | .CR_STATUS_TASK => ⟨.CR_STATUS, 6, 1, .ro, 0, 1, 64⟩
  | .CR_STATUS_COIL => ⟨.CR_STATUS, 7, 5, .ro, 0, 1, 64⟩
  | .CR_STATUS_COIL_VALID => ⟨.CR_STATUS, 12, 1, .ro, 0, 1, 64⟩
  | .CR_STATUS_REPEATABLE => ⟨.CR_STATUS, 13, 1, .ro, 0, 1, 64⟩
  | .CR_STATUS_RIG => ⟨.CR_STATUS, 14, 1, .ro, 0, 1, 64⟩
  | .CR_STATUS_FENCED => ⟨.CR_STATUS, 15, 1, .ro, 0, 1, 64⟩
  | .CR_TASK_TASK_ID => ⟨.CR_TASK, 0, 64, .ro, 0, 1, 64⟩
  | .CR_FAULT_CODE => ⟨.CR_FAULT, 0, 4, .ro, 0, 1, 64⟩
  | .CR_FAULT_CAUSE => ⟨.CR_FAULT, 4, 8, .ro, 0, 1, 64⟩
  | .CR_FAULT_DEFERRED => ⟨.CR_FAULT, 12, 1, .ro, 0, 1, 64⟩
  | .CR_FAULT_OVERRUN => ⟨.CR_FAULT, 13, 1, .ro, 0, 1, 64⟩
  | .CR_FAULT_VALID => ⟨.CR_FAULT, 14, 1, .ro, 0, 1, 64⟩
  | .CR_FAULT_RIG => ⟨.CR_FAULT, 15, 1, .ro, 0, 1, 64⟩
  | .CR_FAULT_PC_PC => ⟨.CR_FAULT_PC, 0, 48, .ro, 0, 1, 64⟩
  | .CR_FAULT_ADDR_ADDR => ⟨.CR_FAULT_ADDR, 0, 64, .ro, 0, 1, 64⟩
  | .CR_FAULT_COUNT_COUNT => ⟨.CR_FAULT_COUNT, 0, 32, .rc, 0, 1, 64⟩
  | .CR_RETIRED_COUNT => ⟨.CR_RETIRED, 0, 64, .ro, 0, 1, 64⟩
  | .CR_MMA_BUSY_CYCLES => ⟨.CR_MMA_BUSY, 0, 64, .ro, 0, 1, 64⟩
  | .CR_ENERGY_UJ => ⟨.CR_ENERGY, 0, 64, .ro, 0, 1, 64⟩
  | .CR_WAKES_FROM_RETAIN => ⟨.CR_WAKES, 0, 32, .ro, 0, 1, 64⟩
  | .CR_WAKES_FROM_DARK => ⟨.CR_WAKES, 32, 32, .ro, 0, 1, 64⟩
  | .CR_TILE_ECC_CE => ⟨.CR_TILE_ECC, 0, 16, .rc, 0, 1, 64⟩
  | .CR_TILE_ECC_UE => ⟨.CR_TILE_ECC, 16, 16, .rc, 0, 1, 64⟩
  | .TK_ENG_STATUS_ACTIVE => ⟨.TK_ENG_STATUS, 0, 6, .ro, 0, 1, 64⟩
  | .TK_ENG_STATUS_R_QUEUE => ⟨.TK_ENG_STATUS, 8, 6, .ro, 0, 1, 64⟩
  | .TK_ENG_STATUS_COIL => ⟨.TK_ENG_STATUS, 16, 5, .ro, 0, 1, 64⟩
  | .TK_ENG_STATUS_COIL_VALID => ⟨.TK_ENG_STATUS, 21, 1, .ro, 0, 1, 64⟩
  | .TK_ENG_BEATS_COUNT => ⟨.TK_ENG_BEATS, 0, 64, .ro, 0, 1, 64⟩
  | .TK_ENG_PREEMPTS_COUNT => ⟨.TK_ENG_PREEMPTS, 0, 64, .ro, 0, 1, 64⟩
  | .TK_CH_CTL_ENABLE => ⟨.TK_CH_CTL, 0, 1, .rw, 0, 1, 64⟩
  | .TK_CH_CTL_PAUSE => ⟨.TK_CH_CTL, 1, 1, .rw, 0, 1, 64⟩
  | .TK_CH_CTL_CLASS => ⟨.TK_CH_CTL, 2, 1, .rwl, 0, 1, 64⟩
  | .TK_CH_CTL_PRIO => ⟨.TK_CH_CTL, 3, 3, .rwl, 0, 1, 64⟩
  | .TK_CH_CTL_IRQ_EN => ⟨.TK_CH_CTL, 6, 1, .rw, 0, 1, 64⟩
  | .TK_CH_CTL_IRQ_VEC => ⟨.TK_CH_CTL, 7, 6, .rw, 0, 1, 64⟩
  | .TK_CH_CTL_WATCH => ⟨.TK_CH_CTL, 13, 1, .rw, 0, 1, 64⟩
  | .TK_CH_CTL_STATUS => ⟨.TK_CH_CTL, 16, 2, .ro, 0, 1, 64⟩
  | .TK_CH_RING_BASE => ⟨.TK_CH_RING, 6, 42, .rw, 0, 1, 64⟩
  | .TK_CH_RING_LOG2 => ⟨.TK_CH_RING, 48, 5, .rw, 0, 1, 64⟩
  | .TK_CH_TAIL_TAIL => ⟨.TK_CH_TAIL, 0, 32, .rw, 0, 1, 64⟩
  | .TK_CH_TAIL_STATUS => ⟨.TK_CH_TAIL, 32, 2, .ro, 0, 1, 64⟩
  | .TK_CH_DONE_DONE => ⟨.TK_CH_DONE, 0, 32, .ro, 0, 1, 64⟩
  | .TK_CH_WATCH_ADDR => ⟨.TK_CH_WATCH, 3, 45, .rw, 0, 1, 64⟩
  | .TK_CH_STATUS_STATE => ⟨.TK_CH_STATUS, 0, 3, .ro, 0, 1, 64⟩
  | .TK_CH_STATUS_HALT_REASON => ⟨.TK_CH_STATUS, 4, 4, .ro, 0, 1, 64⟩
  | .TK_CH_STATUS_EOC => ⟨.TK_CH_STATUS, 8, 1, .w1c, 0, 1, 64⟩
  | .TK_CH_PROGRESS_ROW => ⟨.TK_CH_PROGRESS, 0, 32, .ro, 0, 1, 64⟩
  | .TK_CH_PROGRESS_OFFSET => ⟨.TK_CH_PROGRESS, 32, 32, .ro, 0, 1, 64⟩
  | .TK_CH_CUR_SRC_ADDR => ⟨.TK_CH_CUR_SRC, 0, 64, .ro, 0, 1, 64⟩
  | .TK_CH_CUR_DST_ADDR => ⟨.TK_CH_CUR_DST, 0, 64, .ro, 0, 1, 64⟩
  | .TK_CH_STAGE_STAGED => ⟨.TK_CH_STAGE, 0, 13, .ro, 0, 1, 64⟩
  | .TK_CH_STAGE_IN_FLIGHT => ⟨.TK_CH_STAGE, 16, 13, .ro, 0, 1, 64⟩
  | .TK_CH_FAULT_ADDR => ⟨.TK_CH_FAULT, 0, 64, .ro, 0, 1, 64⟩
  | .TK_CH_BAD_COUNT => ⟨.TK_CH_BAD, 0, 32, .rc, 0, 1, 64⟩
  | .TK_CH_BYTES_COUNT => ⟨.TK_CH_BYTES, 0, 64, .ro, 0, 1, 64⟩
  | .CP_STATUS_INFLIGHT => ⟨.CP_STATUS, 0, 17, .ro, 0, 1, 64⟩
  | .CP_STATUS_READY => ⟨.CP_STATUS, 17, 17, .ro, 0, 1, 64⟩
  | .CP_STATUS_WAITING => ⟨.CP_STATUS, 34, 17, .ro, 0, 1, 64⟩
  | .CP_POWER_E_W => ⟨.CP_POWER, 0, 16, .ro, 0, 1, 64⟩
  | .CP_POWER_ALLOW_W => ⟨.CP_POWER, 16, 16, .ro, 0, 1, 64⟩
  | .CP_POWER_PMEAS_W => ⟨.CP_POWER, 32, 16, .ro, 0, 1, 64⟩
  | .CP_POWER_NONBAY_W => ⟨.CP_POWER, 48, 16, .ro, 0, 1, 64⟩
  | .CP_TICK_TICKS => ⟨.CP_TICK, 0, 64, .ro, 0, 1, 64⟩
  | .CP_PARK_CLK_US => ⟨.CP_PARK, 0, 16, .rw, 0x32, 1, 64⟩
  | .CP_PARK_DARK_MS => ⟨.CP_PARK, 16, 16, .rw, 0x64, 1, 64⟩
  | .CP_LOSS_LOST => ⟨.CP_LOSS, 0, 32, .rc, 0, 1, 64⟩
  | .CP_LOSS_REDISPATCHED => ⟨.CP_LOSS, 32, 32, .rc, 0, 1, 64⟩
  | .CP_BAY_GIVE => ⟨.CP_BAY, 0, 24, .ro, 0, 1, 64⟩
  | .CP_BAY_HEADROOM => ⟨.CP_BAY, 24, 11, .ro, 0, 1, 64⟩
  | .CP_BAY_QUEUED => ⟨.CP_BAY, 40, 24, .ro, 0, 1, 64⟩
  | .CP_COIL_CTL_SKFLUSH => ⟨.CP_COIL_CTL, 0, 1, .wo, 0, 1, 64⟩
  | .CP_COIL_CTL_QUIESCED => ⟨.CP_COIL_CTL, 1, 1, .ro, 0, 1, 64⟩
  | .CP_COIL_CTL_PAUSED => ⟨.CP_COIL_CTL, 2, 1, .ro, 0, 1, 64⟩
  | .CP_COIL_CTL_FIXED_OP => ⟨.CP_COIL_CTL, 4, 3, .rwl, 7, 1, 64⟩
  | .CP_COIL_CTL_REDISPATCH_MAX => ⟨.CP_COIL_CTL, 8, 2, .rw, 2, 1, 64⟩
  | .CP_COIL_CTL_INFLIGHT_MAX => ⟨.CP_COIL_CTL, 32, 17, .rwl, 0x10000, 1, 64⟩
  | .CP_COIL_POWER_SHARE_W => ⟨.CP_COIL_POWER, 0, 16, .rwl, 0, 1, 64⟩
  | .CP_COIL_POWER_STATUS => ⟨.CP_COIL_POWER, 16, 2, .ro, 0, 1, 64⟩
  | .CP_COIL_LIMIT_DEFAULT_US => ⟨.CP_COIL_LIMIT, 0, 32, .rw, 0xf4240, 1, 64⟩
  | .CP_COIL_SKDIR_BASE => ⟨.CP_COIL_SKDIR, 12, 36, .rw, 0, 1, 64⟩
  | .CP_COIL_SKDIR_VALID => ⟨.CP_COIL_SKDIR, 48, 1, .rw, 0, 1, 64⟩
  | .CP_COIL_KNOTS_BASE => ⟨.CP_COIL_KNOTS, 24, 24, .rw, 0, 1, 64⟩
  | .CP_COIL_KNOTS_LOG2 => ⟨.CP_COIL_KNOTS, 48, 5, .rw, 0, 1, 64⟩
  | .CP_COIL_KNOTS_STATUS => ⟨.CP_COIL_KNOTS, 54, 1, .ro, 0, 1, 64⟩
  | .CP_KNOT_CMD_KNOT => ⟨.CP_KNOT_CMD, 0, 20, .wo, 0, 1, 64⟩
  | .CP_KNOT_CMD_OP => ⟨.CP_KNOT_CMD, 20, 3, .wo, 0, 1, 64⟩
  | .CP_KNOT_CMD_COUNT => ⟨.CP_KNOT_CMD, 32, 32, .wo, 0, 1, 64⟩
  | .CP_CANCEL_TASK_ID => ⟨.CP_CANCEL, 0, 64, .wo, 0, 1, 64⟩
  | .CP_CMD_STATUS_KNOT_STATUS => ⟨.CP_CMD_STATUS, 0, 2, .ro, 0, 1, 64⟩
  | .CP_CMD_STATUS_CANCEL_STATUS => ⟨.CP_CMD_STATUS, 2, 2, .ro, 0, 1, 64⟩
  | .CP_CMD_STATUS_ARMED => ⟨.CP_CMD_STATUS, 4, 1, .ro, 0, 1, 64⟩
  | .CP_CMD_STATUS_MARK => ⟨.CP_CMD_STATUS, 5, 1, .ro, 0, 1, 64⟩
  | .CP_CMD_STATUS_VALUE => ⟨.CP_CMD_STATUS, 32, 32, .ro, 0, 1, 64⟩
  | .CP_COIL_COUNT_INFLIGHT => ⟨.CP_COIL_COUNT, 0, 17, .ro, 0, 1, 64⟩
  | .CP_COIL_COUNT_READY => ⟨.CP_COIL_COUNT, 17, 17, .ro, 0, 1, 64⟩
  | .CP_COIL_COUNT_RUNNING => ⟨.CP_COIL_COUNT, 34, 12, .ro, 0, 1, 64⟩
  | .CP_COIL_DROPS_REJECTED => ⟨.CP_COIL_DROPS, 0, 32, .rc, 0, 1, 64⟩
  | .CP_COIL_DROPS_DISCARDED => ⟨.CP_COIL_DROPS, 32, 32, .rc, 0, 1, 64⟩
  | .CP_COIL_ENERGY_UJ => ⟨.CP_COIL_ENERGY, 0, 64, .ro, 0, 1, 64⟩
  | .CP_SRING_CFG_BASE => ⟨.CP_SRING_CFG, 7, 41, .rw, 0, 1, 64⟩
  | .CP_SRING_CFG_LOG2 => ⟨.CP_SRING_CFG, 48, 5, .rw, 4, 1, 64⟩
  | .CP_SRING_CFG_ENABLE => ⟨.CP_SRING_CFG, 56, 1, .rw, 0, 1, 64⟩
  | .CP_SRING_CFG_SPAWN => ⟨.CP_SRING_CFG, 57, 1, .rw, 0, 1, 64⟩
  | .CP_SRING_CFG_STATUS => ⟨.CP_SRING_CFG, 58, 2, .ro, 0, 1, 64⟩
  | .CP_SRING_PTR_TAIL => ⟨.CP_SRING_PTR, 0, 32, .ro, 0, 1, 64⟩
  | .CP_SRING_PTR_HEAD => ⟨.CP_SRING_PTR, 32, 32, .ro, 0, 1, 64⟩
  | .CP_SRING_FAULT_HALTED => ⟨.CP_SRING_FAULT, 0, 1, .ro, 0, 1, 64⟩
  | .CP_SRING_FAULT_REASON => ⟨.CP_SRING_FAULT, 1, 2, .ro, 0, 1, 64⟩
  | .CP_SRING_FAULT_IGNORED => ⟨.CP_SRING_FAULT, 16, 16, .rc, 0, 1, 64⟩
  | .CP_CRING_CFG_BASE => ⟨.CP_CRING_CFG, 5, 43, .rw, 0, 1, 64⟩
  | .CP_CRING_CFG_LOG2 => ⟨.CP_CRING_CFG, 48, 5, .rw, 4, 1, 64⟩
  | .CP_CRING_CFG_ENABLE => ⟨.CP_CRING_CFG, 56, 1, .rw, 0, 1, 64⟩
  | .CP_CRING_CFG_IRQ_EN => ⟨.CP_CRING_CFG, 57, 1, .rw, 0, 1, 64⟩
  | .CP_CRING_CFG_VEC => ⟨.CP_CRING_CFG, 58, 6, .rw, 0, 1, 64⟩
  | .CP_CRING_PTR_WRITE => ⟨.CP_CRING_PTR, 0, 32, .ro, 0, 1, 64⟩
  | .CP_CRING_PTR_HEAD => ⟨.CP_CRING_PTR, 32, 32, .ro, 0, 1, 64⟩
  | .CP_CRING_MOD_MODERATE_US => ⟨.CP_CRING_MOD, 0, 16, .rw, 0, 1, 64⟩
  | .CP_CRING_MOD_STATUS => ⟨.CP_CRING_MOD, 16, 2, .ro, 0, 1, 64⟩
  | .CP_CRING_MOD_HELD => ⟨.CP_CRING_MOD, 32, 16, .ro, 0, 1, 64⟩
  | .CP_CRING_MOD_IGNORED => ⟨.CP_CRING_MOD, 48, 16, .rc, 0, 1, 64⟩
  | .CPW_STATUS_PLL => ⟨.CPW_STATUS, 0, 1, .ro, 0, 1, 64⟩
  | .CPW_STATUS_RUNNING => ⟨.CPW_STATUS, 1, 6, .ro, 0, 1, 64⟩
  | .CPW_STATUS_HOT => ⟨.CPW_STATUS, 7, 1, .ro, 0, 1, 64⟩
  | .CPW_STATUS_TBAY => ⟨.CPW_STATUS, 8, 8, .ro, 0, 1, 64⟩
  | .CPW_STATUS_QUEUED => ⟨.CPW_STATUS, 16, 16, .ro, 0, 1, 64⟩
  | .CPW_STATUS_BALANCE => ⟨.CPW_STATUS, 32, 32, .ro, 0, 1, 64⟩
  | .CPW_OPCOST_COST => ⟨.CPW_OPCOST, 0, 12, .ro, 0, 5, 12⟩
  | .CPW_ENERGY_IDLE => ⟨.CPW_ENERGY, 0, 32, .ro, 0, 1, 64⟩
  | .CPW_ENERGY_USED => ⟨.CPW_ENERGY, 32, 32, .ro, 0, 1, 64⟩
  | .CPW_DISPATCH_COUNT => ⟨.CPW_DISPATCH, 0, 32, .ro, 0, 1, 64⟩
  | .CPW_DISPATCH_OVERSPEND => ⟨.CPW_DISPATCH, 32, 31, .ro, 0, 1, 64⟩
  | .CPW_CORE_CEILING => ⟨.CPW_CORE, 0, 3, .ro, 0, 1, 64⟩
  | .CPW_CORE_POINT => ⟨.CPW_CORE, 3, 3, .ro, 0, 1, 64⟩
  | .CPW_CORE_BUSY => ⟨.CPW_CORE, 6, 1, .ro, 0, 1, 64⟩
  | .CPW_CORE_TJ => ⟨.CPW_CORE, 7, 8, .ro, 0, 1, 64⟩
  | .CP_COIL_ADMIN_STATE => ⟨.CP_COIL_ADMIN, 0, 2, .ro, 0, 1, 64⟩
  | .CP_COIL_ADMIN_HOME => ⟨.CP_COIL_ADMIN, 4, 3, .ro, 0, 1, 64⟩
  | .CP_COIL_ADMIN_HOME_VALID => ⟨.CP_COIL_ADMIN, 7, 1, .ro, 0, 1, 64⟩
  | .CP_COIL_ADMIN_REPEATABLE => ⟨.CP_COIL_ADMIN, 8, 1, .rwl, 0, 1, 64⟩
  | .CP_COIL_ADMIN_CMD => ⟨.CP_COIL_ADMIN, 12, 2, .wo, 0, 1, 64⟩
  | .CP_COIL_ADMIN_STATUS => ⟨.CP_COIL_ADMIN, 16, 4, .ro, 0, 1, 64⟩
  | .CP_COIL_ADMIN_DESTROY_BUSY => ⟨.CP_COIL_ADMIN, 32, 1, .ro, 0, 1, 64⟩
  | .CP_PLY_OWNER_COIL => ⟨.CP_PLY_OWNER, 0, 5, .rwl, 0, 1, 64⟩
  | .CP_PLY_OWNER_VALID => ⟨.CP_PLY_OWNER, 15, 1, .rwl, 0, 1, 64⟩
  | .CP_PLY_OWNER_CLEARING => ⟨.CP_PLY_OWNER, 16, 1, .ro, 0, 1, 64⟩
  | .CP_PLY_OWNER_STATUS => ⟨.CP_PLY_OWNER, 17, 3, .ro, 0, 1, 64⟩
  | .CP_COIL_RUN_QUIESCE => ⟨.CP_COIL_RUN, 0, 1, .wo, 0, 1, 64⟩
  | .CP_COIL_RUN_RESUME => ⟨.CP_COIL_RUN, 1, 1, .wo, 0, 1, 64⟩
  | .CP_COIL_RUN_RESET => ⟨.CP_COIL_RUN, 2, 1, .wo, 0, 1, 64⟩
  | .CP_COIL_RUN_RESETTING => ⟨.CP_COIL_RUN, 3, 1, .ro, 0, 1, 64⟩
  | .CP_COIL_RUN_STATUS => ⟨.CP_COIL_RUN, 4, 2, .ro, 0, 1, 64⟩
  | .CL_CAPACITY_CORES => ⟨.CL_CAPACITY, 0, 12, .ro, 0, 1, 64⟩
  | .CL_CAPACITY_VAULTS => ⟨.CL_CAPACITY, 12, 12, .ro, 0, 1, 64⟩
  | .CL_CAPACITY_ROUTERS => ⟨.CL_CAPACITY, 24, 7, .ro, 0, 1, 64⟩
  | .CL_CAPACITY_BELOW_RATED => ⟨.CL_CAPACITY, 31, 1, .ro, 0, 1, 64⟩
  | .CL_CAPACITY_FENCE_GEN => ⟨.CL_CAPACITY, 32, 32, .ro, 0, 1, 64⟩
  | .BD_CTL_ENABLE => ⟨.BD_CTL, 0, 1, .rw, 0, 1, 64⟩
  | .BD_CTL_WAFER_ID => ⟨.BD_CTL, 1, 6, .rw, 0, 1, 64⟩
  | .BD_CTL_SYSTEM_ID => ⟨.BD_CTL, 7, 16, .rw, 0, 1, 64⟩
  | .BD_CTL_MAX_WIDTH => ⟨.BD_CTL, 23, 2, .rw, 0, 1, 64⟩
  | .BD_CTL_DATELINE => ⟨.BD_CTL, 25, 1, .rw, 0, 1, 64⟩
  | .BD_CTL_LOOPBACK => ⟨.BD_CTL, 26, 1, .rw, 0, 1, 64⟩
  | .BD_CTL_STATUS => ⟨.BD_CTL, 28, 2, .ro, 0, 1, 64⟩
  | .BD_STATUS_STATE => ⟨.BD_STATUS, 0, 3, .ro, 0, 1, 64⟩
  | .BD_STATUS_WIDTH => ⟨.BD_STATUS, 3, 2, .ro, 0, 1, 64⟩
  | .BD_STATUS_CAGES => ⟨.BD_STATUS, 5, 4, .ro, 0, 1, 64⟩
  | .BD_STATUS_PEER_WAFER => ⟨.BD_STATUS, 9, 6, .ro, 0, 1, 64⟩
  | .BD_STATUS_PEER_PORT => ⟨.BD_STATUS, 15, 3, .ro, 0, 1, 64⟩
  | .BD_STATUS_REPLAYING => ⟨.BD_STATUS, 18, 1, .ro, 0, 1, 64⟩
  | .BD_STATUS_LANES => ⟨.BD_STATUS, 32, 32, .ro, 0, 1, 64⟩
  | .BD_ERR_FEC_UNCORR => ⟨.BD_ERR, 0, 16, .rc, 0, 1, 64⟩
  | .BD_ERR_CRC_FAIL => ⟨.BD_ERR, 16, 16, .rc, 0, 1, 64⟩
  | .BD_ERR_REPLAYS => ⟨.BD_ERR, 32, 16, .rc, 0, 1, 64⟩
  | .BD_ERR_RECOVERIES => ⟨.BD_ERR, 48, 8, .rc, 0, 1, 64⟩
  | .BD_ERR_TIMEOUTS => ⟨.BD_ERR, 56, 8, .rc, 0, 1, 64⟩
  | .BD_FEC_CE_SYMBOLS => ⟨.BD_FEC_CE, 0, 64, .ro, 0, 1, 64⟩
  | .BD_OUTSTANDING_REQ => ⟨.BD_OUTSTANDING, 0, 13, .ro, 0, 1, 64⟩
  | .BD_OUTSTANDING_PENDING => ⟨.BD_OUTSTANDING, 32, 13, .ro, 0, 1, 64⟩
  | .BD_RETRAIN_GO => ⟨.BD_RETRAIN, 0, 1, .wo, 0, 1, 64⟩
  | .BD_ROUTE_PORT => ⟨.BD_ROUTE, 0, 3, .rw, 0, 1, 64⟩
  | .BD_ROUTE_VALID => ⟨.BD_ROUTE, 3, 1, .rw, 0, 1, 64⟩
  | .BD_ROUTE_CLASS_RESET => ⟨.BD_ROUTE, 4, 1, .rw, 0, 1, 64⟩
  | .BD_WIN_COIL => ⟨.BD_WIN, 0, 5, .rw, 0, 1, 64⟩
  | .BD_WIN_OPEN => ⟨.BD_WIN, 5, 1, .rw, 0, 1, 64⟩
  | .BD_WIN_DST_WAFER => ⟨.BD_WIN, 6, 6, .rw, 0, 1, 64⟩
  | .BD_WIN_DST_PORT => ⟨.BD_WIN, 12, 3, .rw, 0, 1, 64⟩
  | .BD_WIN_ENTRY => ⟨.BD_WIN, 15, 8, .rw, 0, 1, 64⟩
  | .BD_WIN_KIND => ⟨.BD_WIN, 23, 1, .rw, 0, 1, 64⟩
  | .BD_WIN_FATHOMS => ⟨.BD_WIN, 24, 17, .rw, 0, 1, 64⟩
  | .BD_WIN_BUSY => ⟨.BD_WIN, 43, 1, .ro, 0, 1, 64⟩
  | .BD_WIN_STATUS => ⟨.BD_WIN, 44, 3, .ro, 0, 1, 64⟩
  | .BD_WIN_OUTSTANDING => ⟨.BD_WIN, 48, 12, .ro, 0, 1, 64⟩
  | .BD_SPLICE_A_COIL => ⟨.BD_SPLICE_A, 0, 5, .rw, 0, 1, 64⟩
  | .BD_SPLICE_A_VALID => ⟨.BD_SPLICE_A, 5, 1, .rw, 0, 1, 64⟩
  | .BD_SPLICE_A_KIND => ⟨.BD_SPLICE_A, 6, 2, .rw, 0, 1, 64⟩
  | .BD_SPLICE_A_R => ⟨.BD_SPLICE_A, 8, 1, .rw, 0, 1, 64⟩
  | .BD_SPLICE_A_W => ⟨.BD_SPLICE_A, 9, 1, .rw, 0, 1, 64⟩
  | .BD_SPLICE_A_SRC_WAFER => ⟨.BD_SPLICE_A, 10, 6, .rw, 0, 1, 64⟩
  | .BD_SPLICE_A_SRC_COIL => ⟨.BD_SPLICE_A, 16, 5, .rw, 0, 1, 64⟩
  | .BD_SPLICE_A_STATUS => ⟨.BD_SPLICE_A, 21, 3, .ro, 0, 1, 64⟩
  | .BD_SPLICE_A_BUSY => ⟨.BD_SPLICE_A, 24, 1, .ro, 0, 1, 64⟩
  | .BD_SPLICE_A_PENDING => ⟨.BD_SPLICE_A, 32, 13, .ro, 0, 1, 64⟩
  | .BD_SPLICE_B_WORD => ⟨.BD_SPLICE_B, 0, 41, .rw, 0, 1, 64⟩
  | .BD_SPLICE_C_WRITE => ⟨.BD_SPLICE_C, 0, 32, .ro, 0, 1, 64⟩
  | .BD_SPLICE_C_DROPPED => ⟨.BD_SPLICE_C, 32, 32, .rc, 0, 1, 64⟩
  | .CL_ID_PORT => ⟨.CL_ID, 0, 3, .ro, 0, 1, 64⟩
  | .CL_ID_CONTROL => ⟨.CL_ID, 3, 1, .ro, 0, 1, 64⟩
  | .CL_STATUS_WAKE_STATE => ⟨.CL_STATUS, 0, 3, .ro, 0, 1, 64⟩
  | .CL_STATUS_STATE_WORD => ⟨.CL_STATUS, 3, 3, .ro, 0, 1, 64⟩
  | .CL_STATUS_IMAGE => ⟨.CL_STATUS, 6, 1, .ro, 0, 1, 64⟩
  | .CL_STATUS_TRIAL => ⟨.CL_STATUS, 7, 1, .ro, 0, 1, 64⟩
  | .CL_STATUS_TEST_MODE => ⟨.CL_STATUS, 8, 2, .ro, 0, 1, 64⟩
  | .CL_TIME_UTC_NS => ⟨.CL_TIME, 0, 64, .ro, 0, 1, 64⟩
  | .CL_TIME_STATUS_SYNC => ⟨.CL_TIME_STATUS, 0, 2, .ro, 0, 1, 64⟩
  | .CL_TIME_STATUS_VALID => ⟨.CL_TIME_STATUS, 2, 1, .ro, 0, 1, 64⟩
  | .CL_TIME_STATUS_REJECTED => ⟨.CL_TIME_STATUS, 16, 16, .rc, 0, 1, 64⟩
  | .CL_BUNDLE_LEN_BYTES => ⟨.CL_BUNDLE_LEN, 0, 24, .ro, 0, 1, 64⟩
  | .CL_GPIO_FUNC => ⟨.CL_GPIO, 0, 4, .rw, 0, 1, 64⟩
  | .CL_GPIO_STATUS => ⟨.CL_GPIO, 4, 2, .ro, 0, 1, 64⟩
  | .CL_GPIO_VIA => ⟨.CL_GPIO, 6, 2, .ro, 0, 1, 64⟩
  | .CL_GPIO_LEVEL => ⟨.CL_GPIO, 8, 1, .ro, 0, 1, 64⟩
  | .CL_GPIO_OUT => ⟨.CL_GPIO, 9, 1, .rw, 1, 1, 64⟩
  | .CL_FENCE_REQ_KIND => ⟨.CL_FENCE_REQ, 0, 3, .rw, 0, 1, 64⟩
  | .CL_FENCE_REQ_UNIT => ⟨.CL_FENCE_REQ, 4, 12, .rw, 0, 1, 64⟩
  | .CL_FENCE_REQ_GO => ⟨.CL_FENCE_REQ, 16, 1, .wo, 0, 1, 64⟩
  | .CL_FENCE_REQ_STATUS => ⟨.CL_FENCE_REQ, 17, 3, .ro, 0, 1, 64⟩
  | .CL_SKV_CMD_COIL => ⟨.CL_SKV_CMD, 0, 5, .rw, 0, 1, 64⟩
  | .CL_SKV_CMD_GO => ⟨.CL_SKV_CMD, 8, 1, .wo, 0, 1, 64⟩
  | .CL_SKV_CMD_BUSY => ⟨.CL_SKV_CMD, 9, 1, .ro, 0, 1, 64⟩
  | .CL_SKV_CMD_STATUS => ⟨.CL_SKV_CMD, 10, 4, .ro, 0, 1, 64⟩
  | .CL_SKV_FILE_DVA => ⟨.CL_SKV_FILE, 0, 48, .rw, 0, 1, 64⟩
  | .CL_SKV_BASE_LOAD_BASE => ⟨.CL_SKV_BASE, 24, 24, .rw, 0, 1, 64⟩
  | .CL_EVT_CTL_ENABLE => ⟨.CL_EVT_CTL, 0, 1, .rw, 0, 1, 64⟩
  | .CL_EVT_CTL_VEC => ⟨.CL_EVT_CTL, 1, 5, .rw, 0, 1, 64⟩
  | .CL_EVT_CTL_THRESHOLD => ⟨.CL_EVT_CTL, 6, 2, .rw, 2, 1, 64⟩
  | .CL_EVT_STATUS_LOST => ⟨.CL_EVT_STATUS, 0, 32, .rc, 0, 1, 64⟩
  | .CL_EVT_STATUS_AVAIL => ⟨.CL_EVT_STATUS, 32, 17, .ro, 0, 1, 64⟩
  | .CL_EVT_POP_GO => ⟨.CL_EVT_POP, 0, 1, .wo, 0, 1, 64⟩
  | .CL_EVT_ENTRY_WORD => ⟨.CL_EVT_ENTRY, 0, 64, .ro, 0, 1, 64⟩
  | .CL_PLOG_SEL_INDEX => ⟨.CL_PLOG_SEL, 0, 12, .rw, 0, 1, 64⟩
  | .CL_PLOG_SEL_COUNT => ⟨.CL_PLOG_SEL, 16, 12, .ro, 0, 1, 64⟩
  | .CL_PLOG_ENTRY_WORD => ⟨.CL_PLOG_ENTRY, 0, 64, .ro, 0, 1, 64⟩

/-- The fields of a register, in the order of its table. -/
def Reg.fields : Reg → List Fld
  | .HT_ID => [.HT_ID_PORT, .HT_ID_ALT, .HT_ID_BAY, .HT_ID_CONTROL]
  | .HT_LINK_STATUS => [.HT_LINK_STATUS_SPEED, .HT_LINK_STATUS_WIDTH, .HT_LINK_STATUS_PROTO, .HT_LINK_STATUS_HDM, .HT_LINK_STATUS_READY, .HT_LINK_STATUS_HOLD, .HT_LINK_STATUS_L0P, .HT_LINK_STATUS_L1]
  | .HT_BAY_WINDOW => [.HT_BAY_WINDOW_BAY]
  | .HT_OUTSTANDING => [.HT_OUTSTANDING_NP, .HT_OUTSTANDING_D2H, .HT_OUTSTANDING_NP_LIMIT]
  | .HT_PM_STATUS => [.HT_PM_STATUS_DSTATE, .HT_PM_STATUS_PME_PENDING, .HT_PM_STATUS_WAKE, .HT_PM_STATUS_WB_BUSY]
  | .HT_FLR_STATUS => [.HT_FLR_STATUS_IN_FLR]
  | .HT_SF_OCCUPANCY => [.HT_SF_OCCUPANCY_LINES, .HT_SF_OCCUPANCY_DIRTY]
  | .HT_VF_BIND => [.HT_VF_BIND_COIL, .HT_VF_BIND_VALID, .HT_VF_BIND_STATUS]
  | .HT_TK_OWNER => [.HT_TK_OWNER_FUNC, .HT_TK_OWNER_VALID, .HT_TK_OWNER_STATUS, .HT_TK_OWNER_COIL]
  | .HT_BIAS_FLIP => [.HT_BIAS_FLIP_FATHOM, .HT_BIAS_FLIP_TO_DEVICE, .HT_BIAS_FLIP_GO, .HT_BIAS_FLIP_STATUS, .HT_BIAS_FLIP_BUSY]
  | .HT_BIAS => [.HT_BIAS_BIAS]
  | .HT_ERR_STATUS => [.HT_ERR_STATUS_SF_CORR, .HT_ERR_STATUS_BUF_CORR, .HT_ERR_STATUS_LINK_DEGRADED, .HT_ERR_STATUS_BUF_UNCORR, .HT_ERR_STATUS_FENCED_HDM, .HT_ERR_STATUS_SF_UNCORR, .HT_ERR_STATUS_D2H_TIMEOUT, .HT_ERR_STATUS_INTERNAL, .HT_ERR_STATUS_VIRAL_RX]
  | .HT_ERR_MASK => [.HT_ERR_MASK_MASK]
  | .HT_ERR_SEVERITY => [.HT_ERR_SEVERITY_SEV, .HT_ERR_SEVERITY_SEV_FIXED]
  | .HT_ERR_FIRST => [.HT_ERR_FIRST_BIT, .HT_ERR_FIRST_VALID, .HT_ERR_FIRST_OVERFLOW]
  | .HT_ERR_HDR_LOG0 => [.HT_ERR_HDR_LOG0_ADDRESS]
  | .HT_ERR_HDR_LOG1 => [.HT_ERR_HDR_LOG1_REQ_ID, .HT_ERR_HDR_LOG1_COIL, .HT_ERR_HDR_LOG1_COIL_VALID, .HT_ERR_HDR_LOG1_SOURCE, .HT_ERR_HDR_LOG1_UNIT]
  | .HT_ERR_HDR_LOG2 => [.HT_ERR_HDR_LOG2_TIME]
  | .HT_ERR_HDR_LOG3 => [.HT_ERR_HDR_LOG3_DETAIL]
  | .HT_ERR_CE_COUNT => [.HT_ERR_CE_COUNT_COUNT]
  | .HT_HOLD_STATUS => [.HT_HOLD_STATUS_HOLD, .HT_HOLD_STATUS_DONE, .HT_HOLD_STATUS_CAUSE, .HT_HOLD_STATUS_RELEASE_STATUS, .HT_HOLD_STATUS_VIRAL_SENT, .HT_HOLD_STATUS_REENTERED, .HT_HOLD_STATUS_LINES_DROPPED]
  | .HT_HOLD_RELEASE => [.HT_HOLD_RELEASE_KEY, .HT_HOLD_RELEASE_GO]
  | .HT_HOLD_COUNT => [.HT_HOLD_COUNT_POSTED_DROPPED, .HT_HOLD_COUNT_NP_UR]
  | .HT_IDE_STATUS => [.HT_IDE_STATUS_LINK_SECURE, .HT_IDE_STATUS_SEL_SECURE, .HT_IDE_STATUS_CXL_SECURE, .HT_IDE_STATUS_CXL_CONTAINMENT]
  | .HT_IDE_CTL => [.HT_IDE_CTL_REQUIRE_IO, .HT_IDE_CTL_REQUIRE_CXL]
  | .NT_CTL => [.NT_CTL_BANK, .NT_CTL_PAUSE, .NT_CTL_ESC_WAIT]
  | .NT_STATUS => [.NT_STATUS_QUIET, .NT_STATUS_HELD]
  | .NT_ESC_ROOT => [.NT_ESC_ROOT_ROOT]
  | .NT_NOTICE_SEQ => [.NT_NOTICE_SEQ_SEQ]
  | .NT_PORT_STATUS => [.NT_PORT_STATUS_UP, .NT_PORT_STATUS_PRESENT]
  | .NT_LEDGER => [.NT_LEDGER_OCC, .NT_LEDGER_TIMEOUTS]
  | .NT_HOLD => [.NT_HOLD_HELD]
  | .NT_CRC_COUNT => [.NT_CRC_COUNT_RETRIES, .NT_CRC_COUNT_DOWN]
  | .NT_ESC_COUNT => [.NT_ESC_COUNT_ESCAPES]
  | .NT_AGE_SAT_COUNT => [.NT_AGE_SAT_COUNT_SATURATED]
  | .NT_PROXY_COUNT => [.NT_PROXY_COUNT_FENCED, .NT_PROXY_COUNT_DISCARDED]
  | .NT_FLITS => [.NT_FLITS_FLITS]
  | .NT_ROUTE => [.NT_ROUTE_VC0_PORT, .NT_ROUTE_ESC_PORT]
  | .SP_STATUS => [.SP_STATUS_USABLE, .SP_STATUS_VAULTS_2X, .SP_STATUS_VAULTS_4X]
  | .SP_GOV => [.SP_GOV_CAPACITY, .SP_GOV_RSV_TOTAL, .SP_GOV_STATE, .SP_GOV_SCALE]
  | .SP_GOV_SEALED => [.SP_GOV_SEALED_SEALED_TOTAL, .SP_GOV_SEALED_PAUSE_Q, .SP_GOV_SEALED_SEALED_COUNT]
  | .SP_SCRUB_CTL => [.SP_SCRUB_CTL_PERIOD, .SP_SCRUB_CTL_ENABLE]
  | .SP_SCRUB_STATUS => [.SP_SCRUB_STATUS_PASSES]
  | .SP_RSV => [.SP_RSV_GBPS, .SP_RSV_STATUS, .SP_RSV_ALLOWED, .SP_RSV_PAUSED]
  | .SP_KEY_CTL => [.SP_KEY_CTL_GENERATE, .SP_KEY_CTL_CLEAR, .SP_KEY_CTL_VALID, .SP_KEY_CTL_STATUS]
  | .SP_STRIPE_CTL => [.SP_STRIPE_CTL_COUNT, .SP_STRIPE_CTL_ACTIVE, .SP_STRIPE_CTL_STATUS]
  | .SP_HDM_STATUS => [.SP_HDM_STATUS_UNMAPPED, .SP_HDM_STATUS_FENCED]
  | .SP_VAULT_OWNER => [.SP_VAULT_OWNER_COIL, .SP_VAULT_OWNER_VALID, .SP_VAULT_OWNER_STATUS]
  | .SP_VAULT_STATUS => [.SP_VAULT_STATUS_STATE, .SP_VAULT_STATUS_REFRESH, .SP_VAULT_STATUS_CE_COUNT, .SP_VAULT_STATUS_SPARES_USED, .SP_VAULT_STATUS_UE_LINES]
  | .SP_STRIPE_LIST => [.SP_STRIPE_LIST_VAULT]
  | .SP_HDM_MAP => [.SP_HDM_MAP_FATHOM, .SP_HDM_MAP_COIL, .SP_HDM_MAP_VALID, .SP_HDM_MAP_STATUS]
  | .DT_STATUS => [.DT_STATUS_WALKERS, .DT_STATUS_ACTIVE, .DT_STATUS_GRANTS]
  | .DT_CTX_ROOT => [.DT_CTX_ROOT_ROOT]
  | .DT_CTX_TBL => [.DT_CTX_TBL_BASE, .DT_CTX_TBL_COUNT]
  | .DT_CTX_CTL => [.DT_CTX_CTL_ENABLE, .DT_CTX_CTL_IRQ_EN, .DT_CTX_CTL_IRQ_VEC, .DT_CTX_CTL_STATUS]
  | .DT_INV_CMD => [.DT_INV_CMD_KIND, .DT_INV_CMD_BASE, .DT_INV_CMD_COUNT]
  | .DT_INV_STATUS => [.DT_INV_STATUS_ISSUED, .DT_INV_STATUS_DONE, .DT_INV_STATUS_STATUS, .DT_INV_STATUS_PENDING]
  | .DT_FAULT_ADDR => [.DT_FAULT_ADDR_DVA]
  | .DT_FAULT_INFO => [.DT_FAULT_INFO_VALID, .DT_FAULT_INFO_KIND, .DT_FAULT_INFO_CAUSE, .DT_FAULT_INFO_ACCESS, .DT_FAULT_INFO_SOURCE, .DT_FAULT_INFO_UNIT, .DT_FAULT_INFO_LEVEL, .DT_FAULT_INFO_COUNT]
  | .DT_SHARE_A => [.DT_SHARE_A_OWNER, .DT_SHARE_A_GRANTEE, .DT_SHARE_A_PERM, .DT_SHARE_A_VALID, .DT_SHARE_A_BUSY, .DT_SHARE_A_STATUS]
  | .DT_SHARE_B => [.DT_SHARE_B_BASE, .DT_SHARE_B_COUNT]
  | .DTW_STATUS => [.DTW_STATUS_ENABLED, .DTW_STATUS_BUSY, .DTW_STATUS_QUEUED]
  | .DTW_HITS => [.DTW_HITS_COUNT]
  | .DTW_MISSES => [.DTW_MISSES_COUNT]
  | .DTW_WALKS => [.DTW_WALKS_COUNT]
  | .DTW_FAULTS => [.DTW_FAULTS_COUNT]
  | .DTW_DROPS => [.DTW_DROPS_COUNT]
  | .PC_STATUS => [.PC_STATUS_WAYS, .PC_STATUS_CARVE_BUSY, .PC_STATUS_MAINT_BUSY, .PC_STATUS_MISS_USED, .PC_STATUS_VICTIM_USED]
  | .PC_CTL => [.PC_CTL_PREFETCH, .PC_CTL_VICTIM]
  | .PC_SCRATCH => [.PC_SCRATCH_WAYS, .PC_SCRATCH_STATUS]
  | .PC_MAINT => [.PC_MAINT_OP, .PC_MAINT_WAY, .PC_MAINT_SET, .PC_MAINT_STATUS]
  | .PC_ECC => [.PC_ECC_CE, .PC_ECC_UE_CLEAN, .PC_ECC_UE_DIRTY]
  | .PC_HITS => [.PC_HITS_COUNT]
  | .PC_MISSES => [.PC_MISSES_COUNT]
  | .PC_VICTIM_HITS => [.PC_VICTIM_HITS_COUNT]
  | .PC_PREFETCHES => [.PC_PREFETCHES_ISSUED, .PC_PREFETCHES_USED]
  | .PC_WRITEBACKS => [.PC_WRITEBACKS_COUNT]
  | .BA_STATUS => [.BA_STATUS_WB_PENDING, .BA_STATUS_SWEEP, .BA_STATUS_PROMOTED]
  | .BA_CTL => [.BA_CTL_FREEZE, .BA_CTL_STARVE_LIMIT]
  | .BA_C2C => [.BA_C2C_COUNT]
  | .BA_HOME_SNOOPS => [.BA_HOME_SNOOPS_COUNT]
  | .BA_TXN => [.BA_TXN_COUNT]
  | .BA_RETRY => [.BA_RETRY_COUNT]
  | .BA_STARVED => [.BA_STARVED_COUNT]
  | .BA_MAXWAIT => [.BA_MAXWAIT_CYCLES]
  | .CR_STATUS => [.CR_STATUS_PSTATE, .CR_STATUS_OP, .CR_STATUS_TASK, .CR_STATUS_COIL, .CR_STATUS_COIL_VALID, .CR_STATUS_REPEATABLE, .CR_STATUS_RIG, .CR_STATUS_FENCED]
  | .CR_TASK => [.CR_TASK_TASK_ID]
  | .CR_FAULT => [.CR_FAULT_CODE, .CR_FAULT_CAUSE, .CR_FAULT_DEFERRED, .CR_FAULT_OVERRUN, .CR_FAULT_VALID, .CR_FAULT_RIG]
  | .CR_FAULT_PC => [.CR_FAULT_PC_PC]
  | .CR_FAULT_ADDR => [.CR_FAULT_ADDR_ADDR]
  | .CR_FAULT_COUNT => [.CR_FAULT_COUNT_COUNT]
  | .CR_RETIRED => [.CR_RETIRED_COUNT]
  | .CR_MMA_BUSY => [.CR_MMA_BUSY_CYCLES]
  | .CR_ENERGY => [.CR_ENERGY_UJ]
  | .CR_WAKES => [.CR_WAKES_FROM_RETAIN, .CR_WAKES_FROM_DARK]
  | .CR_TILE_ECC => [.CR_TILE_ECC_CE, .CR_TILE_ECC_UE]
  | .TK_ENG_STATUS => [.TK_ENG_STATUS_ACTIVE, .TK_ENG_STATUS_R_QUEUE, .TK_ENG_STATUS_COIL, .TK_ENG_STATUS_COIL_VALID]
  | .TK_ENG_BEATS => [.TK_ENG_BEATS_COUNT]
  | .TK_ENG_PREEMPTS => [.TK_ENG_PREEMPTS_COUNT]
  | .TK_CH_CTL => [.TK_CH_CTL_ENABLE, .TK_CH_CTL_PAUSE, .TK_CH_CTL_CLASS, .TK_CH_CTL_PRIO, .TK_CH_CTL_IRQ_EN, .TK_CH_CTL_IRQ_VEC, .TK_CH_CTL_WATCH, .TK_CH_CTL_STATUS]
  | .TK_CH_RING => [.TK_CH_RING_BASE, .TK_CH_RING_LOG2]
  | .TK_CH_TAIL => [.TK_CH_TAIL_TAIL, .TK_CH_TAIL_STATUS]
  | .TK_CH_DONE => [.TK_CH_DONE_DONE]
  | .TK_CH_WATCH => [.TK_CH_WATCH_ADDR]
  | .TK_CH_STATUS => [.TK_CH_STATUS_STATE, .TK_CH_STATUS_HALT_REASON, .TK_CH_STATUS_EOC]
  | .TK_CH_PROGRESS => [.TK_CH_PROGRESS_ROW, .TK_CH_PROGRESS_OFFSET]
  | .TK_CH_CUR_SRC => [.TK_CH_CUR_SRC_ADDR]
  | .TK_CH_CUR_DST => [.TK_CH_CUR_DST_ADDR]
  | .TK_CH_STAGE => [.TK_CH_STAGE_STAGED, .TK_CH_STAGE_IN_FLIGHT]
  | .TK_CH_FAULT => [.TK_CH_FAULT_ADDR]
  | .TK_CH_BAD => [.TK_CH_BAD_COUNT]
  | .TK_CH_BYTES => [.TK_CH_BYTES_COUNT]
  | .CP_STATUS => [.CP_STATUS_INFLIGHT, .CP_STATUS_READY, .CP_STATUS_WAITING]
  | .CP_POWER => [.CP_POWER_E_W, .CP_POWER_ALLOW_W, .CP_POWER_PMEAS_W, .CP_POWER_NONBAY_W]
  | .CP_TICK => [.CP_TICK_TICKS]
  | .CP_PARK => [.CP_PARK_CLK_US, .CP_PARK_DARK_MS]
  | .CP_LOSS => [.CP_LOSS_LOST, .CP_LOSS_REDISPATCHED]
  | .CP_BAY => [.CP_BAY_GIVE, .CP_BAY_HEADROOM, .CP_BAY_QUEUED]
  | .CP_COIL_ADMIN => [.CP_COIL_ADMIN_STATE, .CP_COIL_ADMIN_HOME, .CP_COIL_ADMIN_HOME_VALID, .CP_COIL_ADMIN_REPEATABLE, .CP_COIL_ADMIN_CMD, .CP_COIL_ADMIN_STATUS, .CP_COIL_ADMIN_DESTROY_BUSY]
  | .CP_PLY_OWNER => [.CP_PLY_OWNER_COIL, .CP_PLY_OWNER_VALID, .CP_PLY_OWNER_CLEARING, .CP_PLY_OWNER_STATUS]
  | .CP_COIL_CTL => [.CP_COIL_CTL_SKFLUSH, .CP_COIL_CTL_QUIESCED, .CP_COIL_CTL_PAUSED, .CP_COIL_CTL_FIXED_OP, .CP_COIL_CTL_REDISPATCH_MAX, .CP_COIL_CTL_INFLIGHT_MAX]
  | .CP_COIL_POWER => [.CP_COIL_POWER_SHARE_W, .CP_COIL_POWER_STATUS]
  | .CP_COIL_LIMIT => [.CP_COIL_LIMIT_DEFAULT_US]
  | .CP_COIL_SKDIR => [.CP_COIL_SKDIR_BASE, .CP_COIL_SKDIR_VALID]
  | .CP_COIL_KNOTS => [.CP_COIL_KNOTS_BASE, .CP_COIL_KNOTS_LOG2, .CP_COIL_KNOTS_STATUS]
  | .CP_KNOT_CMD => [.CP_KNOT_CMD_KNOT, .CP_KNOT_CMD_OP, .CP_KNOT_CMD_COUNT]
  | .CP_CANCEL => [.CP_CANCEL_TASK_ID]
  | .CP_CMD_STATUS => [.CP_CMD_STATUS_KNOT_STATUS, .CP_CMD_STATUS_CANCEL_STATUS, .CP_CMD_STATUS_ARMED, .CP_CMD_STATUS_MARK, .CP_CMD_STATUS_VALUE]
  | .CP_COIL_COUNT => [.CP_COIL_COUNT_INFLIGHT, .CP_COIL_COUNT_READY, .CP_COIL_COUNT_RUNNING]
  | .CP_COIL_DROPS => [.CP_COIL_DROPS_REJECTED, .CP_COIL_DROPS_DISCARDED]
  | .CP_COIL_ENERGY => [.CP_COIL_ENERGY_UJ]
  | .CP_COIL_RUN => [.CP_COIL_RUN_QUIESCE, .CP_COIL_RUN_RESUME, .CP_COIL_RUN_RESET, .CP_COIL_RUN_RESETTING, .CP_COIL_RUN_STATUS]
  | .CP_SRING_CFG => [.CP_SRING_CFG_BASE, .CP_SRING_CFG_LOG2, .CP_SRING_CFG_ENABLE, .CP_SRING_CFG_SPAWN, .CP_SRING_CFG_STATUS]
  | .CP_SRING_PTR => [.CP_SRING_PTR_TAIL, .CP_SRING_PTR_HEAD]
  | .CP_SRING_FAULT => [.CP_SRING_FAULT_HALTED, .CP_SRING_FAULT_REASON, .CP_SRING_FAULT_IGNORED]
  | .CP_CRING_CFG => [.CP_CRING_CFG_BASE, .CP_CRING_CFG_LOG2, .CP_CRING_CFG_ENABLE, .CP_CRING_CFG_IRQ_EN, .CP_CRING_CFG_VEC]
  | .CP_CRING_PTR => [.CP_CRING_PTR_WRITE, .CP_CRING_PTR_HEAD]
  | .CP_CRING_MOD => [.CP_CRING_MOD_MODERATE_US, .CP_CRING_MOD_STATUS, .CP_CRING_MOD_HELD, .CP_CRING_MOD_IGNORED]
  | .CPW_STATUS => [.CPW_STATUS_PLL, .CPW_STATUS_RUNNING, .CPW_STATUS_HOT, .CPW_STATUS_TBAY, .CPW_STATUS_QUEUED, .CPW_STATUS_BALANCE]
  | .CPW_OPCOST => [.CPW_OPCOST_COST]
  | .CPW_ENERGY => [.CPW_ENERGY_IDLE, .CPW_ENERGY_USED]
  | .CPW_DISPATCH => [.CPW_DISPATCH_COUNT, .CPW_DISPATCH_OVERSPEND]
  | .CPW_CORE => [.CPW_CORE_CEILING, .CPW_CORE_POINT, .CPW_CORE_BUSY, .CPW_CORE_TJ]
  | .BD_CTL => [.BD_CTL_ENABLE, .BD_CTL_WAFER_ID, .BD_CTL_SYSTEM_ID, .BD_CTL_MAX_WIDTH, .BD_CTL_DATELINE, .BD_CTL_LOOPBACK, .BD_CTL_STATUS]
  | .BD_STATUS => [.BD_STATUS_STATE, .BD_STATUS_WIDTH, .BD_STATUS_CAGES, .BD_STATUS_PEER_WAFER, .BD_STATUS_PEER_PORT, .BD_STATUS_REPLAYING, .BD_STATUS_LANES]
  | .BD_ERR => [.BD_ERR_FEC_UNCORR, .BD_ERR_CRC_FAIL, .BD_ERR_REPLAYS, .BD_ERR_RECOVERIES, .BD_ERR_TIMEOUTS]
  | .BD_FEC_CE => [.BD_FEC_CE_SYMBOLS]
  | .BD_OUTSTANDING => [.BD_OUTSTANDING_REQ, .BD_OUTSTANDING_PENDING]
  | .BD_RETRAIN => [.BD_RETRAIN_GO]
  | .BD_ROUTE => [.BD_ROUTE_PORT, .BD_ROUTE_VALID, .BD_ROUTE_CLASS_RESET]
  | .BD_WIN => [.BD_WIN_COIL, .BD_WIN_OPEN, .BD_WIN_DST_WAFER, .BD_WIN_DST_PORT, .BD_WIN_ENTRY, .BD_WIN_KIND, .BD_WIN_FATHOMS, .BD_WIN_BUSY, .BD_WIN_STATUS, .BD_WIN_OUTSTANDING]
  | .BD_SPLICE_A => [.BD_SPLICE_A_COIL, .BD_SPLICE_A_VALID, .BD_SPLICE_A_KIND, .BD_SPLICE_A_R, .BD_SPLICE_A_W, .BD_SPLICE_A_SRC_WAFER, .BD_SPLICE_A_SRC_COIL, .BD_SPLICE_A_STATUS, .BD_SPLICE_A_BUSY, .BD_SPLICE_A_PENDING]
  | .BD_SPLICE_B => [.BD_SPLICE_B_WORD]
  | .BD_SPLICE_C => [.BD_SPLICE_C_WRITE, .BD_SPLICE_C_DROPPED]
  | .CL_ID => [.CL_ID_PORT, .CL_ID_CONTROL]
  | .CL_STATUS => [.CL_STATUS_WAKE_STATE, .CL_STATUS_STATE_WORD, .CL_STATUS_IMAGE, .CL_STATUS_TRIAL, .CL_STATUS_TEST_MODE]
  | .CL_TIME => [.CL_TIME_UTC_NS]
  | .CL_TIME_STATUS => [.CL_TIME_STATUS_SYNC, .CL_TIME_STATUS_VALID, .CL_TIME_STATUS_REJECTED]
  | .CL_CAPACITY => [.CL_CAPACITY_CORES, .CL_CAPACITY_VAULTS, .CL_CAPACITY_ROUTERS, .CL_CAPACITY_BELOW_RATED, .CL_CAPACITY_FENCE_GEN]
  | .CL_BUNDLE_LEN => [.CL_BUNDLE_LEN_BYTES]
  | .CL_FENCE_REQ => [.CL_FENCE_REQ_KIND, .CL_FENCE_REQ_UNIT, .CL_FENCE_REQ_GO, .CL_FENCE_REQ_STATUS]
  | .CL_SKV_CMD => [.CL_SKV_CMD_COIL, .CL_SKV_CMD_GO, .CL_SKV_CMD_BUSY, .CL_SKV_CMD_STATUS]
  | .CL_SKV_FILE => [.CL_SKV_FILE_DVA]
  | .CL_SKV_BASE => [.CL_SKV_BASE_LOAD_BASE]
  | .CL_EVT_CTL => [.CL_EVT_CTL_ENABLE, .CL_EVT_CTL_VEC, .CL_EVT_CTL_THRESHOLD]
  | .CL_EVT_STATUS => [.CL_EVT_STATUS_LOST, .CL_EVT_STATUS_AVAIL]
  | .CL_EVT_POP => [.CL_EVT_POP_GO]
  | .CL_PLOG_SEL => [.CL_PLOG_SEL_INDEX, .CL_PLOG_SEL_COUNT]
  | .CL_GPIO => [.CL_GPIO_FUNC, .CL_GPIO_STATUS, .CL_GPIO_VIA, .CL_GPIO_LEVEL, .CL_GPIO_OUT]
  | .CL_EVT_ENTRY => [.CL_EVT_ENTRY_WORD]
  | .CL_PLOG_ENTRY => [.CL_PLOG_ENTRY_WORD]

/-- The position of a field among all, the low part of its key in the store of fields. -/
def Fld.num (f : Fld) : Nat := f.ctorIdx

/-- A row of a register map: the register, the register-space offset of its first instance, the counts and
strides of its instances, and the number of the first instance. -/
structure RegRow where
  reg : Reg
  base : Nat
  dims : List (Nat × Nat)
  first : Nat := 0
  deriving DecidableEq, Repr

/-- The register maps over register space (Tables 24.2 and 24.3 and each block's own map). The instances of a
register with several dimensions are numbered with the last dimension running fastest, so that a core is
bay × 32 + j (R22), a ply bay × 4 + ply, a ply Tackle channel ply × 32 + j and a port channel
12,288 + port × 64 + j. -/
def regRows : List RegRow :=
  [⟨.HT_ID, 0x2000000, [(8, 0x100000)], 0⟩,
   ⟨.HT_LINK_STATUS, 0x2000008, [(8, 0x100000)], 0⟩,
   ⟨.HT_BAY_WINDOW, 0x2000010, [(8, 0x100000)], 0⟩,
   ⟨.HT_OUTSTANDING, 0x2000018, [(8, 0x100000)], 0⟩,
   ⟨.HT_PM_STATUS, 0x2000020, [(8, 0x100000)], 0⟩,
   ⟨.HT_FLR_STATUS, 0x2000028, [(8, 0x100000)], 0⟩,
   ⟨.HT_SF_OCCUPANCY, 0x2000030, [(8, 0x100000)], 0⟩,
   ⟨.HT_VF_BIND, 0x2000100, [(8, 0x100000), (32, 0x8)], 0⟩,
   ⟨.HT_TK_OWNER, 0x2000200, [(8, 0x100000), (64, 0x8)], 0⟩,
   ⟨.HT_BIAS_FLIP, 0x2000400, [(8, 0x100000)], 0⟩,
   ⟨.HT_BIAS, 0x2001000, [(8, 0x100000), (512, 0x4)], 0⟩,
   ⟨.HT_ERR_STATUS, 0x2004000, [(8, 0x100000)], 0⟩,
   ⟨.HT_ERR_MASK, 0x2004008, [(8, 0x100000)], 0⟩,
   ⟨.HT_ERR_SEVERITY, 0x2004010, [(8, 0x100000)], 0⟩,
   ⟨.HT_ERR_FIRST, 0x2004018, [(8, 0x100000)], 0⟩,
   ⟨.HT_ERR_HDR_LOG0, 0x2004020, [(8, 0x100000)], 0⟩,
   ⟨.HT_ERR_HDR_LOG1, 0x2004028, [(8, 0x100000)], 0⟩,
   ⟨.HT_ERR_HDR_LOG2, 0x2004030, [(8, 0x100000)], 0⟩,
   ⟨.HT_ERR_HDR_LOG3, 0x2004038, [(8, 0x100000)], 0⟩,
   ⟨.HT_ERR_CE_COUNT, 0x2004040, [(8, 0x100000)], 0⟩] ++
  [⟨.HT_HOLD_STATUS, 0x2004080, [(8, 0x100000)], 0⟩,
   ⟨.HT_HOLD_RELEASE, 0x2004088, [(8, 0x100000)], 0⟩,
   ⟨.HT_HOLD_COUNT, 0x2004090, [(8, 0x100000)], 0⟩,
   ⟨.HT_IDE_STATUS, 0x2004100, [(8, 0x100000)], 0⟩,
   ⟨.HT_IDE_CTL, 0x2004108, [(8, 0x100000)], 0⟩,
   ⟨.NT_CTL, 0x6000000, [], 0⟩,
   ⟨.NT_STATUS, 0x6000008, [], 0⟩,
   ⟨.NT_ESC_ROOT, 0x6000010, [], 0⟩,
   ⟨.NT_NOTICE_SEQ, 0x6000018, [], 0⟩,
   ⟨.NT_PORT_STATUS, 0x6100000, [(96, 0x10000)], 0⟩,
   ⟨.NT_LEDGER, 0x6100008, [(96, 0x10000)], 0⟩,
   ⟨.NT_HOLD, 0x6100010, [(96, 0x10000)], 0⟩,
   ⟨.NT_CRC_COUNT, 0x6100018, [(96, 0x10000)], 0⟩,
   ⟨.NT_ESC_COUNT, 0x6100020, [(96, 0x10000)], 0⟩,
   ⟨.NT_AGE_SAT_COUNT, 0x6100028, [(96, 0x10000)], 0⟩,
   ⟨.NT_PROXY_COUNT, 0x6100030, [(96, 0x10000)], 0⟩,
   ⟨.NT_FLITS, 0x6100100, [(96, 0x10000), (7, 0x8)], 0⟩,
   ⟨.NT_ROUTE, 0x6101000, [(96, 0x10000), (2, 0x100), (12, 0x8)], 0⟩,
   ⟨.SP_STATUS, 0x5000000, [], 0⟩,
   ⟨.SP_GOV, 0x5000008, [], 0⟩] ++
  [⟨.SP_GOV_SEALED, 0x5000010, [], 0⟩,
   ⟨.SP_SCRUB_CTL, 0x5000018, [], 0⟩,
   ⟨.SP_SCRUB_STATUS, 0x5000020, [], 0⟩,
   ⟨.SP_RSV, 0x5000100, [(32, 0x8)], 0⟩,
   ⟨.SP_KEY_CTL, 0x5000200, [(32, 0x8)], 0⟩,
   ⟨.SP_STRIPE_CTL, 0x5000400, [(32, 0x8)], 0⟩,
   ⟨.SP_HDM_STATUS, 0x5000800, [(8, 0x8)], 0⟩,
   ⟨.SP_VAULT_OWNER, 0x5010000, [(3072, 0x8)], 0⟩,
   ⟨.SP_VAULT_STATUS, 0x5020000, [(3072, 0x8)], 0⟩,
   ⟨.SP_STRIPE_LIST, 0x5040000, [(32, 0x2000), (768, 0x8)], 0⟩,
   ⟨.SP_HDM_MAP, 0x5100000, [(8, 0x20000), (16384, 0x8)], 0⟩,
   ⟨.DT_STATUS, 0x4000000, [], 0⟩,
   ⟨.DT_CTX_ROOT, 0x4001000, [(32, 0x100)], 0⟩,
   ⟨.DT_CTX_TBL, 0x4001008, [(32, 0x100)], 0⟩,
   ⟨.DT_CTX_CTL, 0x4001010, [(32, 0x100)], 0⟩,
   ⟨.DT_INV_CMD, 0x4001018, [(32, 0x100)], 0⟩,
   ⟨.DT_INV_STATUS, 0x4001020, [(32, 0x100)], 0⟩,
   ⟨.DT_FAULT_ADDR, 0x4001028, [(32, 0x100)], 0⟩,
   ⟨.DT_FAULT_INFO, 0x4001030, [(32, 0x100)], 0⟩,
   ⟨.DT_SHARE_A, 0x4004000, [(256, 0x10)], 0⟩] ++
  [⟨.DT_SHARE_B, 0x4004008, [(256, 0x10)], 0⟩,
   ⟨.DTW_STATUS, 0x10300000, [(96, 0x1000000)], 0⟩,
   ⟨.DTW_HITS, 0x10300008, [(96, 0x1000000)], 0⟩,
   ⟨.DTW_MISSES, 0x10300010, [(96, 0x1000000)], 0⟩,
   ⟨.DTW_WALKS, 0x10300018, [(96, 0x1000000)], 0⟩,
   ⟨.DTW_FAULTS, 0x10300020, [(96, 0x1000000)], 0⟩,
   ⟨.DTW_DROPS, 0x10300028, [(96, 0x1000000)], 0⟩,
   ⟨.PC_STATUS, 0x10500000, [(96, 0x1000000), (4, 0x10000)], 0⟩,
   ⟨.PC_CTL, 0x10500008, [(96, 0x1000000), (4, 0x10000)], 0⟩,
   ⟨.PC_SCRATCH, 0x10500010, [(96, 0x1000000), (4, 0x10000)], 0⟩,
   ⟨.PC_MAINT, 0x10500018, [(96, 0x1000000), (4, 0x10000)], 0⟩,
   ⟨.PC_ECC, 0x10500020, [(96, 0x1000000), (4, 0x10000)], 0⟩,
   ⟨.PC_HITS, 0x10500100, [(96, 0x1000000), (4, 0x10000)], 0⟩,
   ⟨.PC_MISSES, 0x10500108, [(96, 0x1000000), (4, 0x10000)], 0⟩,
   ⟨.PC_VICTIM_HITS, 0x10500110, [(96, 0x1000000), (4, 0x10000)], 0⟩,
   ⟨.PC_PREFETCHES, 0x10500118, [(96, 0x1000000), (4, 0x10000)], 0⟩,
   ⟨.PC_WRITEBACKS, 0x10500120, [(96, 0x1000000), (4, 0x10000)], 0⟩,
   ⟨.BA_STATUS, 0x10200000, [(96, 0x1000000)], 0⟩,
   ⟨.BA_CTL, 0x10200008, [(96, 0x1000000)], 0⟩,
   ⟨.BA_C2C, 0x10200200, [(96, 0x1000000)], 0⟩] ++
  [⟨.BA_HOME_SNOOPS, 0x10200208, [(96, 0x1000000)], 0⟩,
   ⟨.BA_TXN, 0x10200100, [(96, 0x1000000), (4, 0x20)], 0⟩,
   ⟨.BA_RETRY, 0x10200108, [(96, 0x1000000), (4, 0x20)], 0⟩,
   ⟨.BA_STARVED, 0x10200110, [(96, 0x1000000), (4, 0x20)], 0⟩,
   ⟨.BA_MAXWAIT, 0x10200118, [(96, 0x1000000), (4, 0x20)], 0⟩,
   ⟨.CR_STATUS, 0x10800000, [(96, 0x1000000), (32, 0x10000)], 0⟩,
   ⟨.CR_TASK, 0x10800008, [(96, 0x1000000), (32, 0x10000)], 0⟩,
   ⟨.CR_FAULT, 0x10800010, [(96, 0x1000000), (32, 0x10000)], 0⟩,
   ⟨.CR_FAULT_PC, 0x10800018, [(96, 0x1000000), (32, 0x10000)], 0⟩,
   ⟨.CR_FAULT_ADDR, 0x10800020, [(96, 0x1000000), (32, 0x10000)], 0⟩,
   ⟨.CR_FAULT_COUNT, 0x10800028, [(96, 0x1000000), (32, 0x10000)], 0⟩,
   ⟨.CR_RETIRED, 0x10800100, [(96, 0x1000000), (32, 0x10000)], 0⟩,
   ⟨.CR_MMA_BUSY, 0x10800108, [(96, 0x1000000), (32, 0x10000)], 0⟩,
   ⟨.CR_ENERGY, 0x10800110, [(96, 0x1000000), (32, 0x10000)], 0⟩,
   ⟨.CR_WAKES, 0x10800118, [(96, 0x1000000), (32, 0x10000)], 0⟩,
   ⟨.CR_TILE_ECC, 0x10800120, [(96, 0x1000000), (32, 0x10000)], 0⟩,
   ⟨.TK_ENG_STATUS, 0x10400000, [(96, 0x1000000), (4, 0x10000)], 0⟩,
   ⟨.TK_ENG_BEATS, 0x10400008, [(96, 0x1000000), (4, 0x10000)], 0⟩,
   ⟨.TK_ENG_PREEMPTS, 0x10400010, [(96, 0x1000000), (4, 0x10000)], 0⟩,
   ⟨.TK_CH_CTL, 0x10401000, [(96, 0x1000000), (4, 0x10000), (32, 0x400)], 0⟩] ++
  [⟨.TK_CH_CTL, 0x2080000, [(8, 0x100000), (64, 0x400)], 12288⟩,
   ⟨.TK_CH_RING, 0x10401008, [(96, 0x1000000), (4, 0x10000), (32, 0x400)], 0⟩,
   ⟨.TK_CH_RING, 0x2080008, [(8, 0x100000), (64, 0x400)], 12288⟩,
   ⟨.TK_CH_TAIL, 0x10401010, [(96, 0x1000000), (4, 0x10000), (32, 0x400)], 0⟩,
   ⟨.TK_CH_TAIL, 0x2080010, [(8, 0x100000), (64, 0x400)], 12288⟩,
   ⟨.TK_CH_DONE, 0x10401018, [(96, 0x1000000), (4, 0x10000), (32, 0x400)], 0⟩,
   ⟨.TK_CH_DONE, 0x2080018, [(8, 0x100000), (64, 0x400)], 12288⟩,
   ⟨.TK_CH_WATCH, 0x10401020, [(96, 0x1000000), (4, 0x10000), (32, 0x400)], 0⟩,
   ⟨.TK_CH_WATCH, 0x2080020, [(8, 0x100000), (64, 0x400)], 12288⟩,
   ⟨.TK_CH_STATUS, 0x10401028, [(96, 0x1000000), (4, 0x10000), (32, 0x400)], 0⟩,
   ⟨.TK_CH_STATUS, 0x2080028, [(8, 0x100000), (64, 0x400)], 12288⟩,
   ⟨.TK_CH_PROGRESS, 0x10401030, [(96, 0x1000000), (4, 0x10000), (32, 0x400)], 0⟩,
   ⟨.TK_CH_PROGRESS, 0x2080030, [(8, 0x100000), (64, 0x400)], 12288⟩,
   ⟨.TK_CH_CUR_SRC, 0x10401038, [(96, 0x1000000), (4, 0x10000), (32, 0x400)], 0⟩,
   ⟨.TK_CH_CUR_SRC, 0x2080038, [(8, 0x100000), (64, 0x400)], 12288⟩,
   ⟨.TK_CH_CUR_DST, 0x10401040, [(96, 0x1000000), (4, 0x10000), (32, 0x400)], 0⟩,
   ⟨.TK_CH_CUR_DST, 0x2080040, [(8, 0x100000), (64, 0x400)], 12288⟩,
   ⟨.TK_CH_STAGE, 0x10401048, [(96, 0x1000000), (4, 0x10000), (32, 0x400)], 0⟩,
   ⟨.TK_CH_STAGE, 0x2080048, [(8, 0x100000), (64, 0x400)], 12288⟩,
   ⟨.TK_CH_FAULT, 0x10401050, [(96, 0x1000000), (4, 0x10000), (32, 0x400)], 0⟩] ++
  [⟨.TK_CH_FAULT, 0x2080050, [(8, 0x100000), (64, 0x400)], 12288⟩,
   ⟨.TK_CH_BAD, 0x10401058, [(96, 0x1000000), (4, 0x10000), (32, 0x400)], 0⟩,
   ⟨.TK_CH_BAD, 0x2080058, [(8, 0x100000), (64, 0x400)], 12288⟩,
   ⟨.TK_CH_BYTES, 0x10401060, [(96, 0x1000000), (4, 0x10000), (32, 0x400)], 0⟩,
   ⟨.TK_CH_BYTES, 0x2080060, [(8, 0x100000), (64, 0x400)], 12288⟩,
   ⟨.CP_STATUS, 0x1000000, [], 0⟩,
   ⟨.CP_POWER, 0x1000008, [], 0⟩,
   ⟨.CP_TICK, 0x1000010, [], 0⟩,
   ⟨.CP_PARK, 0x1000018, [], 0⟩,
   ⟨.CP_LOSS, 0x1000020, [], 0⟩,
   ⟨.CP_BAY, 0x1000100, [(96, 0x8)], 0⟩,
   ⟨.CP_COIL_ADMIN, 0x1000400, [(32, 0x8)], 0⟩,
   ⟨.CP_PLY_OWNER, 0x1001000, [(384, 0x8)], 0⟩,
   ⟨.CP_COIL_CTL, 0x1100000, [(32, 0x4000)], 0⟩,
   ⟨.CP_COIL_POWER, 0x1100008, [(32, 0x4000)], 0⟩,
   ⟨.CP_COIL_LIMIT, 0x1100010, [(32, 0x4000)], 0⟩,
   ⟨.CP_COIL_SKDIR, 0x1100018, [(32, 0x4000)], 0⟩,
   ⟨.CP_COIL_KNOTS, 0x1100020, [(32, 0x4000)], 0⟩,
   ⟨.CP_KNOT_CMD, 0x1100028, [(32, 0x4000)], 0⟩,
   ⟨.CP_CANCEL, 0x1100030, [(32, 0x4000)], 0⟩] ++
  [⟨.CP_CMD_STATUS, 0x1100038, [(32, 0x4000)], 0⟩,
   ⟨.CP_COIL_COUNT, 0x1100040, [(32, 0x4000)], 0⟩,
   ⟨.CP_COIL_DROPS, 0x1100048, [(32, 0x4000)], 0⟩,
   ⟨.CP_COIL_ENERGY, 0x1100050, [(32, 0x4000)], 0⟩,
   ⟨.CP_COIL_RUN, 0x1100058, [(32, 0x4000)], 0⟩,
   ⟨.CP_SRING_CFG, 0x1101000, [(32, 0x4000), (64, 0x20)], 0⟩,
   ⟨.CP_SRING_PTR, 0x1101008, [(32, 0x4000), (64, 0x20)], 0⟩,
   ⟨.CP_SRING_FAULT, 0x1101010, [(32, 0x4000), (64, 0x20)], 0⟩,
   ⟨.CP_CRING_CFG, 0x1102000, [(32, 0x4000), (64, 0x20)], 0⟩,
   ⟨.CP_CRING_PTR, 0x1102008, [(32, 0x4000), (64, 0x20)], 0⟩,
   ⟨.CP_CRING_MOD, 0x1102010, [(32, 0x4000), (64, 0x20)], 0⟩,
   ⟨.CPW_STATUS, 0x10100000, [(96, 0x1000000)], 0⟩,
   ⟨.CPW_OPCOST, 0x10100008, [(96, 0x1000000)], 0⟩,
   ⟨.CPW_ENERGY, 0x10100010, [(96, 0x1000000)], 0⟩,
   ⟨.CPW_DISPATCH, 0x10100018, [(96, 0x1000000)], 0⟩,
   ⟨.CPW_CORE, 0x10100100, [(96, 0x1000000), (32, 0x8)], 0⟩,
   ⟨.BD_CTL, 0x3000000, [(6, 0x100000)], 0⟩,
   ⟨.BD_STATUS, 0x3000008, [(6, 0x100000)], 0⟩,
   ⟨.BD_ERR, 0x3000010, [(6, 0x100000)], 0⟩,
   ⟨.BD_FEC_CE, 0x3000018, [(6, 0x100000)], 0⟩] ++
  [⟨.BD_OUTSTANDING, 0x3000020, [(6, 0x100000)], 0⟩,
   ⟨.BD_RETRAIN, 0x3000028, [(6, 0x100000)], 0⟩,
   ⟨.BD_ROUTE, 0x3000100, [(6, 0x100000), (64, 0x8)], 0⟩,
   ⟨.BD_WIN, 0x3001000, [(6, 0x100000), (256, 0x8)], 0⟩,
   ⟨.BD_SPLICE_A, 0x3002000, [(6, 0x100000), (256, 0x20)], 0⟩,
   ⟨.BD_SPLICE_B, 0x3002008, [(6, 0x100000), (256, 0x20)], 0⟩,
   ⟨.BD_SPLICE_C, 0x3002010, [(6, 0x100000), (256, 0x20)], 0⟩,
   ⟨.CL_ID, 0x0, [], 0⟩,
   ⟨.CL_STATUS, 0x8, [], 0⟩,
   ⟨.CL_TIME, 0x10, [], 0⟩,
   ⟨.CL_TIME_STATUS, 0x18, [], 0⟩,
   ⟨.CL_CAPACITY, 0x20, [], 0⟩,
   ⟨.CL_BUNDLE_LEN, 0x28, [], 0⟩,
   ⟨.CL_FENCE_REQ, 0x200, [], 0⟩,
   ⟨.CL_SKV_CMD, 0x300, [], 0⟩,
   ⟨.CL_SKV_FILE, 0x308, [], 0⟩,
   ⟨.CL_SKV_BASE, 0x310, [], 0⟩,
   ⟨.CL_EVT_CTL, 0x1000, [], 0⟩,
   ⟨.CL_EVT_STATUS, 0x1008, [], 0⟩,
   ⟨.CL_EVT_POP, 0x1010, [], 0⟩] ++
  [⟨.CL_PLOG_SEL, 0x1100, [], 0⟩,
   ⟨.CL_GPIO, 0x100, [(4, 0x8)], 0⟩,
   ⟨.CL_EVT_ENTRY, 0x1040, [(8, 0x8)], 0⟩,
   ⟨.CL_PLOG_ENTRY, 0x1140, [(8, 0x8)], 0⟩]

/-- The instance number that an offset from a register's first instance names, if any. -/
def instanceOf : List (Nat × Nat) → Nat → Option Nat
  | [], a => if a < 8 then some 0 else none
  | (n, s) :: ds, a =>
    if a / s < n then
      (instanceOf ds (a % s)).map (fun i => (a / s) * (ds.map (·.1)).foldl (· * ·) 1 + i)
    else none

/-- The register and instance whose eight bytes hold a register-space offset; `none` at a reserved offset
(R777). -/
def regAt (x : Nat) : Option (Reg × Nat) :=
  regRows.findSome? (fun r =>
    if r.base ≤ x then (instanceOf r.dims (x - r.base)).map (fun i => (r.reg, r.first + i)) else none)

end Sys2Proof.Machine
end

