-- ==== Sys2Proof/Machine/State.lean ====
section
/-!
DEFINITION. The state of the W20 as plain data. Register fields have one home each, the store `regs`, keyed by field and
instance; everything else the spec gives a unit stands in a record of that unit, and the records of numbered
units are sparse stores whose unlisted places hold the record's default, the value after reset.
-/
namespace Sys2Proof.Machine

/-! ### Module, pins and wake (chapters 2 and 3) -/

/-- WAKE_STATE (Table 3.1, Table 23.6). -/
inductive WakeState where
  | off | boot | test | train | ready | recovery | failed
  deriving DecidableEq, Repr

/-- The state word of the status plate (R72). -/
inductive StateWord where
  | waking | live | degraded | tripped | safeToRemove
  deriving DecidableEq, Repr

/-- The self-test modes (R80). -/
inductive TestMode where
  | quick | once | always
  deriving DecidableEq, Repr

/-- The states of the IEEE 1149.1 test access port controller (R53). -/
inductive TapState where
  | testLogicReset | runTestIdle | selectDr | captureDr | shiftDr | exit1Dr | pauseDr | exit2Dr | updateDr
  | selectIr | captureIr | shiftIr | exit1Ir | pauseIr | exit2Ir | updateIr
  deriving DecidableEq, Repr

/-- The management pins the model drives or senses as levels (Table 2.4). `perst` and `gpioIn` list pins whose level
differs from the pulled level: PERST_Nn asserted, GPIOn high. -/
structure Pins where
  aoEn : Bool := false
  perst : SMap Bool := []
  locateN : Bool := true
  gpioIn : SMap Bool := []
  deriving DecidableEq, Repr

/-- What the module drives on its open-drain management pins, its locate indicator and TDO: `Low` means pulled low,
otherwise released (R48, R52, R62, R64, R754). -/
structure Outputs where
  smbAlertLow : Bool := false
  wakeLow : Bool := false
  locate : Bool := false
  gpioLow : List Bool := [false, false, false, false]
  tdoDriven : Bool := false
  deriving DecidableEq, Repr

/-- The module: the always-on domain, the wake in progress and what it chose. -/
structure Module where
  pins : Pins := {}
  aoOn : Bool := false
  inputBad : Bool := false
  tripped : Option Nat := none
  railsOn : Bool := false
  wakeStep : Nat := 0
  rated : Bool := false
  full : Bool := false
  wakeState : WakeState := .off
  wakeCount : Nat := 0
  controlPort : Nat := 0
  tap : TapState := .testLogicReset
  step7 : List UnitRef := []
  rigLoaded : Bool := false
  rigTable : List Byte := []
  deriving DecidableEq, Repr

/-! ### Event log (chapter 19) -/

/-- The classes of events (R648). -/
inductive EvClass where
  | info | warning | fatal | maintenance
  deriving DecidableEq, Repr

/-- One event entry (Table 19.4) without its CRC, which is a function of the rest. -/
structure Event where
  wake : Nat := 0
  index : Nat := 0
  time : Nat := 0
  code : Nat := 0
  cls : EvClass := .info
  coil : Option Nat := none
  kind : UnitKind := .none
  unit : Nat := 0
  count : Nat := 1
  data0 : Nat := 0
  data1 : Nat := 0
  data2 : Nat := 0
  data3 : Nat := 0
  deriving DecidableEq, Repr

/-- An appended entry with the home port of its coil at that moment (R651). -/
structure LogEntry where
  ev : Event := {}
  home : Option Nat := none
  deriving DecidableEq, Repr

/-- An entry of the persistent log with its acknowledgement (R654): the wake count at which it was acknowledged. -/
structure PlogEntry where
  entry : LogEntry := {}
  acked : Option Nat := none
  deriving DecidableEq, Repr

/-- A coalescing period that runs (R649): the occurrences counted since the entry that opened it, and the last. -/
structure Coalesce where
  last : Event := {}
  count : Nat := 0
  deriving DecidableEq, Repr

/-- The event log: the ring, oldest first, with the number of entries ever dropped from its front; each PF's read position counted
from the first entry ever appended; the running coalescing periods; the event-vector periods; the hardware queue of a Gwyn
restart (R646 to R653, R660). -/
structure EventLog where
  ring : List LogEntry := []
  dropped : Nat := 0
  next : Nat := 0
  readAt : SMap Nat := []
  coalescing : List Coalesce := []
  holdoff : SMap Bool := []
  due : SMap Bool := []
  held : List Event := []
  second : Nat := 0
  inSecond : Nat := 0
  deriving DecidableEq, Repr

/-! ### Stopper maps, NVM, plate (chapters 2, 3, 19) -/

/-- A stopper map: the fenced cores, vaults and routers, each list rising (R639). -/
structure StopMap where
  cores : List Nat := []
  vaults : List Nat := []
  routers : List Nat := []
  deriving DecidableEq, Repr

/-- A cause record of the fence journal (R640). -/
structure CauseRec where
  unit : UnitRef
  cause : Nat
  wake : Nat
  time : Nat
  deriving DecidableEq, Repr

/-- The content of the status plate (Table 2.10). -/
structure PlateImage where
  word : StateWord := .waking
  identity : List Nat := []
  readings : List Nat := []
  faults : List LogEntry := []
  deriving DecidableEq, Repr

/-- A stored or register claim of a GPIO pin (R65): its function. -/
abbrev GpioClaims := SMap Nat

/-- Stored Bend settings of one port (Table 23.3 code 0x1A): the BD_CTL fields and the 64 route entries. -/
structure BendSettings where
  ctl : Nat := 0
  routes : List Nat := []
  deriving DecidableEq, Repr

/-- The journaled objects 1 to 7 (Table 19.9), each at its factory value by default (DESIGN CHOICE, log entry 10). -/
structure NvmObjects where
  fences : StopMap := {}
  causes : List CauseRec := []
  plog : List PlogEntry := []
  plateBegin : Option (Nat × PlateImage) := none
  plateEnd : Nat := 0
  gpio : GpioClaims := []
  cap : Nat := 0
  trained : List Nat := []
  spares : SMap Nat := []
  controlPort : Nat := 0
  testMode : TestMode := .quick
  bend : SMap BendSettings := []
  deriving DecidableEq, Repr

/-- The NVM journal: `stored` is what the newest valid copies hold, `live` Cleat's working values, `writing` the object
being programmed with the content it takes, `queue` the objects waiting, `torn` the objects whose last update was interrupted
(R655 to R657). -/
structure Nvm where
  stored : NvmObjects := {}
  live : NvmObjects := {}
  writing : Option (Nat × NvmObjects) := none
  queue : List Nat := []
  torn : List Nat := []
  seq : SMap Nat := []
  deriving DecidableEq, Repr

/-- The status plate (R71 to R77): what is drawn, the hatch, the update in progress (its step and content), the pending image and
whether the state word or fault area of it changed, and when the identity and readings areas were last drawn. -/
structure Plate where
  shown : PlateImage := {}
  hatch : Bool := false
  slow : Bool := false
  step : Nat := 0
  seq : Nat := 0
  content : PlateImage := {}
  wanted : PlateImage := {}
  urgent : Bool := false
  whole : Bool := false
  lastSlow : Option Nat := none
  deriving DecidableEq, Repr

/-! ### Cleat (chapter 23) -/

/-- A Gwyn image slot (R757). -/
structure Image where
  valid : Bool := true
  version : Nat := 0
  deriving DecidableEq, Repr

/-- The phases of a firmware update (R758). -/
inductive UpdatePhase where
  | idle | requested | tablePassed | receiving | verified
  deriving DecidableEq, Repr

/-- SYNC of CL_TIME_STATUS (R764). -/
inductive SyncState where
  | free | locked | holdover
  deriving DecidableEq, Repr

/-- A skein verification in progress (R767) (DESIGN CHOICE, log entry 50). -/
structure SkeinCheck where
  coil : Nat
  file : Nat
  base : Nat
  port : Nat
  lapsed : Bool := false
  deriving DecidableEq, Repr

/-- A code range that Cleat verified for a coil (R743). -/
structure Verified where
  coil : Nat
  base : Nat
  size : Nat
  deriving DecidableEq, Repr

/-- Cleat: sideband identity, event reporting, effecters, images, update and trial, time, attestation and
skein verification. -/
structure Cleat where
  eid : Nat := 0
  receiver : Option Nat := none
  pldmThreshold : Nat := 2
  capVolatile : Nat := 0
  locate : Bool := false
  locateTimed : Bool := false
  slotA : Image := {}
  slotB : Image := {}
  booted : Bool := false
  running : Bool := false
  trial : Bool := false
  copying : Bool := false
  fusedMin : Nat := 0
  raises : Nat := 0
  phase : UpdatePhase := .idle
  target : Bool := false
  received : Nat := 0
  pendingTime : Option Nat := none
  sync : SyncState := .free
  accepted : Nat := 0
  missed : Nat := 0
  sawEdge : Bool := false
  sessions : List Nat := []
  nextSession : Nat := 0
  keyGen : SMap Nat := []
  skv : Option SkeinCheck := none
  verified : List Verified := []
  osfp : SMap Nat := []
  factory : StopMap := {}
  merged : StopMap := {}
  serial : Nat := 0
  deriving DecidableEq, Repr

/-! ### Leaves (chapter 8) -/

/-- A leaf's REGION (Table 8.2). -/
inductive Region where
  | coh | str | dev
  deriving DecidableEq, Repr

/-- A leaf's TARGET (Table 8.2). -/
inductive Target where
  | near | stripe | host | splice
  deriving DecidableEq, Repr

/-- A translation kept in a cache (R271): the coil, the first DVA fathom, the size (64 fathoms for a cable), the output address of
its first byte in the target's own space, the port, PERM, REGION and the owner named by the shared mark. -/
structure Leaf where
  coil : Nat
  fathom : Nat
  fathoms : Nat
  target : Target
  base : Nat
  port : Nat := 0
  r : Bool
  w : Bool
  x : Bool
  region : Region
  shared : Option Nat := Option.none
  grant : Option Nat := Option.none
  deriving DecidableEq, Repr

/-! ### Host ports (chapters 4, 5 and 10) -/

/-- How a read ends towards its source (Table 5.2, R102). -/
inductive ReadResult where
  | data (bytes : List Byte)
  | poison (bytes : List Byte)
  | fenced
  | timeout
  | perm
  deriving DecidableEq, Repr

/-- An outstanding non-posted CXL.io request of a port (R129): its tag, function, source, address and length, and the bytes
that have arrived. -/
structure IoTag where
  tag : Nat
  fn : Nat
  src : Src
  addr : Nat
  len : Nat
  got : List Byte := []
  discard : Bool := false
  poison : Bool := false
  deriving DecidableEq, Repr

/-- The CXL.cache device-to-host requests of Table 10.9. -/
inductive D2hOp where
  | rdShared | rdOwn | rdOwnNoData | rdCurr | cleanEvict | dirtyEvict | woWrInv
  deriving DecidableEq, Repr

/-- An outstanding CXL.cache device-to-host request (R155). `ring` is the coil and ring of the record that a WOWrInv carries; `again` when a
RdShared follows a DirtyEvict (Table 10.9). -/
structure D2h where
  id : Nat
  op : D2hOp
  line : Nat
  bay : Nat := 0
  data : LineData := 0
  mask : BitVec 64 := BitVec.allOnes 64
  poison : Bool := false
  ring : Option (Nat × Nat) := none
  again : Bool := false
  deriving DecidableEq, Repr

/-- An entry of a port's snoop filter (R354): the bays that hold the host line, whether one holds it exclusively, and the coil of
the fill. -/
structure SfEntry where
  holders : List Nat := []
  excl : Bool := false
  coil : Option Nat := none
  used : Nat := 0
  deriving DecidableEq, Repr

/-- An IDE stream (R171): Secure or not, and which of its key sets are programmed and in use, as
(substream × direction × set) numbers. -/
structure IdeStream where
  secure : Bool := false
  programmed : List (Nat × Nat × Nat) := []
  active : List (Nat × Nat × Nat) := []
  deriving DecidableEq, Repr

/-- A host port beyond its registers. `flr` lists the functions in reset with the step each is in; `msix` the messages held in
the PBAs as (function, vector); `surprise` and `heldAtReset` what the end of a Hitch port reset needs (R165). -/
structure Port where
  present : Bool := false
  released : Bool := false
  linkUp : Bool := false
  resetting : Bool := false
  surprise : Bool := false
  heldAtReset : Bool := false
  heldCause : Nat := 0
  d3cold : Bool := false
  lost : Nat := 0
  trained : Nat := 0
  cfg : SMap Nat := []
  status : List HostError := []
  masked : List HostError := []
  reclassed : List HostError := []
  tags : List IoTag := []
  nextTag : Nat := 0
  d2h : List D2h := []
  nextD2h : Nat := 0
  msix : List (Nat × Nat) := []
  msixOn : List Nat := []
  vecMask : List (Nat × Nat) := []
  flr : List (Nat × Nat) := []
  sf : SMap SfEntry := []
  lmax : Nat := 0
  ide : SMap IdeStream := []
  ctb : List Leaf := []
  backInv : List Nat := []
  bytes : List Host.Cell := []
  deriving DecidableEq, Repr

/-! ### Net (chapter 6) -/

/-- A packet of a request waiting in a buffer of a router (R187, R195): the request's source, its AGE, whether it is on ESC, and whether it
sits in the hold buffer. -/
structure Packet where
  src : Src
  age : Nat := 0
  esc : Bool := false
  held : Bool := false
  deriving DecidableEq, Repr

/-- A router beyond its registers: the packets in its buffers, the units whose fence or reset it has noticed (R201, R202), the CRC retries
in a row on each port's flit (R184), its links declared down. Its ledger is a function of the requests outstanding (R200). -/
structure Router where
  packets : List Packet := []
  noticed : List UnitRef := []
  retries : SMap Nat := []
  down : List Nat := []
  deriving DecidableEq, Repr

/-- The in-service route change (Table 6.5): the step it is in (0 none), whether a later fence waits for its own change; for each of the
two banks the fenced routers and down links (router, port) that its tables avoid, and the entries that a register write put into a table since
it was built, as code + 1 under the number of `routeKey`. -/
structure Net where
  step : Nat := 0
  again : Bool := false
  lost : List (List Nat × List (Nat × Nat)) := [([], []), ([], [])]
  routes : SMap Nat := []
  deriving DecidableEq, Repr

/-! ### Spool (chapter 7) -/

/-- The directory of a line (Table 7.3). Holder codes 0 to 95 are bays, 96 + p host ports. `coarse` keeps the set bay pairs
and the set host ports. -/
inductive Dir where
  | none
  | shared (holders : List Nat)
  | owned (holder : Nat)
  | coarse (pairs hosts : List Nat)
  deriving DecidableEq, Repr

/-- The metadata of a Spool line (Table 7.2) that is not a function of the rest: POISON, the coil tag, DIR. -/
structure LineMeta where
  poison : Bool := false
  tag : Option Nat := Option.none
  dir : Dir := .none
  deriving DecidableEq, Repr

/-- A vault beyond its registers: corrected lines per row in this scrub pass (R228), rows being copied to a spare, corrected lines
in this scrub period, the controller faults since the wake with their times (R252, R631), the dirty copies clearing dropped (R237). -/
structure Vault where
  rowCe : SMap Nat := []
  copying : List Nat := []
  periodCe : Nat := 0
  storm : Bool := false
  faultAt : Option Nat := Option.none
  resetting : Bool := false
  deriving DecidableEq, Repr

/-- The Spool governor between ticks (R247, R248): consecutive ticks with C_d ≥ S + N, and the slice of the frame. -/
structure Governor where
  heldTicks : Nat := 0
  slice : Nat := 0
  deriving DecidableEq, Repr

/-! ### Translation (chapter 8) -/

/-- A pointer kept in a walk cache: the coil, the level whose entry it is, the entry's index path, the next table. -/
structure WalkPtr where
  coil : Nat
  level : Nat
  index : Nat
  next : Nat
  deriving DecidableEq, Repr

/-- A translation miss at a bay: the coil, the DVA and the sources merged into it (R273). -/
structure Miss where
  coil : Nat
  dva : Nat
  srcs : List Src
  deriving DecidableEq, Repr

/-- A walk in progress (R262): its walker, the miss it serves, the level it reads next and the address of that entry, and whether an
invalidation has marked its result for discarding (Table 8.6 step 2). -/
structure Walk where
  walker : Nat
  miss : Miss
  level : Nat
  entry : Nat
  stale : Bool := false
  deriving DecidableEq, Repr

/-- A bay's translation hardware beyond DTW_: the bay cache, the walk cache, walks and queued misses. -/
structure BayDat where
  cache : List Leaf := []
  ptrs : List WalkPtr := []
  walks : List Walk := []
  queue : List Miss := []
  dead : List Nat := []
  deriving DecidableEq, Repr

/-- A queued invalidation command (R284): its sequence number, and the range, `none` for ALL. -/
structure InvCmd where
  seq : Nat
  range : Option (Nat × Nat)
  deriving DecidableEq, Repr

/-! ### Caches and coherence (chapters 9 to 11) -/

/-- The states of a ply-cache line (R334). -/
inductive Mesi where
  | i | s | e | m
  deriving DecidableEq, Repr

/-- A line of a ply cache or victim cache (R310, R313, R317): state, data, the bytes written by the ply (STR write-back, R384), whether it
is an STR line, age, streaming bit, way, poison, the cores whose L1D holds it. -/
structure CLine where
  st : Mesi
  data : LineData := 0
  mask : BitVec 64 := 0
  str : Bool := false
  age : Nat := 1
  streaming : Bool := false
  way : Nat := 0
  poison : Bool := false
  presence : List Nat := []
  prefetched : Bool := false
  deriving DecidableEq, Repr

/-- The writeback-class messages (Table 10.5). -/
inductive WbKind where
  | wb | cln | evc | dng
  deriving DecidableEq, Repr

/-- A writeback-class message of a ply or bay (R340, R343): `stage` 0 presented, 1 accepted and on its way to the home, 2 processed
there with the Ack on its way. -/
structure WbEntry where
  ply : Nat
  line : Nat
  kind : WbKind
  data : Option LineData := Option.none
  poison : Bool := false
  stage : Nat := 0
  deriving DecidableEq, Repr

/-- The requests of the bay bus that may go home (Table 10.4). -/
inductive BayReq where
  | brd | brds | brdx | bown (full : Bool) | bclr | binv | bnc
  deriving DecidableEq, Repr

/-- A request of a ply on the bay bus: its age in slice cycles, whether it was promoted, whether it is pending at the home, whether the Net
port holds it behind a writeback-class message, whether its completion is on its way (R341 to R343); the coil and the owner
named by the shared mark that the access carries; the fill's age and streaming bit (Table 9.6). -/
structure BusReq where
  ply : Nat
  line : Nat
  req : BayReq
  age : Nat := 0
  promoted : Bool := false
  pending : Bool := false
  held : Bool := false
  done : Bool := false
  coil : Option Nat := Option.none
  shared : Option Nat := Option.none
  streaming : Bool := false
  demand : Bool := true
  deriving DecidableEq, Repr

/-- A maintenance operation by way in progress at a ply (R322, R324): its code, way and set, and the write-backs it
caused that await their Ack. -/
structure Maint where
  op : Nat
  way : Nat
  set : Nat
  waits : List Nat := []
  deriving DecidableEq, Repr

/-- A ply: its cache, victim cache (oldest first), carve in progress (the new WAYS), maintenance in progress, poisoned
scratch lines, misses answered with GO-Err, misses that a target refused (with the status of its answer), translations of its Tackle, times of resets for R631. -/
structure Ply where
  cache : SMap CLine := []
  victim : List (Nat × CLine) := []
  carving : Option Nat := Option.none
  maint : Option Maint := Option.none
  scratchPoison : List Nat := []
  poisonedMiss : List Nat := []
  refusedMiss : SMap Nat := []
  ctb : List Leaf := []
  resetting : Bool := false
  errorAt : Option Nat := Option.none
  deriving DecidableEq, Repr

/-- A bay's bus: writeback-class messages awaiting Ack and requests not yet served (R339 to R343). -/
structure BayBus where
  wbs : List WbEntry := []
  reqs : List BusReq := []
  deriving DecidableEq, Repr

/-- Snoop kinds (Table 10.5). -/
inductive Snoop where
  | snpS | snpInv | snpCur | snpClean
  deriving DecidableEq, Repr

/-- What a home sent to the requester: state S, E or M, data if any, poison. -/
structure GrantMsg where
  st : Mesi
  data : Option LineData := Option.none
  poison : Bool := false
  deriving DecidableEq, Repr

/-- A holder's answer to a snoop, on its way to the home. -/
structure SnpRsp where
  holder : Nat
  rsp : Rsp
  data : Option LineData := Option.none
  poison : Bool := false
  deriving DecidableEq, Repr

/-- A request that waits for a busy line. -/
structure HomeReq where
  op : HomeOp
  src : Nat
  ply : Nat := 0
  deriving DecidableEq, Repr

/-- A transaction of a home on one line (R346): the request, its source (a holder code, or 200 for a non-caching source), the
snoop sent and the holders that have not answered it, the responses on their way to the home, the host request that the Hitch
waits for, the grant sent, whether it was installed and its CmpAck is on the way, and the requests that wait for the line. -/
structure Txn where
  busy : Bool := false
  op : HomeOp := .rda
  src : Nat := 200
  ply : Nat := 0
  snoop : Snoop := .snpInv
  waiting : List Nat := []
  rsps : List SnpRsp := []
  d2h : Option D2hOp := Option.none
  grant : Option GrantMsg := Option.none
  installed : Bool := false
  queue : List HomeReq := []
  deriving DecidableEq, Repr

/-- An STR reservation held at a vault controller or a Hitch (R393): the core and its 256 B granule. -/
structure StrRsv where
  core : Nat
  granule : Nat
  deriving DecidableEq, Repr

/-! ### Cores (chapters 12 to 14) -/

/-- The kinds of a core's accesses (Table 8.4). -/
inductive AccKind where
  | read | write | fetch | atomic
  deriving DecidableEq, Repr

/-- Where a load's value goes: nowhere, a general register, zero- or sign-extended from `size` bytes, or the elements of `w` bytes of
a vector register, `bcast` when one value goes to every element that `act` names, the ticket that a SPAWN submits. -/
inductive Dest where
  | none
  | g (n size : Nat) (sx : Bool)
  | v (n w : Nat) (bcast : Bool) (act : BitVec 128)
  | spawn (ring n : Nat)
  deriving DecidableEq, Repr

/-- One element of an access: its index, WPA and size in bytes, and for a store its value. -/
structure Part where
  elem : Nat
  wpa : Nat
  size : Nat
  value : Nat := 0
  deriving DecidableEq, Repr

/-- What an outstanding access of a core does when it is answered. -/
inductive AccOp where
  | load (dst : Dest)
  | store
  | amo (op b c : Nat) (dst : Nat)
  | ldrsv (dst : Nat)
  | stcnd (b : Nat) (dst : Nat)
  | maint (op : Nat)
  | wfence
  deriving DecidableEq, Repr

/-- An access of a core that awaits its answer (R435): its number, what it does, its kind and DVA, the PC of its instruction,
the leaf it was translated through, the elements it touches, and the bytes of host reads that have arrived. -/
structure CoreAccess where
  id : Nat
  op : AccOp := .store
  kind : AccKind := .read
  dva : Nat := 0
  pc : Nat := 0
  dev : Bool := false
  leaf : Option Leaf := Option.none
  parts : List Part := []
  streaming : Bool := false
  got : List (Nat × Nat) := []
  deriving DecidableEq, Repr

/-- A merging-buffer entry (R305): its line and bytes, whether its drain runs, whether the line is STR, and what the fault of
its drain reports. -/
structure MbEntry where
  line : Nat
  mask : BitVec 64
  data : LineData
  draining : Bool := false
  str : Bool := false
  dva : Nat := 0
  pc : Nat := 0
  shared : Option Nat := Option.none
  deriving DecidableEq, Repr

/-- An entry of the NT combining buffer (R388). -/
structure NtEntry where
  block : Nat
  mask : BitVec 256
  data : BitVec 2048
  draining : Bool := false
  str : Bool := false
  dva : Nat := 0
  pc : Nat := 0
  shared : Option Nat := Option.none
  deriving DecidableEq, Repr

/-- The core's reservation (R392, R393): the granule's first byte and size, and whether it is held at the target. -/
structure Rsv where
  base : Nat
  size : Nat
  atTarget : Bool := false
  deriving DecidableEq, Repr

/-- The armed monitor (R493): its line, and whether another agent has written it since. -/
structure Monitor where
  line : Nat
  hit : Bool := false
  deriving DecidableEq, Repr

/-- A matrix instruction in the engine or queued behind it (R427). -/
structure MmaOp where
  acc : Nat
  ovw : Bool
  mx : Bool
  fa : Nat
  fb : Nat
  ta : Nat
  tas : Nat
  tb : Nat
  tbs : Nat
  m : Nat
  n : Nat
  k : Nat
  pc : Nat
  deriving DecidableEq, Repr

/-- What a core waits for in CLKSTOP or at Capstan (R493, R494). -/
inductive CoreWait where
  | none
  | kwait (knot dst : Nat)
  | evwait (mon tackle : Bool) (dst : Nat)
  | spawn (ring dst : Nat) (ticket : List Nat)
  deriving DecidableEq, Repr

/-- The first fault of a task (R435, R438). -/
structure CoreFault where
  code : Nat
  cause : Nat := 0
  deferred : Bool := false
  rig : Bool := false
  pc : Nat := 0
  addr : Nat := 0
  deriving DecidableEq, Repr

/-- A core: the state of Table 12.1 (registers by number, accumulator element 2048 a + 32 m + n, the tile store by TA with its poisoned
8 B), its L1 caches in order of use, its buffers, how many elements of a store that waits
for the merging buffer have entered it, the task it runs, and its wake, point change and patrol test in progress (DESIGN CHOICE, log entry 9). -/
structure Core where
  pc : Nat := 0
  g : SMap Word := []
  v : SMap (BitVec 1024) := []
  p : SMap (BitVec 128) := []
  acc : SMap (BitVec 32) := []
  cc : SMap Nat := []
  tile : SMap Byte := []
  tilePoison : List Nat := []
  l1i : List Nat := []
  l1d : List (Nat × Nat) := []
  mb : List MbEntry := []
  nt : List NtEntry := []
  rsv : Option Rsv := Option.none
  stcFails : Option (Nat × Nat) := Option.none
  mon : Option Monitor := Option.none
  mma : List MmaOp := []
  itb : List Leaf := []
  dtb : List Leaf := []
  accesses : List CoreAccess := []
  nextAcc : Nat := 0
  stalled : Option (AccKind × Nat) := Option.none
  progress : Nat := 0
  flush : SMap Nat := []
  flushing : List (Nat × Nat) := []
  wait : CoreWait := .none
  rig : Bool := false
  running : Bool := false
  ending : Bool := false
  task : Option Nat := Option.none
  coil : Option Nat := Option.none
  skein : Option Nat := Option.none
  result : Nat := 0
  fault : Option CoreFault := Option.none
  overrun : Bool := false
  resetting : Bool := false
  ueAt : List Nat := []
  tileUe : Nat := 0
  waking : Bool := false
  opNext : Option Nat := Option.none
  changing : Option Nat := Option.none
  patrol : Bool := false
  deriving DecidableEq, Repr

/-! ### Tackle (chapter 15) -/

/-- A descriptor (Tables 15.3 and 15.4), in the words of its memory image, with its index. -/
structure TackleDesc where
  idx : Nat := 0
  src : Nat := 0
  dst : Nat := 0
  length : Nat := 0
  rows : Nat := 0
  srcStride : Nat := 0
  dstStride : Nat := 0
  ctl : Nat := 0
  deriving DecidableEq, Repr

/-- Where a beat stands: its read is in flight, its data is staged, or its write awaits the acknowledgement of a Bend port. -/
inductive BeatStage where
  | reading | staged | issued
  deriving DecidableEq, Repr

/-- A beat (R515): its number, its row, first byte of the row and length, the source pieces not read yet and whether a request for the first
of them is out, the bytes read so far, and its descriptor. -/
structure Beat where
  id : Nat
  row : Nat
  off : Nat
  len : Nat
  stage : BeatStage := .reading
  data : Nat := 0
  todo : List (Nat × Nat) := []
  sent : Bool := false
  got : Nat := 0
  poison : Bool := false
  desc : TackleDesc := {}
  deriving DecidableEq, Repr

/-- Why a descriptor is BAD (Table 15.6): the reason, the cause code, and the first failing byte with its logical position; `stop` when no
further beat is issued (Table 15.7). -/
structure DescBad where
  reason : Nat
  cause : Nat := 0
  addr : Nat := 0
  pos : Nat := 0
  stop : Bool := false
  deriving DecidableEq, Repr

/-- A Tackle channel beyond its registers: the descriptor it runs, the next byte to read, its beats, why the descriptor is BAD, whether
its status write is out, host ports with posted writes that no flush read covers yet and flush reads outstanding, whether an
end-of-count is due, and whether it is stopping to a reset of its registers. -/
structure Channel where
  cur : Option TackleDesc := none
  row : Nat := 0
  off : Nat := 0
  beats : List Beat := []
  nextBeat : Nat := 0
  bad : Option DescBad := none
  status : Bool := false
  flush : SMap Nat := []
  flushing : List (Nat × Nat) := []
  eocDue : Bool := false
  deriving DecidableEq, Repr

/-- An engine: its R queue of channels (R519), and the channel that had the last slot. -/
structure Engine where
  queue : List Nat := []
  last : Option Nat := none
  deriving DecidableEq, Repr

/-! ### Capstan (chapter 17) -/

/-- A task ticket (Table 17.2); `release` lists the used release knots in their order. -/
structure Ticket where
  taskId : Nat := 0
  skein : Nat := 0
  template : Nat := 0
  eclass : Nat := 0
  idempotent : Bool := false
  skip : Bool := false
  cring : Nat := 0
  opmax : Nat := 0
  tie : Nat := 0
  tieValid : Bool := false
  arm : Bool := false
  armCount : Nat := 0
  release : List Nat := []
  limit : Nat := 0
  core : Nat := 0
  aff : Bool := false
  strict : Bool := false
  seed : Nat := 0
  args : List Nat := []
  deriving DecidableEq, Repr

/-- How a task ends: the STATUS of Table 17.5 and what its record carries. -/
structure EndMsg where
  status : Nat
  fault : Nat := 0
  cause : Nat := 0
  pc : Nat := 0
  result : Nat := 0
  energy : Nat := 0
  overrun : Bool := false
  deriving DecidableEq, Repr

/-- Where a task in flight stands: its skein entries are being read, it waits on its tie knot, is ready at the head, is queued at a pawl,
its core wakes, it runs, its record is held, or its record is being written to slot `idx`. -/
inductive TaskState where
  | checking
  | waiting
  | ready
  | queued (bay : Nat)
  | starting (core : Nat)
  | running (core : Nat)
  | held
  | writing (idx : Nat) (port : Option (Nat × Nat))
  deriving DecidableEq, Repr

/-- A task in flight (R572): its coil and ticket, the entry DVA of its template, its place in the order of readiness or of
ending, its re-dispatches, the task-end message on its way, how it ended, the last core that ran it, its charge. -/
structure Task where
  coil : Nat := 0
  ticket : Ticket := {}
  entry : Nat := 0
  state : TaskState := .checking
  seq : Nat := 0
  runs : Nat := 0
  msg : Option EndMsg := none
  ended : Option EndMsg := none
  lastCore : Option Nat := none
  deriving DecidableEq, Repr

/-- A completion ring beyond its registers: whether a moderation period runs, and whether records were written in it. -/
structure CRing where
  moderating : Bool := false
  due : Bool := false
  deriving DecidableEq, Repr

/-- A cached skein-directory entry: the dispatch table's DVA and template count, `none` when it is not VALID. -/
structure SkDir where
  coil : Nat
  skein : Nat
  entry : Option (Nat × Nat)
  deriving DecidableEq, Repr

/-- A cached dispatch entry: the template's entry DVA, `none` when it is not VALID. -/
structure SkEntry where
  coil : Nat
  skein : Nat
  template : Nat
  entry : Option Nat
  deriving DecidableEq, Repr

/-- A destruction that runs (Table 18.4): its step, and the vaults of the coil whose clearing it awaits. -/
structure Destroy where
  step : Nat
  vaults : List Nat := []
  deriving DecidableEq, Repr

/-- A released ply that is being cleared (Table 18.2): its former owner and the step. -/
structure Clearing where
  coil : Nat
  step : Nat
  deriving DecidableEq, Repr

/-- The Capstan head; `destroy` lists the coils being destroyed, `clearing` the plies being cleared. -/
structure Capstan where
  tasks : SMap Task := []
  nextTask : Nat := 0
  nextSeq : Nat := 0
  rings : SMap CRing := []
  skdir : List SkDir := []
  skent : List SkEntry := []
  logs : SMap (Nat × Nat) := []
  destroy : SMap Destroy := []
  clearing : SMap Clearing := []
  deriving DecidableEq, Repr

/-- A pawl (R588 to R593): its balance and what is left of its slack in tenths of a µJ, its target point, the last coil it served, whether the
bay PLL is relocking, the bay's trip, the times of its trips, when it last logged a throttle or hot entry; cores in patrol test. -/
structure Pawl where
  bal : Int := 0
  left : Int := 0
  target : Nat := 0
  last : Nat := 31
  relocking : Bool := false
  tripped : Bool := false
  resetting : Bool := false
  limit : Bool := false
  trips : List Nat := []
  throttleAt : Option Nat := none
  hotAt : Option Nat := none
  deriving DecidableEq, Repr

/-- The power of the wafer (chapter 16): the brake and its ticks, the coolant term and what it was computed from, sensor readings in
eighths of a degree with the invalid sensors, core bands, the sealed coils in a lowered episode, thermal trips. -/
structure Power where
  brake : Bool := false
  pump : Bool := false
  brakeTicks : Nat := 0
  brakeLogged : Bool := false
  coolant : Nat := 20000
  derated : Bool := false
  temps : SMap Nat := []
  invalid : List Nat := []
  bands : SMap Nat := []
  lowered : List Nat := []
  trips : List Nat := []
  causes : List Nat := []
  manual : Bool := false
  tin : Nat := 0
  flow : Nat := 0
  failed : List Nat := []
  capFaults : List Nat := []
  deriving DecidableEq, Repr

/-! ### Bend (chapter 20) -/

/-- The operations that a requester sends through a splice window. -/
inductive BendOp where
  | read | write
  | atom (op b c : Nat)
  | fence
  deriving DecidableEq, Repr

/-- A request of this wafer at a Bend port: its source, operation, window offset, bytes, data and byte mask; the coil; the core whose posted
write it is; its place in the order in which the port accepted requests. -/
structure BendReq where
  src : Src
  op : BendOp := .read
  window : Nat := 0
  addr : Nat := 0
  size : Nat := 64
  data : Nat := 0
  mask : Nat := 0
  coil : Nat := 0
  core : Option Nat := Option.none
  seq : Nat := 0
  deriving DecidableEq, Repr

/-- A packet (Tables 20.7 and 20.8): `len` in bytes, `data` the data cells; `arr` names the port and virtual channel whose buffer holds it,
none for a packet made on this wafer. -/
structure BPkt where
  opc : Nat := 0
  dst : Nat := 0
  src : Nat := 0
  dstPort : Nat := 0
  retPort : Nat := 0
  dl : Bool := false
  tag : Nat := 0
  entry : Nat := 0
  hops : Nat := 0
  status : Nat := 0
  coil : Nat := 0
  off : Nat := 0
  len : Nat := 0
  atop : Nat := 0
  asz : Nat := 0
  data : Nat := 0
  arr : Option (Nat × Nat) := none
  deriving DecidableEq, Repr

/-- A tag in use (R680): the packet's operation, destination wafer and length, the request it belongs to, and the status of the request's
packets that have failed already. -/
structure BTag where
  tag : Nat
  opc : Nat
  dst : Nat
  len : Nat := 0
  req : BendReq
  bad : Nat := 0
  deriving DecidableEq, Repr

/-- A message block being assembled (R690): its window and number, the bytes written, the coil and the last core that wrote. -/
structure MsgBlock where
  window : Nat
  block : Nat
  mask : Nat := 0
  data : Nat := 0
  coil : Nat := 0
  core : Option Nat := none
  deriving DecidableEq, Repr

/-- Bytes of one line that a remote request names after translation, with the owner named by the leaf's shared mark. -/
structure BPiece where
  wpa : Nat
  n : Nat
  value : Nat := 0
  shared : Option Nat := none
  deriving DecidableEq, Repr

/-- An accepted remote write that is not yet performed (R688): its entry, coil and pieces; whether PENDING still counts it (DESIGN CHOICE, log entry 79). -/
structure PendWrite where
  entry : Nat
  coil : Nat
  pieces : List BPiece
  counted : Bool := true
  deriving DecidableEq, Repr

/-- A Bend port beyond its registers: its attachment; training (the step of Table 20.2, 0 while none runs; failures in a row; the peer seen
in step 2 as system, wafer and port; what INIT has brought); the receiver (expected SEQ, whether any flit was accepted, NAK, flits not
acknowledged yet, cells received and freed per channel, the cells of a packet that continues, packets that wait for their command); the
sender (next SEQ, flits not acknowledged yet, replays in a row, recoveries, cells sent, the peer's FREED and INIT counts, packets
that wait for credits); the originating port (waiting requests, tags, message blocks, posted writes that failed as (core, window, status));
the receiving port (writes not yet performed, the head words it has read). -/
structure BendPort where
  present : Bool := false
  bay : Nat := 0
  step : Nat := 0
  fails : Nat := 0
  failLogged : Bool := false
  seen : Option (Nat × Nat × Nat) := none
  gotInit : Bool := false
  gotAck : Bool := false
  rxSeq : Nat := 0
  rxAny : Bool := false
  nakSent : Bool := false
  nakAt : Nat := 0
  ackDue : Nat := 0
  recv : SMap Nat := []
  freed : SMap Nat := []
  rxCells : List Nat := []
  arrived : List BPkt := []
  txSeq : Nat := 0
  replay : List (Nat × Nat) := []
  replayRun : Nat := 0
  recoveries : List Nat := []
  sent : SMap Nat := []
  peerFreed : SMap Nat := []
  peerInit : SMap Nat := []
  crVc : Nat := 0
  outq : List BPkt := []
  waiting : List BendReq := []
  nextSeq : Nat := 0
  tags : List BTag := []
  nextTag : Nat := 0
  dead : List (Nat × Nat) := []
  blocks : List MsgBlock := []
  lost : List (Nat × Nat × Nat) := []
  pend : List PendWrite := []
  heads : SMap Nat := []
  deriving DecidableEq, Repr

/-! ### Halyard (chapter 21) -/

/-- A request ring of the SCB: its base, the logarithms of its slot count and slot size, the response ring that answers it. -/
structure HReqRing where
  valid : Bool := false
  base : Nat := 0
  count : Nat := 0
  slot : Nat := 8
  rsp : Nat := 0
  deriving DecidableEq, Repr

/-- A response ring, a peer's message window, or the mailbox ring of the SCB: its DVA, with the logarithm of its slot count or the peer's wafer. -/
structure HPlace where
  valid : Bool := false
  dva : Nat := 0
  num : Nat := 0
  deriving DecidableEq, Repr

/-- The configuration that Halyard took from its SCB at its start (Table 21.1). -/
structure HCfg where
  vocab : Nat := 1
  eos : Nat := 0
  kvFathoms : Nat := 1
  blockTokens : Nat := 1
  layerGroups : Nat := 1
  maxContext : Nat := 0
  maxBatch : Nat := 1
  tokenBudget : Nat := 1
  prefillChunk : Nat := 1
  group : Nat := 1
  queueMax : Nat := 0
  stallMs : Nat := 0
  fwdThreshold : Nat := 0
  notifyCh : Nat := 0
  cring : Nat := 0
  notify : Bool := false
  notifyAddr : Nat := 0
  reqs : List HReqRing := []
  rsps : List HPlace := []
  peers : List HPlace := []
  mailbox : HPlace := {}
  deriving DecidableEq, Repr

/-- A response entry (Table 21.3) without its PHASE. -/
structure HEntry where
  status : Nat := 0
  final : Bool := false
  first : Nat := 0
  queueUs : Nat := 0
  tokens : List Nat := []
  deriving DecidableEq, Repr

/-- Where a request stands: waiting, running, forwarded to peer `i` under a serial, or ended with entries that wait for room. -/
inductive HWhere where
  | waiting | running
  | forwarded (peer serial : Nat)
  | ended
  deriving DecidableEq, Repr

/-- A request (Table 21.2) as Halyard serves it: `ring` is its response ring, `peer` the PEER entry and serial of one that another wafer
forwarded; `ord` and `adm` its places in the orders of waiting and of admission; its generated tokens, how many of them are in entries, how many
tokens have their KV, its block table as (entry, block); the entries that wait for room, and since when;
the response fragments sent for it. -/
structure HSeq where
  id : Nat := 0
  loc : HWhere := .waiting
  ring : Nat := 0
  peer : Option (Nat × Nat) := none
  reqId : Nat := 0
  prio : Nat := 0
  stream : Bool := false
  prompt : List Nat := []
  maxNew : Nat := 0
  deadline : Nat := 0
  seed : Nat := 0
  temp : Nat := 0
  topP : Nat := 0
  topK : Nat := 0
  stops : List Nat := []
  arrival : Nat := 0
  ord : Int := 0
  adm : Nat := 0
  started : Bool := false
  gen : List Nat := []
  sent : Nat := 0
  queueUs : Nat := 0
  kv : Nat := 0
  blocks : List (Nat × Nat) := []
  backlog : List HEntry := []
  stallAt : Option Nat := none
  frags : Nat := 0
  deriving DecidableEq, Repr

/-- A model task of a step: one PREFILL chunk, with its number of tokens and whether a logits row is asked for, or one DECODE group. -/
inductive HWork where
  | prefill (seq ntok : Nat) (row : Bool)
  | decode (seqs : List Nat)
  deriving DecidableEq, Repr

/-- A forwarded request that is being assembled: its wafer and serial, the next fragment, the bytes so far. -/
structure HFrag where
  wafer : Nat
  serial : Nat
  next : Nat
  size : Nat
  data : Nat
  deriving DecidableEq, Repr

/-- The Halyard instance of a coil: its SCB, its STATE, its configuration, the requests it knows, the model tasks of the running step; the
counters of its orders; round-robin positions; rings written in this step; tails that broke R712 and were counted; fragments; its mailbox head;
notify descriptors whose status is awaited. -/
structure Halyard where
  scb : Nat := 0
  state : Nat := 0
  taskId : Nat := 0
  cfg : HCfg := {}
  seqs : List HSeq := []
  work : List HWork := []
  nextId : Nat := 0
  nextOrd : Nat := 0
  nextAdm : Nat := 0
  nextSerial : Nat := 0
  nextRing : Nat := 0
  nextPeer : Nat := 0
  nextBlock : Nat := 0
  written : List Nat := []
  badTails : SMap Nat := []
  frags : List HFrag := []
  mailHead : Nat := 0
  notes : List Nat := []
  lastShed : Option Nat := none
  cringHigh : Bool := false
  deriving DecidableEq, Repr


/-! ### What the block sends -/

/-- A message that the block sent in the latest step. -/
inductive Out where
  | pldmReply (cc : Nat) (data : List Nat)
  | pldmEvent (receiver : Nat) (e : Event)
  | events (l : List Event)
  | maps (m : StopMap) (causes : List CauseRec)
  | fwComplete (verified : Bool)
  | mctpReply (data : List Nat)
  | spdmReply (ok : Bool) (data : List Nat)
  | msix (port fn vec : Nat)
  | cfgReply (port fn status value : Nat)
  | errMsg (port cls : Nat)
  | pmPme (port : Nat)
  | viral (port : Nat)
  | ideReply (port : Nat) (ok : Bool) (data : List Nat)
  | d2h (port id : Nat) (op : D2hOp) (line : Nat) (data : Option LineData) (poison : Bool)
  | ioRead (port tag addr len : Nat)
  | ioWrite (port addr : Nat) (data : List Byte) (poison : Bool)
  | ioAtomic (port tag addr size op operand compare : Nat)
  | memReply (port : Nat) (code : Nat) (data : LineData) (poison : Bool)
  | h2dRsp (port : Nat) (code : Nat) (data : Option LineData)
  | backInv (port line : Nat) (kind : Snoop)
  | home (status data : Nat) (poison : Bool)
  | memAck (port : Nat)
  | ioReply (port status : Nat) (data : LineData) (poison : Bool)
  | spool (status : Nat) (data : LineData) (poison : Bool)
  | notice (u : UnitRef) (clear : Bool)
  | regData (v : Nat)
  | regDenied
  | status (code : Nat)
  | flit (b : Nat) (f : BitVec 2048)
  deriving DecidableEq, Repr

/-! ### Stops -/

/-- What the model stops with as a fault. -/
inductive Fault where
  /-- Raised by no command: every command of the spec has an effect. Safe. -/
  | none
  deriving DecidableEq, Repr

/-- What the model refuses. -/
inductive Refusal where
  /-- A command that has no meaning yet, rejected by name. Safe. -/
  | notModelled (mnemonic : String)
  deriving DecidableEq, Repr

/-! ### The whole machine -/

/-- The state of the block. `out` holds the messages that the latest command sent; `fresh` counts the free values
drawn so far and is the model's own. -/
structure State where
  pending : List Instr := []
  clockUs : Nat := 0
  fresh : Nat := 0
  out : List Out := []
  module : Module := {}
  outputs : Outputs := {}
  regs : SMap Nat := []
  mem : List Host.Cell := []
  log : EventLog := {}
  nvm : Nvm := {}
  plate : Plate := {}
  cleat : Cleat := {}
  fences : StopMap := {}
  ports : SMap Port := []
  routers : SMap Router := []
  net : Net := {}
  lines : SMap LineMeta := []
  vaults : SMap Vault := []
  gov : Governor := {}
  bays : SMap BayDat := []
  invs : SMap (List InvCmd) := []
  buses : SMap BayBus := []
  plies : SMap Ply := []
  txns : SMap Txn := []
  strRsv : List StrRsv := []
  keys : SMap Nat := []
  cores : SMap Core := []
  bends : SMap BendPort := []
  channels : SMap Channel := []
  engines : SMap Engine := []
  cap : Capstan := {}
  pawls : SMap Pawl := []
  power : Power := {}
  halyards : SMap Halyard := []
  deriving DecidableEq, Repr

/-- The machine right after reset: no always-on domain yet, every register at its reset value, memory with nothing
listed, an empty queue. -/
def State.reset : State := {}

end Sys2Proof.Machine
end

