-- ==== Sys2Proof/Machine/Ops.lean ====
section
/-!
DEFINITION. The named operations that every command's meaning is built from: register fields, memory bytes, unit
numbering, messages, the event log, the NVM journal, the status plate, and the outputs that follow from the state.
-/
namespace Sys2Proof.Machine

/-! ### Register fields -/

/-- The key of a field of register instance `i` in the store of fields (DEDUCED, log entry 17). -/
def fkey (f : Fld) (i : Nat) : Nat := 512 * i + f.num

/-- What a register field holds. -/
def State.fld (s : State) (f : Fld) (i : Nat) : Nat := SMap.get f.desc.reset s.regs (fkey f i)

/-- The state with a register field set; bits beyond its width are lost. -/
def State.setFld (s : State) (f : Fld) (i v : Nat) : State :=
  { s with regs := SMap.set f.desc.reset s.regs (fkey f i) (v % 2 ^ f.desc.w) }

/-- A count in a register field: a read-to-clear count saturates, any other wraps. -/
def State.bump (s : State) (f : Fld) (i n : Nat) : State :=
  if f.desc.acc = .rc then s.setFld f i (satAdd f.desc.w (s.fld f i) n)
  else s.setFld f i (wrapAdd f.desc.w (s.fld f i) n)

/-- A register field as a truth value. -/
def State.flag (s : State) (f : Fld) (i : Nat) : Bool := s.fld f i != 0

/-- The state in which the fields whose number and instance `drop` names hold their reset values again. -/
def State.resetFlds (s : State) (drop : Nat → Nat → Bool) : State :=
  { s with regs := SMap.dropIf s.regs (fun k _ => drop (k % 512) (k / 512)) }

/-- Whether field number `n` lies in the block of registers from field `a` to field `b` (Table 3.6). -/
def inBlock (a b : Fld) (n : Nat) : Bool := decide (a.num ≤ n) && decide (n ≤ b.num)

/-! ### Memory bytes -/

/-- The byte at an address; bytes that nothing has written read as zero (R78 step 11, DESIGN CHOICE elsewhere) (DESIGN CHOICE, log entry 7). -/
def State.byte (s : State) (a : Nat) : Byte := SMap.get 0 s.mem a

/-- The state with one byte written. -/
def State.setByte (s : State) (a : Nat) (b : Byte) : State := { s with mem := SMap.set 0 s.mem a b }

/-- Memory's canonical form: addresses strictly rising, no entry equal to what an unlisted address reads as. -/
def Memory.wf (m : List Host.Cell) : Bool := SMap.wf 0 m

/-- `n` bytes from an address, lowest first. -/
def State.bytes (s : State) (a : Nat) : Nat → List Byte
  | 0 => []
  | n + 1 => s.byte a :: s.bytes (a + 1) n

/-- The state with bytes written from an address on. -/
def State.setBytes (s : State) (a : Nat) : List Byte → State
  | [] => s
  | b :: bs => (s.setByte a b).setBytes (a + 1) bs

/-- The number that `n` bytes hold, byte 0 the lowest (R11). -/
def State.load (s : State) (a n : Nat) : Nat := leNat (s.bytes a n)

/-- The state with the `n` low bytes of a number written. -/
def State.store (s : State) (a n v : Nat) : State := s.setBytes a (leBytes n v)

/-- The line at a line-aligned address. -/
def State.lineAt (s : State) (a : Nat) : LineData := BitVec.ofNat 512 (s.load a 64)

/-- The bytes of a line under a mask put over an old line: bit `i` of the mask stands for byte `i`. -/
def mergeMask (old new : LineData) (mask : BitVec 64) : LineData :=
  BitVec.ofNat 512 (leNat ((List.range 64).map (fun i =>
    BitVec.ofNat 8 ((if mask.getLsbD i then new.toNat else old.toNat) >>> (8 * i)))))

/-! ### Free values -/

/-- The next free word, and the state that has drawn it. -/
def State.freshWord (s : State) : BitVec 64 × State :=
  (Config.freeWord s.fresh, { s with fresh := s.fresh + 1 })

/-! ### Units -/

/-- The bay, ply and core numbering of R22 and R23: core = bay × 32 + j, ply = bay × 4 + p. -/
def bayOfCore (c : Nat) : Nat := c / 32
def plyOfCore (c : Nat) : Nat := c / 8
def bayOfPly (p : Nat) : Nat := p / 4

/-- Sorted insertion without repeats. -/
def insertNat (x : Nat) : List Nat → List Nat
  | [] => [x]
  | y :: ys => if x < y then x :: y :: ys else if x = y then y :: ys else y :: insertNat x ys

/-- Sorted union without repeats. -/
def unionNat (xs ys : List Nat) : List Nat := xs.foldl (fun a x => insertNat x a) ys

/-- An element put before the first that it may stand before. -/
def insertBy {α : Type} (le : α → α → Bool) (x : α) : List α → List α
  | [] => [x]
  | y :: ys => if le x y then x :: y :: ys else y :: insertBy le x ys

/-- A list in order; elements that tie keep their order. -/
def sortBy {α : Type} (le : α → α → Bool) (l : List α) : List α := l.foldr (insertBy le) []

/-- The numbers from `a` to `a + n - 1`. -/
def span (a n : Nat) : List Nat := (List.range n).map (· + a)

/-- Whether a unit is fenced in the live stopper map: a ply or bay when all its cores are (R629, R639). -/
def State.fencedUnit (s : State) (u : UnitRef) : Bool :=
  match u.kind with
  | .core => s.fences.cores.contains u.id
  | .ply => (span (8 * u.id) 8).all s.fences.cores.contains
  | .bay => (span (32 * u.id) 32).all s.fences.cores.contains
  | .vault => s.fences.vaults.contains u.id
  | .router => s.fences.routers.contains u.id
  | _ => false

/-- The records of numbered units. -/
def State.port (s : State) (p : Nat) : Port := SMap.get {} s.ports p
def State.setPort (s : State) (p : Nat) (v : Port) : State := { s with ports := SMap.set {} s.ports p v }
def State.router (s : State) (k : Nat) : Router := SMap.get {} s.routers k
def State.setRouter (s : State) (k : Nat) (v : Router) : State := { s with routers := SMap.set {} s.routers k v }
def State.line (s : State) (l : Nat) : LineMeta := SMap.get {} s.lines l
def State.setLine (s : State) (l : Nat) (v : LineMeta) : State := { s with lines := SMap.set {} s.lines l v }
def State.vault (s : State) (v : Nat) : Vault := SMap.get {} s.vaults v
def State.setVault (s : State) (v : Nat) (x : Vault) : State := { s with vaults := SMap.set {} s.vaults v x }
def State.bay (s : State) (k : Nat) : BayDat := SMap.get {} s.bays k
def State.setBay (s : State) (k : Nat) (x : BayDat) : State := { s with bays := SMap.set {} s.bays k x }
def State.bus (s : State) (k : Nat) : BayBus := SMap.get {} s.buses k
def State.setBus (s : State) (k : Nat) (x : BayBus) : State := { s with buses := SMap.set {} s.buses k x }
def State.ply (s : State) (k : Nat) : Ply := SMap.get {} s.plies k
def State.setPly (s : State) (k : Nat) (x : Ply) : State := { s with plies := SMap.set {} s.plies k x }

/-- The home port of a coil, if a VF is bound (R605). -/
def State.homeOf (s : State) (coil : Nat) : Option Nat :=
  if s.flag .CP_COIL_ADMIN_HOME_VALID coil then some (s.fld .CP_COIL_ADMIN_HOME coil) else none

/-- The coil that owns a ply (Table 18.1). -/
def State.plyCoil (s : State) (ply : Nat) : Option Nat :=
  if s.flag .CP_PLY_OWNER_VALID ply then some (s.fld .CP_PLY_OWNER_COIL ply) else none

/-- The coil that owns a vault. -/
def State.vaultCoil (s : State) (v : Nat) : Option Nat :=
  if s.flag .SP_VAULT_OWNER_VALID v then some (s.fld .SP_VAULT_OWNER_COIL v) else none

/-- Cleat runs: the always-on domain is on and Gwyn serves requests (R660, R750). -/
def State.cleatUp (s : State) : Bool := s.module.aoOn && s.cleat.running

/-- The wafer is in service (Table 3.1 step 13). -/
def State.ready (s : State) : Bool := decide (s.module.wakeState = .ready)

/-! ### Messages -/

/-- The state after one more message. -/
def State.send (s : State) (m : Out) : State := { s with out := s.out ++ [m] }

/-- A power management event of the PF: PME_Status is set, and with PME_En the port sends PM_PME in D3hot, or drives WAKE_N low in D3cold
(R132). -/
def State.raisePme (s : State) (p : Nat) : State :=
  let s := s.setFld .HT_PM_STATUS_PME_PENDING p 1
  if SMap.get 0 (s.port p).cfg CfgField.pmeEn.ctorIdx = 0 then s
  else if (s.port p).d3cold then s.setFld .HT_PM_STATUS_WAKE p 1
  else s.send (.pmPme p)

/-- The function's MSI-X table is enabled and the vector's mask clear; a message of a masked vector waits in the
PBA (R109, R141). A port without a link, in Port Hold or in D3 holds it too, and a function in reset discards it (DESIGN CHOICE, log entry 36). -/
def State.raiseMsix (s : State) (p fn vec : Nat) : State :=
  let pt := s.port p
  if pt.flr.any (fun x => x.1 = fn || x.1 = 0) then s
  else if pt.linkUp && s.fld .HT_PM_STATUS_DSTATE p = 0 && !s.flag .HT_HOLD_STATUS_HOLD p &&
      pt.msixOn.contains fn && !pt.vecMask.contains (fn, vec) then
    s.send (.msix p fn vec)
  else
    let s := s.setPort p { pt with msix := if pt.msix.contains (fn, vec) then pt.msix else pt.msix ++ [(fn, vec)] }
    if s.fld .HT_PM_STATUS_DSTATE p = 3 || pt.d3cold then s.raisePme p else s

/-! ### NVM journal (R655 to R658) -/

/-- One journaled object of `src` put into `dst` (Table 19.9). -/
def NvmObjects.copy (obj : Nat) (src dst : NvmObjects) : NvmObjects :=
  match obj with
  | 1 => { dst with fences := src.fences, causes := src.causes }
  | 2 => { dst with plog := src.plog }
  | 3 => { dst with plateBegin := src.plateBegin, plateEnd := src.plateEnd }
  | 4 => { dst with gpio := src.gpio }
  | 5 => { dst with cap := src.cap }
  | 6 => { dst with trained := src.trained, spares := src.spares }
  | 7 => { dst with controlPort := src.controlPort, testMode := src.testMode, bend := src.bend }
  | _ => dst

/-- The queue's priority of an object (R656): the fence journal, plate records, the persistent log, the rest. -/
def nvmRank (obj : Nat) : Nat := if obj = 1 then 0 else if obj = 3 then 1 else if obj = 2 then 2 else 3

/-- An object put into the queue behind those of its priority, once. -/
def nvmInsert (obj : Nat) : List Nat → List Nat
  | [] => [obj]
  | x :: xs => if x = obj then x :: xs else if nvmRank obj < nvmRank x then obj :: x :: xs.filter (· ≠ obj)
      else x :: nvmInsert obj xs

/-- NVM writes start only while Gwyn runs and the input is at 46.0 V or more (R57, R656, R660). -/
def State.nvmMayStart (s : State) : Bool := s.cleatUp && !s.module.inputBad

/-- The next queued update starts if none is being written; it takes the object's content as it stands (R656). -/
def State.nvmPump (s : State) : State :=
  match s.nvm.writing, s.nvm.queue with
  | none, obj :: q =>
    if s.nvmMayStart then { s with nvm := { s.nvm with writing := some (obj, s.nvm.live), queue := q } } else s
  | _, _ => s

/-- A journaled object has changed: an update of it waits its turn, unless one waits already (R640, R656). -/
def State.journal (s : State) (obj : Nat) : State :=
  ({ s with nvm := { s.nvm with queue := nvmInsert obj s.nvm.queue } } : State).nvmPump

/-! ### Status plate (R71 to R77, R765) -/

/-- The entries that the fault area shows: the two most recent FATAL or MAINTENANCE entries that were not acknowledged
before this wake (R648). -/
def State.faultArea (s : State) : List LogEntry :=
  let live := s.nvm.live.plog.filter (fun e => e.acked = none || e.acked = some s.module.wakeCount)
  (live.drop (live.length - 2)).map (·.entry)

/-- A change of the state word (R72, R765). -/
def State.plateWord (s : State) (w : StateWord) : State :=
  if s.plate.wanted.word = w then s
  else { s with plate := { s.plate with wanted := { s.plate.wanted with word := w }, urgent := true } }

/-- The fault area follows the latched entries (R648). -/
def State.plateFaults (s : State) : State :=
  if s.plate.wanted.faults = s.faultArea then s
  else { s with plate := { s.plate with wanted := { s.plate.wanted with faults := s.faultArea }, urgent := true } }

/-! ### Event log (R646 to R654) -/

/-- The names of Table 19.6 and of the event tables of chapters 20 and 21. -/
inductive EvName where
  | inputRange | waferTrip | bayTrip | bayTripLimit | thermalThrottle | bayHot | sensorFault | coolantDerate
  | coolantLeak | pumpFault | powerCap | brakeOn | brakeOff | sealedOpLowered
  | imageFallback | bootFail | wakeFail | cleatRestart | cleatUnreachable | nvmTorn | nvmLost
  | coreUe | coreFenced | capacityBelowRated | fenceRequested | pawlFault | capstanFault | strDataLost
  | netLinkDown | netRouterFault | netTimeout | netRouteChange
  | spoolPerm | spoolCeStorm | spoolUe | spoolTagMismatch | spoolSpareExhausted | vaultCleared | vaultFenced
  | reservationDegraded | sealedTimeSliced | reservationRestored
  | datWalkerFault | cohOwnerLost | biasAutoFlip
  | linkNoCxl | regWriteDenied | hostLinesLost | completionLost | hostError | portHold
  | ringFault | ticketRejected | knotSaturated | knotUnderflow | bayOverspend | sealedPowerDegraded
  | sealedBayLost | taskLost | taskLog | coilCreated | coilSealed | coilDestroyed | plyCleared
  | bendLinkUp | bendLinkDown | bendTrainFail | bendMiscabled | bendDegraded | bendRecovery | bendProtocol
  | bendRouteError | bendTimeout | bendSpliceRefused | bendWriteLost | bendMsgPartial
  | halyardStarted | halyardStopped | halyardConfigError | halyardRecovered | halyardShedding | halyardKvPreempt
  | halyardFwdLost | halyardCringHigh | halyardModelFault
  deriving DecidableEq, Repr

/-- The code and class of each event (Table 19.6, R704, R730). -/
def EvName.row : EvName → Nat × EvClass
  | .inputRange => (0x0101, .fatal) | .waferTrip => (0x0102, .fatal) | .bayTrip => (0x0103, .warning)
  | .bayTripLimit => (0x0104, .fatal) | .thermalThrottle => (0x0105, .info) | .bayHot => (0x0106, .warning)
  | .sensorFault => (0x0107, .maintenance) | .coolantDerate => (0x0108, .warning)
  | .coolantLeak => (0x0109, .fatal) | .pumpFault => (0x010A, .warning) | .powerCap => (0x010B, .info)
  | .brakeOn => (0x010C, .info) | .brakeOff => (0x010D, .info) | .sealedOpLowered => (0x010E, .warning)
  | .imageFallback => (0x0201, .maintenance) | .bootFail => (0x0202, .fatal) | .wakeFail => (0x0203, .fatal)
  | .cleatRestart => (0x0204, .warning) | .cleatUnreachable => (0x0205, .maintenance)
  | .nvmTorn => (0x0206, .warning) | .nvmLost => (0x0207, .maintenance)
  | .coreUe => (0x0301, .warning) | .coreFenced => (0x0302, .fatal)
  | .capacityBelowRated => (0x0303, .maintenance) | .fenceRequested => (0x0304, .info)
  | .pawlFault => (0x0305, .fatal) | .capstanFault => (0x0306, .fatal) | .strDataLost => (0x0307, .warning)
  | .netLinkDown => (0x0401, .warning) | .netRouterFault => (0x0402, .fatal) | .netTimeout => (0x0403, .warning)
  | .netRouteChange => (0x0404, .info)
  | .spoolPerm => (0x0501, .warning) | .spoolCeStorm => (0x0502, .warning) | .spoolUe => (0x0503, .warning)
  | .spoolTagMismatch => (0x0504, .warning) | .spoolSpareExhausted => (0x0505, .maintenance)
  | .vaultCleared => (0x0506, .info) | .vaultFenced => (0x0507, .fatal)
  | .reservationDegraded => (0x0508, .warning) | .sealedTimeSliced => (0x0509, .warning)
  | .reservationRestored => (0x050A, .info)
  | .datWalkerFault => (0x0601, .warning) | .cohOwnerLost => (0x0602, .warning) | .biasAutoFlip => (0x0603, .info)
  | .linkNoCxl => (0x0701, .warning) | .regWriteDenied => (0x0702, .warning) | .hostLinesLost => (0x0703, .warning)
  | .completionLost => (0x0704, .warning) | .hostError => (0x0705, .warning) | .portHold => (0x0706, .warning)
  | .ringFault => (0x0801, .warning) | .ticketRejected => (0x0802, .info) | .knotSaturated => (0x0803, .warning)
  | .knotUnderflow => (0x0804, .warning) | .bayOverspend => (0x0805, .info)
  | .sealedPowerDegraded => (0x0806, .warning) | .sealedBayLost => (0x0807, .warning)
  | .taskLost => (0x0808, .warning) | .taskLog => (0x0809, .info) | .coilCreated => (0x080A, .info)
  | .coilSealed => (0x080B, .info) | .coilDestroyed => (0x080C, .info) | .plyCleared => (0x080D, .info)
  | .bendLinkUp => (0x0901, .info) | .bendLinkDown => (0x0902, .warning)
  | .bendTrainFail => (0x0903, .maintenance) | .bendMiscabled => (0x0904, .maintenance)
  | .bendDegraded => (0x0905, .warning) | .bendRecovery => (0x0906, .info) | .bendProtocol => (0x0907, .warning)
  | .bendRouteError => (0x0908, .warning) | .bendTimeout => (0x0909, .warning)
  | .bendSpliceRefused => (0x090A, .info) | .bendWriteLost => (0x090B, .warning)
  | .bendMsgPartial => (0x090C, .warning)
  | .halyardStarted => (0x0A01, .info) | .halyardStopped => (0x0A02, .info)
  | .halyardConfigError => (0x0A03, .maintenance) | .halyardRecovered => (0x0A04, .warning)
  | .halyardShedding => (0x0A05, .warning) | .halyardKvPreempt => (0x0A06, .info)
  | .halyardFwdLost => (0x0A07, .warning) | .halyardCringHigh => (0x0A08, .warning)
  | .halyardModelFault => (0x0A09, .warning)

/-- The rank of a class against a threshold (R653, R754): FATAL and MAINTENANCE above WARNING above INFO. -/
def EvClass.rank : EvClass → Nat
  | .info => 0 | .warning => 1 | .fatal => 2 | .maintenance => 2

/-- FATAL and MAINTENANCE entries are kept in the persistent log (R654). -/
def EvClass.persistent (c : EvClass) : Bool := c.rank = 2

/-- Whether the PF of port `p` sees an entry (Table 19.5). -/
def State.sees (s : State) (p : Nat) (e : LogEntry) : Bool :=
  decide (p = s.module.controlPort) || e.ev.coil = none || decide (e.home = some p)

/-- LOST grows on every port that `f` names (R652). -/
def State.lose (s : State) (f : Nat → Bool) : State :=
  (List.range Config.hostPorts).foldl (fun s p => if f p then s.bump .CL_EVT_STATUS_LOST p 1 else s) s

/-- The position from which a port reads next: its own, or the oldest entry still held (R652, R771). -/
def State.readPos (s : State) (p : Nat) : Nat := max (SMap.get 0 s.log.readAt p) s.log.dropped

/-- The ring drops its oldest entry; the ports that had not read it count it as lost (R652). -/
def State.dropOldest (s : State) : State :=
  match s.log.ring with
  | [] => s
  | e :: rest =>
    let s := s.lose (fun p => s.sees p e && decide (s.readPos p ≤ s.log.dropped))
    { s with log := { s.log with ring := rest, dropped := s.log.dropped + 1 } }

/-- The event vector of a port, at most once in 100 µs (R653). -/
def State.eventVector (s : State) (p : Nat) : State :=
  if SMap.get false s.log.holdoff p then
    { s with log := { s.log with due := SMap.set false s.log.due p true } }
  else
    ({ s with log := { s.log with holdoff := SMap.set false s.log.holdoff p true } } : State).raiseMsix p 0
      (s.fld .CL_EVT_CTL_VEC p)

/-- An entry reaches its readers: the event vectors of R653, the PLDM event of R754, the persistent log of R654. -/
def State.publish (s : State) (e : LogEntry) : State :=
  let s := (List.range Config.hostPorts).foldl (fun s p =>
    if s.sees p e && s.flag .CL_EVT_CTL_ENABLE p && decide (s.fld .CL_EVT_CTL_THRESHOLD p ≤ e.ev.cls.rank) then
      s.eventVector p else s) s
  let s := match s.cleat.receiver with
    | some r => if s.cleat.pldmThreshold ≤ e.ev.cls.rank then s.send (.pldmEvent r e.ev) else s
    | none => s
  if e.ev.cls.persistent then
    let pl := s.nvm.live.plog ++ [{ entry := e }]
    (({ s with nvm := { s.nvm with live := { s.nvm.live with plog := pl.drop (pl.length - 4096) } } } : State).journal 2).plateFaults
  else s

/-- An entry is appended in SEQ order, at most 10,000 in a second; past that, INFO and WARNING entries are dropped and
counted for the ports that would see them (R650). -/
def State.append (s : State) (e : Event) : State :=
  let le : LogEntry := { ev := { e with wake := s.module.wakeCount % 2 ^ 24, index := s.log.next },
                         home := e.coil.bind s.homeOf }
  let sec := s.clockUs / 1000000
  let n := if s.log.second = sec then s.log.inSecond else 0
  if 10000 ≤ n && e.cls.rank < 2 then s.lose (fun p => s.sees p le)
  else
    let s := if s.log.ring.length < 65536 then s else s.dropOldest
    let s : State := { s with log := { s.log with ring := s.log.ring ++ [le], next := s.log.next + 1, second := sec,
                                                  inSecond := n + 1 } }
    s.publish le

/-- Whether two events are counted together (R649). -/
def sameEvent (a b : Event) : Bool :=
  decide (a.code = b.code) && decide (a.kind = b.kind) && decide (a.unit = b.unit) && decide (a.coil = b.coil)

/-- An event is detected: held by the hardware queue of 256 while Gwyn restarts (R660), counted in its running
period, or appended at once and its period opened; FATAL events are never coalesced (R649). -/
def State.detect (s : State) (e : Event) : State :=
  if s.cleatUp then
    match s.log.coalescing.find? (fun c => sameEvent c.last e) with
    | some _ =>
      { s with log := { s.log with coalescing := s.log.coalescing.map (fun c =>
          if sameEvent c.last e then { last := e, count := satAdd 16 c.count 1 } else c) } }
    | none =>
      let s := s.append e
      if e.cls = .fatal then s
      else { s with log := { s.log with coalescing := s.log.coalescing ++ [{ last := e }] } }
  else if s.log.held.length < 256 then { s with log := { s.log with held := s.log.held ++ [e] } }
  else s.lose (fun _ => true)

/-- The event of a name with its unit, coil and data words, timed by Cleat (R646, R647). -/
def State.event (s : State) (n : EvName) (u : UnitRef := ⟨.none, 0⟩) (coil : Option Nat := none)
    (d0 d1 d2 d3 : Nat := 0) : State :=
  s.detect { time := s.fld .CL_TIME_UTC_NS 0, code := n.row.1, cls := n.row.2, coil := coil, kind := u.kind,
             unit := u.id, data0 := d0, data1 := d1, data2 := d2, data3 := d3 }

/-- A register write that its scope does not allow (R119): discarded and logged. -/
def State.denied (s : State) (p off : Nat) (coil : Option Nat := none) : State :=
  (s.send .regDenied).event .regWriteDenied ⟨.hostPort, p⟩ coil off

/-! ### Outputs that follow from the state -/

/-- Some FATAL or MAINTENANCE entry of the persistent log is not acknowledged (R754). -/
def State.alert (s : State) : Bool := s.nvm.live.plog.any (fun e => e.acked = none)

/-- What GPIO pin `n` does (Table 2.9): whether the module pulls it low. -/
def State.gpioLow (s : State) (n : Nat) : Bool :=
  match s.fld .CL_GPIO_FUNC n with
  | 1 => s.fld .CL_GPIO_OUT n = 0
  | 4 => n = 2 && s.module.tripped = none
  | 6 => n = 3 && s.plate.shown.faults.any (fun e => e.ev.cls = .fatal)
  | _ => false

/-- The levels that the module drives on its edge; with the always-on domain off every pin is released (Table 2.8). -/
def State.pinLevels (s : State) : Outputs :=
  if s.module.aoOn then
    { smbAlertLow := s.alert
      wakeLow := (List.range Config.hostPorts).any (fun p => s.flag .HT_PM_STATUS_WAKE p)
      locate := !s.module.pins.locateN || s.cleat.locate
      gpioLow := (List.range 4).map s.gpioLow
      tdoDriven := s.module.tap = .shiftDr || s.module.tap = .shiftIr }
  else {}

/-- The state with its outputs brought up to date. -/
def State.settle (s : State) : State := { s with outputs := s.pinLevels }

/-- A state from which no message has left yet in this step. -/
def State.silent (s : State) : State := { s with out := [] }

/-- The state with a queue of waiting commands. -/
def State.withQueue (s : State) (q : List Sys2Proof.Instr) : State := { s with pending := q }

/-- A command's meaning as an outcome: its effect from an empty message list on everything but the queue, with the outputs settled (DESIGN CHOICE, log entry 4) (DEDUCED, log entry 6). -/
def commit (s : State) (f : State → State) : Host.Outcome State Fault Refusal :=
  .next ((f s.silent).withQueue s.pending).settle

end Sys2Proof.Machine
end

