-- ==== Sys2Proof/Machine/Cleat.lean ====
section
/-!
DEFINITION. Cleat (chapters 2, 19 and 23): the event log's timers, the NVM journal, the status plate, GPIO claims, MCTP
discovery, the PLDM commands that touch Cleat alone, Gwyn images, SPDM, time and skein verification.
-/
namespace Sys2Proof.Machine

/-- PLDM base completion codes (PRESUMED, DSP0240) and the OEM codes of R756 (PRESUMED, log entry 44). -/
def ccOk : Nat := 0
def ccError : Nat := 1
def ccInvalidData : Nat := 2
def ccNotReady : Nat := 4
def ccClaimed : Nat := 0x80
def ccFenced : Nat := 0x81
def ccAttached : Nat := 0x82
def ccRange : Nat := 0x83
def ccBusy : Nat := 0x84
def ccNotFullMode : Nat := 0x85
def ccFactory : Nat := 0x86
def ccNoTrial : Nat := 0x87

/-- The state after a PLDM response. -/
def State.reply (s : State) (cc : Nat) (data : List Nat := []) : State := s.send (.pldmReply cc data)

/-- A PLDM control: not served while Gwyn restarts (its requester retries, R752), refused with ERROR_NOT_READY until
WAKE_STATE reads READY (R86, R756). -/
def State.pldm (s : State) (f : State → State) : State :=
  if !s.cleatUp then s else if s.ready then f s else s.reply ccNotReady

/-- A PLDM request that Cleat serves in every wake state (R84, R86). -/
def State.served (s : State) (f : State → State) : State := if s.cleatUp then f s else s

/-! ### Watchdog and resumption (R659, R660) -/

/-- Gwyn restarts; a trial ends as a rollback (R759, R760). -/
def execCleatWatchdog (s : State) := commit s (fun s =>
  if s.cleatUp then
    ({ s with cleat := { s.cleat with running := false, trial := false } } : State).event .cleatRestart
  else s)

/-- Gwyn resumes: it appends the events that the hardware queue held and goes on with the journal (R660). -/
def execGwynResume (s : State) := commit s (fun s =>
  if s.module.aoOn && !s.cleat.running && decide (2 < s.module.wakeStep ∨ s.module.wakeStep = 0) then
    let held := s.log.held
    let s : State := { s with cleat := { s.cleat with running := true }, log := { s.log with held := [] } }
    (held.foldl State.detect s).nvmPump
  else s)

/-! ### NVM journal (R656) -/

/-- The update being programmed is complete: the other device's copy now holds it, and the next update starts. -/
def execNvmUpdateDone (s : State) := commit s (fun s =>
  match s.nvm.writing with
  | some (obj, content) =>
    if s.module.aoOn then
      ({ s with nvm := { s.nvm with
          stored := NvmObjects.copy obj content s.nvm.stored
          torn := s.nvm.torn.filter (· ≠ obj)
          seq := SMap.set 0 s.nvm.seq obj ((SMap.get 0 s.nvm.seq obj + 1) % 2 ^ 32)
          writing := none } } : State).nvmPump
    else s
  | none => s)

/-! ### Status plate (Table 2.11, R74) -/

/-- The identity area (Table 2.10). -/
def State.identityArea (s : State) : List Nat :=
  let a := s.cleat.booted != s.cleat.trial
  [s.cleat.serial, b2n a, if a then s.cleat.slotB.version else s.cleat.slotA.version,
   s.fld .CL_CAPACITY_CORES 0, s.fld .CL_CAPACITY_VAULTS 0]

/-- The identity and readings areas are redrawn at most once every 60 s (R74). -/
def State.slowDue (s : State) : Bool :=
  match s.plate.lastSlow with
  | some t => decide (t + 60000000 ≤ s.clockUs)
  | none => true

/-- An update starts: PLATE_BEGIN is journaled with the whole intended content (step 1). A start that carries the state
word or the fault area carries every pending change (R74). -/
def State.plateBegin (s : State) (readings : List Nat) : State :=
  let c : PlateImage := { s.plate.wanted with identity := s.identityArea, readings := readings }
  let n := s.plate.seq + 1
  let pl : Plate := { s.plate with step := 1, seq := n, content := c, wanted := c, slow := true, urgent := false, whole := false }
  ({ s with plate := pl, nvm := { s.nvm with live := { s.nvm.live with plateBegin := some (n, c) } } } : State).journal 3

/-- PLATE_UPDATE_START: no update in progress, the input at 46.0 V or more, and a change due (R57, R74). -/
def execPlateUpdateStart (readings : List Nat) (s : State) := commit s (fun s =>
  if s.cleatUp && !s.module.inputBad && s.plate.step = 0 &&
      (s.plate.urgent || s.plate.whole ||
        ((s.plate.shown.identity != s.identityArea || s.plate.shown.readings != readings) && s.slowDue)) then
    s.plateBegin readings
  else s)

/-- A step of Table 2.11 ends. Steps 1 and 5 end once their journal record is programmed. -/
def execPlateStepDone (s : State) := commit s (fun s =>
  let pl := s.plate
  if !s.cleatUp then s
  else match pl.step with
  | 1 => if s.nvm.stored.plateBegin = some (pl.seq, pl.content) then
      { s with plate := { pl with step := 2, hatch := true } } else s
  | 2 => { s with plate := { pl with step := 3 } }
  | 3 => { s with plate := { pl with step := 4, shown := pl.content } }
  | 4 => ({ s with plate := { pl with step := 5, hatch := false },
                   nvm := { s.nvm with live := { s.nvm.live with plateEnd := pl.seq } } } : State).journal 3
  | 5 => if s.nvm.stored.plateEnd = pl.seq then
      { s with plate := { pl with step := 0, lastSlow := if pl.slow then some s.clockUs else pl.lastSlow } } else s
  | _ => s)

/-- PLATE_REDRAW (Table 23.3): a whole-plate update is wanted. -/
def execPlateRedraw (s : State) := commit s (fun s => s.pldm (fun s =>
  ({ s with plate := { s.plate with whole := true } } : State).reply ccOk))

/-! ### Event timers and readers (R649, R653, R771) -/

/-- The 1 s of an event ends: one entry stands for the occurrences counted in it, if there were any. -/
def execCoalesceExpiry (code : Nat) (u : UnitRef) (coil : Option Nat) (s : State) := commit s (fun s =>
  let key : Event := { code := code, kind := u.kind, unit := u.id, coil := coil }
  if !s.cleatUp then s
  else match s.log.coalescing.find? (fun c => sameEvent c.last key) with
  | some c =>
    let s : State := { s with log := { s.log with coalescing := s.log.coalescing.filter (fun x => !sameEvent x.last key) } }
    if c.count = 0 then s else s.append { c.last with count := c.count }
  | none => s)

/-- The 100 µs of a port's event vector end; entries appended in them raise it now. -/
def execEventVectorHoldoff (p : Nat) (s : State) := commit s (fun s =>
  let due := SMap.get false s.log.due p
  let s : State := { s with log := { s.log with holdoff := SMap.set false s.log.holdoff p false,
                                                due := SMap.set false s.log.due p false } }
  if due && s.flag .CL_EVT_CTL_ENABLE p then s.eventVector p else s)

/-- The next entry that a port has not read and may see, with its position (R652, R771). -/
def State.nextVisible (s : State) (p : Nat) : Option (Nat × LogEntry) :=
  ((s.log.ring.zipIdx s.log.dropped).find? (fun x => decide (s.readPos p ≤ x.2) && s.sees p x.1)).map (fun x => (x.2, x.1))

/-- CL_EVT_POP.GO: the port's read index passes the entry that CL_EVT_ENTRY shows. -/
def execEventPop (p : Nat) (s : State) := commit s (fun s =>
  match s.nextVisible p with
  | some (i, _) => { s with log := { s.log with readAt := SMap.set 0 s.log.readAt p (i + 1) } }
  | none => s)

/-! ### GPIO claims (R64 to R68) -/

/-- The functions of each pin (Table 2.9); any other code is reserved for the pin. -/
def gpioLegal (pin func : Nat) : Bool :=
  decide (pin < 4) && (func = 0 || func = 1 || (func = 2 && pin = 0) || ((func = 4 || func = 5) && pin = 2) ||
    (func = 6 && pin = 3))

/-- A claim or release through a register (`via` 1) or PLDM (2, or 3 with STORE): whether it is refused with CLAIMED,
and the state after it (R66, R67). -/
def State.claimPin (s : State) (pin func via : Nat) : Bool × State :=
  let cur := s.fld .CL_GPIO_FUNC pin
  let held := s.fld .CL_GPIO_VIA pin
  if func = cur then (false, s)
  else if func = 0 then
    if (via = 1) = (held = 1) then (false, (s.setFld .CL_GPIO_FUNC pin 0).setFld .CL_GPIO_VIA pin 0)
    else (true, s)
  else if cur = 0 then (false, (s.setFld .CL_GPIO_FUNC pin func).setFld .CL_GPIO_VIA pin via)
  else (true, s)

/-- CL_GPIO write, through the control port only (R769); a reserved function leaves FUNC unchanged (R17). -/
def execClGpioWrite (p pin func : Nat) (high : Bool) (s : State) := commit s (fun s =>
  if !s.cleatUp || decide (4 ≤ pin) then s
  else if p ≠ s.module.controlPort then s.denied p (0x100 + 8 * pin)
  else
    let s := s.setFld .CL_GPIO_OUT pin (b2n high)
    if gpioLegal pin func then
      let r := s.claimPin pin func 1
      r.2.setFld .CL_GPIO_STATUS pin (b2n r.1)
    else s)

/-- GPIO_CLAIM: a claim or release through PLDM; STORE keeps the claim in NVM, and a release drops the stored one. -/
def execGpioClaim (pin func : Nat) (store : Bool) (s : State) := commit s (fun s => s.pldm (fun s =>
  if !gpioLegal pin func then s.reply ccInvalidData
  else
    let r := s.claimPin pin func (if store then 3 else 2)
    if r.1 then r.2.reply ccClaimed
    else
      let old := SMap.get 0 r.2.nvm.live.gpio pin
      let keep := if func = 0 then 0 else if store && r.2.fld .CL_GPIO_VIA pin ≠ 1 then func else old
      let s := if keep = old then r.2 else
        (({ r.2 with nvm := { r.2.nvm with live := { r.2.nvm.live with gpio := SMap.set 0 r.2.nvm.live.gpio pin keep } } } : State).setFld
          .CL_GPIO_VIA pin (if func = 0 then 0 else 3)).journal 4
      s.reply ccOk))

/-! ### Skein verification (R767, R743) -/

/-- CL_SKV_CMD.GO: one verification runs wafer-wide; only the coil's home port may start one (R769). -/
def execSkeinVerify (p coil : Nat) (s : State) := commit s (fun s =>
  if !s.cleatUp || decide (32 ≤ coil) then s
  else if s.homeOf coil ≠ some p then s.denied p 0x300 (some coil)
  else if s.flag .CL_SKV_CMD_BUSY 0 then s.setFld .CL_SKV_CMD_STATUS 0 1
  else
    let k : SkeinCheck := { coil := coil, file := s.fld .CL_SKV_FILE_DVA 0, base := s.fld .CL_SKV_BASE_LOAD_BASE 0, port := p }
    ({ s with cleat := { s.cleat with skv := some k } } : State)
      |>.setFld .CL_SKV_CMD_COIL 0 coil |>.setFld .CL_SKV_CMD_BUSY 0 1)

/-- The last four verified ranges of a coil are kept (R767). -/
def addVerified (v : Verified) (l : List Verified) : List Verified :=
  let mine := l.filter (·.coil = v.coil)
  let drop := if mine.length < 4 then none else mine.head?
  (match drop with
   | some d => l.erase d
   | none => l) ++ [v]

/-- The verification ends with the outcome of its checks; one whose range was invalidated meanwhile ends with MISMATCH
(R772). -/
def execSkeinVerifyDone (status size : Nat) (s : State) := commit s (fun s =>
  match s.cleat.skv with
  | none => s
  | some k =>
    let st := if k.lapsed then 5 else status % 8
    let s := (({ s with cleat := { s.cleat with skv := none } } : State).setFld .CL_SKV_CMD_BUSY 0 0).setFld
      .CL_SKV_CMD_STATUS 0 st
    if st = 0 then
      { s with cleat := { s.cleat with verified := addVerified ⟨k.coil, k.base, size⟩ s.cleat.verified } }
    else s)

/-! ### Time (R763, R764) -/

/-- The whole second nearest to a time in ns. -/
def nearestSecond (t : Nat) : Nat := (t + 500000000) / 1000000000 * 1000000000

/-- A rejected or missing edge: eight in a row leave LOCKED for HOLDOVER. -/
def State.tsyncMiss (s : State) : State :=
  let n := s.cleat.missed + 1
  { s with cleat := { s.cleat with accepted := 0, missed := n,
                                   sync := if s.cleat.sync = .locked && decide (8 ≤ n) then .holdover else s.cleat.sync } }

/-- A TSYNC edge, `offsetNs` from the second that Cleat expects: accepted within ±100 µs. The fourth accepted edge in a row
locks and steps the time to the whole second; in LOCKED a waiting SET_TIME applies at the edge (DEDUCED, log entry 47). -/
def execTsyncEdge (offsetNs : Int) (s : State) := commit s (fun s =>
  if !s.module.aoOn then s
  else
    let s : State := { s with cleat := { s.cleat with sawEdge := true } }
    if offsetNs.natAbs ≤ 100000 then
      let n := s.cleat.accepted + 1
      let s : State := { s with cleat := { s.cleat with accepted := n, missed := 0 } }
      if s.cleat.sync = .locked then
        match s.cleat.pendingTime with
        | some t => ({ s with cleat := { s.cleat with pendingTime := none } } : State).setFld .CL_TIME_UTC_NS 0 t
        | none => s
      else if 4 ≤ n then
        ({ s with cleat := { s.cleat with sync := .locked } } : State).setFld .CL_TIME_UTC_NS 0
          (nearestSecond (s.fld .CL_TIME_UTC_NS 0))
      else s
    else (s.bump .CL_TIME_STATUS_REJECTED 0 1).tsyncMiss)

/-- An expected edge does not arrive. -/
def execTsyncEdgeMissed (s : State) := commit s (fun s =>
  if s.module.aoOn && s.cleat.sawEdge then s.tsyncMiss else s)

/-- SET_TIME: at the next edge in LOCKED, otherwise at once; either way VALID is set. -/
def execSetTime (ns : Nat) (s : State) := commit s (fun s => s.pldm (fun s =>
  let s := if s.cleat.sync = .locked then { s with cleat := { s.cleat with pendingTime := some (ns % 2 ^ 64) } }
    else s.setFld .CL_TIME_UTC_NS 0 ns
  (s.setFld .CL_TIME_STATUS_VALID 0 1).reply ccOk))

/-! ### Locate (R52, R755, R766) -/

/-- LOCATE_N has changed for 10 ms. -/
def execLocateN (low : Bool) (s : State) := commit s (fun s =>
  { s with module := { s.module with pins := { s.module.pins with locateN := !low } } })

/-- The LOCATE effecter: OFF or ON, with a timeout in seconds, 0 for none (DEDUCED, log entry 45). -/
def execLocate (on : Bool) (timeout : Nat) (s : State) := commit s (fun s => s.pldm (fun s =>
  if 65535 < timeout then s.reply ccInvalidData
  else ({ s with cleat := { s.cleat with locate := on, locateTimed := on && decide (0 < timeout) } } : State).reply ccOk))

/-- The effecter's timeout expires. -/
def execLocateTimeout (s : State) := commit s (fun s =>
  if s.cleatUp && s.cleat.locateTimed then { s with cleat := { s.cleat with locate := false, locateTimed := false } } else s)

/-! ### OSFP modules (R768): 0 no module, 1 low power, 2 high power, 3 faulted -/

/-- An inserted module is identified; it goes to high power when its port is enabled. -/
def execOsfpInsert (b cage : Nat) (s : State) := commit s (fun s =>
  if s.cleatUp && decide (b < 6) && decide (cage < 4) then
    let mode := if s.flag .BD_CTL_ENABLE b then 2 else 1
    { s with cleat := { s.cleat with osfp := SMap.set 0 s.cleat.osfp (4 * b + cage) mode } }
  else s)

/-- A module reports a fault or a temperature alarm: its lanes fail at the next training (R665). -/
def execOsfpFault (b cage : Nat) (s : State) := commit s (fun s =>
  if s.cleatUp && SMap.get 0 s.cleat.osfp (4 * b + cage) ≠ 0 then
    { s with cleat := { s.cleat with osfp := SMap.set 0 s.cleat.osfp (4 * b + cage) 3 } }
  else s)

/-! ### MCTP control (R751) -/

/-- Set Endpoint ID; the null and broadcast IDs are refused (PRESUMED, DSP0236). -/
def execSetEndpointId (eid : Nat) (s : State) := commit s (fun s => s.served (fun s =>
  if eid = 0 ∨ 255 ≤ eid then s.send (.mctpReply [ccInvalidData])
  else ({ s with cleat := { s.cleat with eid := eid } } : State).send (.mctpReply [ccOk, eid])))

/-- Get Endpoint ID. -/
def execGetEndpointId (s : State) := commit s (fun s => s.served (fun s => s.send (.mctpReply [ccOk, s.cleat.eid])))

/-- Get Endpoint UUID. -/
def execGetEndpointUuid (s : State) := commit s (fun s =>
  s.served (fun s => s.send (.mctpReply [ccOk, Config.uuid s.cleat.serial])))

/-- Get MCTP Version Support. -/
def execGetMctpVersionSupport (type : Nat) (s : State) := commit s (fun s =>
  s.served (fun s => s.send (.mctpReply [ccOk, Config.mctpVersions type])))

/-- Get Message Type Support: control, PLDM, SPDM and secured messages. -/
def execGetMessageTypeSupport (s : State) := commit s (fun s =>
  s.served (fun s => s.send (.mctpReply [ccOk, 0x00, 0x01, 0x05, 0x06])))

/-! ### PLDM platform monitoring (R753, R754) -/

/-- The version of the Gwyn image that runs. -/
def State.gwynVersion (s : State) : Nat :=
  if s.cleat.booted != s.cleat.trial then s.cleat.slotB.version else s.cleat.slotA.version

/-- GetPDR (DESIGN CHOICE, log entry 2). -/
def execGetPdr (handle : Nat) (s : State) := commit s (fun s => s.pldm (fun s =>
  s.reply ccOk [Config.pdr s.gwynVersion handle]))

/-- GetPDRRepositoryInfo. -/
def execGetPdrRepositoryInfo (s : State) := commit s (fun s => s.pldm (fun s =>
  s.reply ccOk [Config.pdrInfo s.gwynVersion]))

/-- GetNumericEffecterValue of the power caps (R755). -/
def execGetNumericEffecterValue (id : Nat) (s : State) := commit s (fun s => s.pldm (fun s =>
  if id = 0x1001 then s.reply ccOk [s.cleat.capVolatile]
  else if id = 0x1002 then s.reply ccOk [s.nvm.live.cap]
  else s.reply ccInvalidData))

/-- GetStateEffecterStates of LOCATE (R755). -/
def execGetStateEffecterStates (id : Nat) (s : State) := commit s (fun s => s.pldm (fun s =>
  if id = 0x1010 then s.reply ccOk [b2n s.cleat.locate] else s.reply ccInvalidData))

/-- SetEventReceiver. -/
def execSetEventReceiver (eid : Nat) (s : State) := commit s (fun s => s.pldm (fun s =>
  ({ s with cleat := { s.cleat with receiver := some eid } } : State).reply ccOk))

/-! ### Kaorman control commands that touch Cleat alone (Table 23.3) -/

/-- SELF_TEST_MODE. -/
def execSelfTestMode (m : Nat) (s : State) := commit s (fun s => s.pldm (fun s =>
  match m with
  | 0 => (({ s with nvm := { s.nvm with live := { s.nvm.live with testMode := .quick } } } : State).journal 7).reply ccOk
  | 1 => (({ s with nvm := { s.nvm with live := { s.nvm.live with testMode := .once } } } : State).journal 7).reply ccOk
  | 2 => (({ s with nvm := { s.nvm with live := { s.nvm.live with testMode := .always } } } : State).journal 7).reply ccOk
  | _ => s.reply ccInvalidData))

/-- The cores, vaults and routers that a list of units names (R629). -/
def unitsMap (us : List UnitRef) : StopMap :=
  us.foldl (fun m u => match u.kind with
    | .core => { m with cores := insertNat u.id m.cores }
    | .ply => { m with cores := unionNat m.cores (span (8 * u.id) 8) }
    | .bay => { m with cores := unionNat m.cores (span (32 * u.id) 32) }
    | .vault => { m with vaults := insertNat u.id m.vaults }
    | .router => { m with routers := insertNat u.id m.routers }
    | _ => m) {}

/-- STOPPER_CLEAR: removes in-service entries, together with a full-mode request (R89). Units beyond 64 are no valid
request. -/
def execStopperClear (full : Bool) (units : List UnitRef) (s : State) := commit s (fun s => s.pldm (fun s =>
  let m := unitsMap units
  if 64 < units.length then s.reply ccInvalidData
  else if !full then s.reply ccNotFullMode
  else if m.cores.any s.cleat.factory.cores.contains || m.vaults.any s.cleat.factory.vaults.contains ||
      m.routers.any s.cleat.factory.routers.contains then s.reply ccFactory
  else
    let live := s.nvm.live
    let f : StopMap := { cores := live.fences.cores.filter (fun x => !m.cores.contains x)
                         vaults := live.fences.vaults.filter (fun x => !m.vaults.contains x)
                         routers := live.fences.routers.filter (fun x => !m.routers.contains x) }
    let live := { live with fences := f, causes := live.causes.filter (fun c => !units.contains c.unit),
                            testMode := if live.testMode = .always then .always else .once }
    ((({ s with nvm := { s.nvm with live := live } } : State).journal 1).journal 7).reply ccOk))

/-- CONTROL_PORT: stored, for the next wake (R118). -/
def execControlPort (p : Nat) (s : State) := commit s (fun s => s.pldm (fun s =>
  if 8 ≤ p then s.reply ccRange
  else (({ s with nvm := { s.nvm with live := { s.nvm.live with controlPort := p } } } : State).journal 7).reply ccOk))

/-- BEND_SETTINGS: stored, as the "ld" values of Table 20.13 at the next wake. -/
def execBendSettings (b ctl : Nat) (routes : List Nat) (s : State) := commit s (fun s => s.pldm (fun s =>
  if 6 ≤ b then s.reply ccRange
  else
    let v : BendSettings := { ctl := ctl % 2 ^ 26, routes := (routes.take 64).map (· % 32) }
    (({ s with nvm := { s.nvm with live := { s.nvm.live with bend := SMap.set {} s.nvm.live.bend b v } } } : State).journal
      7).reply ccOk))

/-- EVENT_READ: up to 8 entries of the ring or the persistent log from an index on, in SEQ order. -/
def execEventRead (persistent : Bool) (index count : Nat) (s : State) := commit s (fun s => s.pldm (fun s =>
  let l := if persistent then s.nvm.live.plog.map (·.entry) else s.log.ring
  if 8 < count ∨ l.length < index + count then s.reply ccRange
  else (s.reply ccOk).send (.events (((l.drop index).take count).map (·.ev)))))

/-- EVENT_ACK: acknowledges the persistent-log entry of a SEQ; the fault area follows at the next wake (R648, R765). -/
def execEventAck (wake index : Nat) (s : State) := commit s (fun s => s.pldm (fun s =>
  let hit := fun (e : PlogEntry) => decide (e.entry.ev.wake = wake) && decide (e.entry.ev.index = index)
  if s.nvm.live.plog.any hit then
    (({ s with nvm := { s.nvm with live := { s.nvm.live with plog := s.nvm.live.plog.map (fun e =>
        if hit e && e.acked = none then { e with acked := some s.module.wakeCount } else e) } } } : State).journal 2).reply ccOk
  else s.reply ccRange))

/-- EVENT_CONFIG: the PLDM threshold. -/
def execEventConfig (threshold : Nat) (s : State) := commit s (fun s => s.pldm (fun s =>
  if 2 < threshold then s.reply ccRange
  else ({ s with cleat := { s.cleat with pldmThreshold := threshold } } : State).reply ccOk))

/-- MAP_READ: 0 factory, 1 journal with its cause records, 2 merged, 3 live (R639, R642). -/
def execMapRead (which : Nat) (s : State) := commit s (fun s => s.pldm (fun s =>
  match which with
  | 0 => (s.reply ccOk).send (.maps s.cleat.factory [])
  | 1 => (s.reply ccOk).send (.maps s.nvm.live.fences s.nvm.live.causes)
  | 2 => (s.reply ccOk).send (.maps s.cleat.merged [])
  | 3 => (s.reply ccOk).send (.maps s.fences [])
  | _ => s.reply ccInvalidData))

/-! ### Gwyn images (R757 to R761) -/

/-- The slot `b` (A when false) holding an image. -/
def State.setSlot (s : State) (b : Bool) (i : Image) : State :=
  if b then { s with cleat := { s.cleat with slotB := i } } else { s with cleat := { s.cleat with slotA := i } }

def State.slot (s : State) (b : Bool) : Image := if b then s.cleat.slotB else s.cleat.slotA

/-- The trial image becomes the booted image, and its copy over the other slot starts: the slot being copied to fails
verification until the copy is done (R760). -/
def State.commitTrial (s : State) : State :=
  let b := !s.cleat.booted
  let s : State := { s with cleat := { s.cleat with booted := b, trial := false, copying := true } }
  s.setSlot (!b) { s.slot (!b) with valid := false }

def execFwCommit (s : State) := commit s (fun s => s.pldm (fun s =>
  if s.cleat.trial then s.commitTrial.reply ccOk else s.reply ccNoTrial))

/-- Gwyn resumes the previous image by a restart (R759, R760). -/
def execFwRollback (s : State) := commit s (fun s => s.pldm (fun s =>
  if s.cleat.trial then
    (({ s with cleat := { s.cleat with trial := false, running := false } } : State).reply ccOk).event .cleatRestart
  else s.reply ccNoTrial))

/-- 600 s of trial without a restart commit it. -/
def execTrialTimeout (s : State) := commit s (fun s =>
  if s.cleatUp && s.cleat.trial then s.commitTrial else s)

/-- The copy of the committed image over the other slot completes. -/
def execImageCopyDone (s : State) := commit s (fun s =>
  if s.cleatUp && s.cleat.copying then
    ({ s with cleat := { s.cleat with copying := false } } : State).setSlot (!s.cleat.booted) (s.slot s.cleat.booted)
  else s)

/-- FUSE_MIN_VERSION. -/
def execFuseMinVersion (v : Nat) (s : State) := commit s (fun s => s.pldm (fun s =>
  if s.cleat.trial || s.cleat.phase ≠ .idle then s.reply ccBusy
  else if s.cleat.fusedMin < v ∧ v ≤ s.cleat.slotA.version ∧ v ≤ s.cleat.slotB.version ∧ s.cleat.raises < 63 then
    ({ s with cleat := { s.cleat with fusedMin := v, raises := s.cleat.raises + 1 } } : State).reply ccOk
  else s.reply ccRange))

/-- The completion codes of DSP0267 (PRESUMED). -/
def fwNotInUpdate : Nat := 0x80
def fwAlreadyInUpdate : Nat := 0x81
def fwInvalidState : Nat := 0x84

/-- RequestUpdate: one update at a time, and none during a trial. -/
def execRequestUpdate (s : State) := commit s (fun s => s.served (fun s =>
  if s.cleat.phase ≠ .idle || s.cleat.trial then s.reply fwAlreadyInUpdate
  else ({ s with cleat := { s.cleat with phase := .requested, received := 0 } } : State).reply ccOk))

/-- PassComponentTable: the one component is GWYN, identifier 1. -/
def execPassComponentTable (id : Nat) (s : State) := commit s (fun s => s.served (fun s =>
  if s.cleat.phase ≠ .requested then s.reply (if s.cleat.phase = .idle then fwNotInUpdate else fwInvalidState)
  else if id = 1 then ({ s with cleat := { s.cleat with phase := .tablePassed } } : State).reply ccOk [0]
  else s.reply ccOk [1]))

/-- UpdateComponent: the target is the slot that is not booted; in RECOVERY it is slot A. -/
def execUpdateComponent (id : Nat) (s : State) := commit s (fun s => s.served (fun s =>
  if s.cleat.phase ≠ .tablePassed then s.reply (if s.cleat.phase = .idle then fwNotInUpdate else fwInvalidState)
  else if id = 1 then
    let t := if s.module.wakeState = .recovery then false else !s.cleat.booted
    ({ s with cleat := { s.cleat with phase := .receiving, received := 0, target := t } } : State).reply ccOk [0]
  else s.reply ccOk [1]))

/-- Data of the image arrives and is written to the target slot; the last of it is verified: signature, version at or
above the fused minimum, at most 24 MiB (R758). -/
def execFirmwareDataReceived (n : Nat) (last signed : Bool) (version : Nat) (s : State) := commit s (fun s => s.served (fun s =>
  if s.cleat.phase ≠ .receiving then s
  else
    let got := s.cleat.received + n
    let s := ({ s with cleat := { s.cleat with received := got } } : State).setSlot s.cleat.target { valid := false, version := version }
    if !last then s
    else if signed && decide (s.cleat.fusedMin ≤ version) && decide (got ≤ 24 * 2 ^ 20) then
      (({ s with cleat := { s.cleat with phase := .verified } } : State).setSlot s.cleat.target
        { valid := true, version := version }).send (.fwComplete true)
    else ({ s with cleat := { s.cleat with phase := .idle } } : State).send (.fwComplete false)))

/-- ActivateFirmware starts a trial by a restart of Gwyn (R759); an image written in RECOVERY waits for the next cold
wake (R758). -/
def execActivateFirmware (s : State) := commit s (fun s => s.served (fun s =>
  if s.cleat.phase ≠ .verified then s.reply (if s.cleat.phase = .idle then fwNotInUpdate else fwInvalidState)
  else if s.module.wakeState = .recovery then
    ({ s with cleat := { s.cleat with phase := .idle } } : State).reply ccOk
  else
    (({ s with cleat := { s.cleat with phase := .idle, trial := true, running := false } } : State).reply ccOk).event
      .cleatRestart))

/-! ### SPDM (R762) -/

/-- SPDM requests are served outside RECOVERY (R84). -/
def State.spdm (s : State) (f : State → State) : State :=
  if s.cleatUp && s.module.wakeState ≠ .recovery then f s else s

/-- GET_CERTIFICATE: slot 0 holds the chain, the other slots are empty. -/
def execGetCertificate (slot : Nat) (s : State) := commit s (fun s => s.spdm (fun s =>
  if slot = 0 then s.send (.spdmReply true [Config.signature [s.cleat.serial]]) else s.send (.spdmReply false [])))

/-- CHALLENGE. -/
def execChallenge (nonce : Nat) (s : State) := commit s (fun s => s.spdm (fun s =>
  s.send (.spdmReply true [Config.signature [s.cleat.serial, nonce]])))

/-- The content of a measurement (Table 23.4). -/
def State.measurement (s : State) (index : Nat) : Option (List Nat) :=
  match index with
  | 1 => some [Config.sha384 [1]]
  | 2 => some [Config.sha384 [2, (s.slot s.cleat.booted).version], (s.slot s.cleat.booted).version]
  | 3 => some [Config.sha384 [2, (s.slot (!s.cleat.booted)).version], (s.slot (!s.cleat.booted)).version]
  | 4 => some [s.cleat.fusedMin, s.cleat.raises]
  | 5 => some [Config.sha384 ([5, s.nvm.live.controlPort, s.nvm.live.cap] ++ s.nvm.live.gpio.map (·.2) ++
      s.nvm.live.bend.map (·.2.ctl))]
  | 6 => some [Config.sha384 (s.cleat.merged.cores ++ s.cleat.merged.vaults ++ s.cleat.merged.routers)]
  | 7 => some [Config.sha384 [7, (s.slot s.cleat.booted).version]]
  | _ => none

/-- GET_MEASUREMENTS. -/
def execGetMeasurements (index : Nat) (s : State) := commit s (fun s => s.spdm (fun s =>
  match s.measurement index with
  | some m => s.send (.spdmReply true (m ++ [Config.signature m]))
  | none => s.send (.spdmReply false [])))

/-- KEY_EXCHANGE opens a session; beyond 4 it is answered Busy. -/
def execKeyExchange (s : State) := commit s (fun s => s.spdm (fun s =>
  if s.cleat.sessions.length < 4 then
    ({ s with cleat := { s.cleat with sessions := s.cleat.sessions ++ [s.cleat.nextSession],
                                      nextSession := s.cleat.nextSession + 1 } } : State).send (.spdmReply true [s.cleat.nextSession])
  else s.send (.spdmReply false [])))

/-- HEARTBEAT keeps a session alive. -/
def execHeartbeat (session : Nat) (s : State) := commit s (fun s => s.spdm (fun s =>
  s.send (.spdmReply (s.cleat.sessions.contains session) [session])))

/-- KEY_UPDATE refreshes the keys of a session. -/
def execKeyUpdate (session : Nat) (s : State) := commit s (fun s => s.spdm (fun s =>
  if s.cleat.sessions.contains session then
    ({ s with cleat := { s.cleat with keyGen := SMap.set 0 s.cleat.keyGen session (SMap.get 0 s.cleat.keyGen session + 1) } } : State).send
      (.spdmReply true [session])
  else s.send (.spdmReply false [session])))

end Sys2Proof.Machine
end

