-- ==== Sys2Proof/Machine/Lines.lean ====
section
/-!
DEFINITION. The wafer physical address map (Table 24.1) and the copies of lines that device caches hold.
-/
namespace Sys2Proof.Machine

/-! ### Address map (R773) -/

/-- What a WPA names, with the offset inside it. -/
inductive Place where
  | spool (vault off : Nat)
  | tile (core off : Nat)
  | scratch (ply off : Nat)
  | rig (off : Nat)
  | regs (off : Nat)
  | host (port addr : Nat)
  | splice (bend window off : Nat)
  | unmapped
  deriving DecidableEq, Repr

def spoolSize : Nat := 0x12000000000
def vaultSize : Nat := 0x18000000
def tileBase : Nat := 0x200000000000
def scratchBase : Nat := 0x210000000000
def rigBase : Nat := 0x220000000000
def regBase : Nat := 0x300000000000
def hostBase (p : Nat) : Nat := (p + 1) * 2 ^ 48
def spliceBase (b : Nat) : Nat := (b + 16) * 2 ^ 48

/-- Table 24.1. -/
def placeOf (a : Nat) : Place :=
  if a < spoolSize then .spool (a / vaultSize) (a % vaultSize)
  else if a < tileBase then .unmapped
  else if a < tileBase + 0x180000000 then .tile ((a - tileBase) / 0x200000) ((a - tileBase) % 0x200000)
  else if a < scratchBase then .unmapped
  else if a < scratchBase + 0x180000000 then .scratch ((a - scratchBase) / 0x1000000) ((a - scratchBase) % 0x1000000)
  else if a < rigBase then .unmapped
  else if a < rigBase + 0x400000 then .rig (a - rigBase)
  else if a < regBase then .unmapped
  else if a < regBase + 0x100000000 then .regs (a - regBase)
  else if a < 2 ^ 48 then .unmapped
  else if a < 9 * 2 ^ 48 then .host (a / 2 ^ 48 - 1) (a % 2 ^ 48)
  else if a < 16 * 2 ^ 48 then .unmapped
  else if a < 22 * 2 ^ 48 then .splice (a / 2 ^ 48 - 16) (a % 2 ^ 48 / 2 ^ 40) (a % 2 ^ 40)
  else .unmapped

/-- The unit of the Net that serves a WPA, for a requester in bay `k`. -/
def unitOf (k : Nat) : Place → UnitRef
  | .spool v _ => ⟨.vault, v⟩
  | .tile c _ => ⟨.core, c⟩
  | .scratch p _ => ⟨.ply, p⟩
  | .rig _ => ⟨.central, 0⟩
  | .regs off => if off < 0x10000000 then ⟨.central, 1⟩ else ⟨.bay, (off - 0x10000000) / 0x1000000⟩
  | .host p _ => ⟨.hostPort, p⟩
  | .splice b _ _ => ⟨.bendPort, b⟩
  | .unmapped => ⟨.bay, k⟩

/-- The host port whose window a line lies in. -/
def linePort (line : Nat) : Option Nat :=
  match placeOf (64 * line) with
  | .host p _ => some p
  | _ => none

/-- The vault that is the home slice of a line. -/
def lineVault (line : Nat) : Option Nat :=
  match placeOf (64 * line) with
  | .spool v _ => some v
  | _ => none

/-- The line of a host address of port `p`. -/
def hostLine (p addr : Nat) : Nat := (hostBase p + addr) / 64

/-- The router through which a host port attaches is fenced, and the port is unreachable (R201). -/
def State.portCut (s : State) (p : Nat) : Bool := s.fences.routers.contains (s.fld .HT_ID_BAY p)

/-- The host port answers requests of the device: its link is up and ready, it is reachable, neither in Port Hold nor in D3, and no secure CXL
stream is missing that REQUIRE_CXL asks for (R102, R132, R159, R173). -/
def State.hostUp (s : State) (p : Nat) : Bool :=
  (s.port p).linkUp && !s.flag .HT_HOLD_STATUS_HOLD p && s.flag .HT_LINK_STATUS_READY p && !s.portCut p &&
    s.fld .HT_PM_STATUS_DSTATE p ≠ 3 && !(s.flag .HT_IDE_CTL_REQUIRE_CXL p && !s.flag .HT_IDE_STATUS_CXL_SECURE p)

/-- The record of a core. -/
def State.core (s : State) (c : Nat) : Core := SMap.get {} s.cores c
def State.setCore (s : State) (c : Nat) (v : Core) : State := { s with cores := SMap.set {} s.cores c v }

/-- The record of a Bend port. -/
def State.bend (s : State) (b : Nat) : BendPort := SMap.get {} s.bends b
def State.setBend (s : State) (b : Nat) (v : BendPort) : State := { s with bends := SMap.set {} s.bends b v }

/-- The edge bays of Table 1.2, primary and alternate: host ports H0 to H7, Bend ports B0 to B5. -/
def hostBays : List (Nat × Nat) := [(1, 2), (4, 5), (6, 7), (9, 10), (85, 86), (88, 89), (90, 91), (93, 94)]
def bendBays : List (Nat × Nat) := [(12, 24), (36, 48), (60, 72), (23, 35), (47, 59), (71, 83)]

/-! ### Copies in device caches -/

/-- Whether a ply holds a copy that `f` names. -/
def Ply.holds (y : Ply) (line : Nat) : Bool := y.cache.any (fun e => e.1 = line) || y.victim.any (fun e => e.1 = line)

/-- The copy of a line in a ply's cache or victim cache. -/
def Ply.copy (y : Ply) (line : Nat) : Option CLine :=
  match y.cache.find? (fun e => e.1 = line) with
  | some e => some e.2
  | none => (y.victim.find? (fun e => e.1 = line)).map (·.2)

/-- A ply's caches without the copies that `f` names, and how many of those were dirty. -/
def Ply.drop (y : Ply) (f : Nat → CLine → Bool) : Nat × Ply :=
  let dirty := fun (e : Nat × CLine) => f e.1 e.2 && decide (e.2.st = .m)
  ((y.cache.filter dirty).length + (y.victim.filter dirty).length,
   { y with cache := y.cache.filter (fun e => !f e.1 e.2), victim := y.victim.filter (fun e => !f e.1 e.2) })

/-- Every ply's caches without the copies that `f` names, and how many of those were dirty. -/
def dropCopies (plies : SMap Ply) (f : Nat → CLine → Bool) : Nat × SMap Ply :=
  plies.foldr (fun e acc =>
    let r := e.2.drop f
    (acc.1 + r.1, if r.2 = ({} : Ply) then acc.2 else (e.1, r.2) :: acc.2)) (0, [])

/-- L1D copies and reservations at ply caches of lines that their ply no longer holds are gone too (R304, R394). -/
def State.pruneL1 (s : State) : State :=
  s.cores.foldl (fun s e =>
    let gone := fun (line : Nat) => (match placeOf (64 * line) with
      | .scratch _ _ => false
      | _ => true) && !(s.ply (plyOfCore e.1)).holds line
    let rsv := match e.2.rsv with
      | some r => if !r.atTarget && gone (r.base / 64) then none else some r
      | none => none
    if e.2.l1d.any (fun x => gone x.1) || rsv ≠ e.2.rsv then
      s.setCore e.1 { e.2 with l1d := e.2.l1d.filter (fun x => !gone x.1), rsv := rsv }
    else s) s

/-- The state without the copies that `f` names, and how many of those were dirty. -/
def State.dropCopies (s : State) (f : Nat → CLine → Bool) : Nat × State :=
  let r := Machine.dropCopies s.plies f
  (r.1, ({ s with plies := r.2 } : State).pruneL1)

/-- The dirty copies that `f` names, with their lines. -/
def State.dirtyCopies (s : State) (f : Nat → CLine → Bool) : List (Nat × CLine) :=
  s.plies.flatMap (fun e => (e.2.cache ++ e.2.victim).filter (fun x => f x.1 x.2 && decide (x.2.st = .m)))

/-- The coherent content of a line: the dirty copy of the one holder, else what its home holds (R332). -/
def State.cohLine (s : State) (line : Nat) : LineData :=
  match s.dirtyCopies (fun l c => l = line && !c.str) with
  | (_, c) :: _ => c.data
  | [] => s.lineAt (64 * line)

/-- `n` bytes of coherent memory from an address inside one line. -/
def State.cohLoad (s : State) (a n : Nat) : Nat := (s.cohLine (a / 64)).toNat >>> (8 * (a % 64)) % 2 ^ (8 * n)

/-- The plies of a bay that hold a copy of a line. -/
def State.holdersInBay (s : State) (k line : Nat) : List Nat :=
  (span (4 * k) 4).filter (fun y => (s.ply y).holds line)

end Sys2Proof.Machine
end

