-- ==== Sys2Proof/Machine/Link.lean ====
section
/-!
DEFINITION. The sending side of a Bend port (chapter 20): packets and their cells, flits and their CRC, tags, message blocks, credits,
and the order in which waiting requests leave.
-/
namespace Sys2Proof.Machine

/-! ### Packets (Tables 20.5, 20.7 and 20.8) -/

def opRd : Nat := 1
def opWr : Nat := 2
def opAtom : Nat := 3
def opWfence : Nat := 4
def opMsg : Nat := 5
def opRdData : Nat := 8
def opCmp : Nat := 9
def opAtomData : Nat := 10

/-- The operations that travel as responses. -/
def isResponse (opc : Nat) : Bool := opc = opRdData || opc = opCmp || opc = opAtomData

/-- The virtual channel of a packet. -/
def BPkt.vc (p : BPkt) : Nat := (if p.opc = opMsg then 4 else if isResponse p.opc then 2 else 0) + b2n p.dl

/-- The cells of a packet, `none` for a reserved operation. -/
def cellCount (opc len status : Nat) : Option Nat :=
  if opc = opRd ∨ opc = opWfence ∨ opc = opCmp then some 1
  else if opc = opWr then some (1 + ceilDiv len 16)
  else if opc = opAtom then some 2
  else if opc = opMsg then some 17
  else if opc = opRdData then some (if status = 0 then 1 + ceilDiv len 16 else 1)
  else if opc = opAtomData then some (if status = 0 then 2 else 1)
  else none

def BPkt.cells (p : BPkt) : Nat := (cellCount p.opc p.len p.status).getD 1

/-- Whether an operation carries LEN_M1. -/
def hasLen (opc : Nat) : Bool := opc = opRd || opc = opWr || opc = opRdData

/-- The header words. -/
def BPkt.word0 (p : BPkt) : Nat :=
  p.opc + p.dst * 2 ^ 4 + p.src * 2 ^ 10 + p.dstPort * 2 ^ 16 + p.retPort * 2 ^ 19 + b2n p.dl * 2 ^ 22 + p.tag * 2 ^ 24 + p.entry * 2 ^ 36 +
    p.hops * 2 ^ 44 + p.status * 2 ^ 48 + p.coil * 2 ^ 52
def BPkt.word1 (p : BPkt) : Nat :=
  p.off + (if hasLen p.opc && p.len != 0 then (p.len - 1) * 2 ^ 40 else 0) + p.atop * 2 ^ 48 + p.asz * 2 ^ 52

/-- The packet as consecutive cells, the header cell lowest. -/
def BPkt.image (p : BPkt) : Nat := p.word0 + p.word1 * 2 ^ 64 + p.data * 2 ^ 128

/-- The packet whose header cell is `h`; `none` if it is malformed: a reserved operation, bit or port (DEDUCED, log entry 76). -/
def pktOf (h : Nat) : Option BPkt :=
  let w0 := h % 2 ^ 64
  let w1 := h >>> 64 % 2 ^ 64
  let opc := bits w0 3 0
  let p : BPkt := { opc := opc, dst := bits w0 9 4, src := bits w0 15 10, dstPort := bits w0 18 16, retPort := bits w0 21 19, dl := bit w0 22,
                    tag := bits w0 35 24, entry := bits w0 43 36, hops := bits w0 47 44, status := bits w0 51 48, coil := bits w0 56 52,
                    off := bits w1 39 0, len := if hasLen opc then bits w1 47 40 + 1 else 0, atop := bits w1 51 48, asz := bits w1 53 52 }
  if (cellCount opc p.len p.status).isNone || bit w0 23 || bits w0 63 57 ≠ 0 || bits w1 63 54 ≠ 0 || decide (6 ≤ p.dstPort) ||
      decide (6 ≤ p.retPort) || decide (5 < p.status) || (!isResponse opc && p.status != 0) || decide (12 < p.atop) then none
  else some p

/-! ### Flits (R670, R671) -/

/-- One bit of the CRC-64, the register held with its highest coefficient in bit 0 because the flit is sent least significant bit first. -/
def crcBits : Nat → Nat → Nat → Nat
  | 0, _, c => c
  | n + 1, x, c => crcBits n (x / 2) (if (c + x) % 2 = 1 then c / 2 ^^^ 0xC96C5795D7870F42 else c / 2)

/-- The CRC of bytes 0 to 247, complemented (DEDUCED, log entry 74). -/
def flitCrc (x : Nat) : Nat := crcBits 1984 x (2 ^ 64 - 1) ^^^ (2 ^ 64 - 1)

/-- The header's fields (Table 20.3). -/
def flitHeader (ty seq ack : Nat) (ackValid : Bool) (vc freed : Nat) : Nat :=
  ty + seq * 2 ^ 4 + ack * 2 ^ 16 + b2n ackValid * 2 ^ 28 + vc * 2 ^ 29 + freed * 2 ^ 32

/-- A flit of type `ty` leaves port `b`: its header carries the latest ACK and the FREED count of the next channel (R674, R675). -/
def State.emit (s : State) (b ty seq payload : Nat) : State :=
  let x := s.bend b
  let h := flitHeader ty seq (if x.rxAny then (x.rxSeq + 4095) % 4096 else 0) x.rxAny x.crVc (SMap.get 0 x.freed x.crVc)
  let body := h + payload % 2 ^ 1920 * 2 ^ 64
  (s.setBend b { x with crVc := (x.crVc + 1) % 6, ackDue := 0 }).send (.flit b (BitVec.ofNat 2048 (body + flitCrc body * 2 ^ 1984)))

def flitIdle : Nat := 0
def flitData : Nat := 1
def flitCtrl : Nat := 2

/-! ### State of a port -/

/-- STATE of BD_STATUS. -/
def bdDown : Nat := 0
def bdTraining : Nat := 1
def bdInit : Nat := 2
def bdActive : Nat := 3
def bdRecovery : Nat := 4
def bdFailed : Nat := 5

def State.bdState (s : State) (b : Nat) : Nat := s.fld .BD_STATUS_STATE b

/-- The port takes requests: it is attached through a router that is not fenced, and its link is ACTIVE or recovers; otherwise they are answered
FENCED (R102, Table 3.5). -/
def State.bendUp (s : State) (b : Nat) : Bool :=
  (s.bdState b = bdActive || s.bdState b = bdRecovery) && !s.fences.routers.contains (s.bend b).bay

/-! ### Credits (R674) and sending (R675) -/

/-- Cells of a receive buffer are freed. -/
def State.freeCells (s : State) (arr : Option (Nat × Nat)) (n : Nat) : State :=
  match arr with
  | none => s
  | some (a, v) =>
    let x := s.bend a
    s.setBend a { x with freed := SMap.set 0 x.freed v ((SMap.get 0 x.freed v + n) % 65536) }

/-- A packet fits into the peer's buffer, and its flits into the replay buffer. -/
def BendPort.fits (x : BendPort) (p : BPkt) : Bool :=
  let v := p.vc
  decide ((SMap.get 0 x.sent v + 65536 - SMap.get 0 x.peerFreed v) % 65536 + p.cells ≤ SMap.get 0 x.peerInit v) &&
    decide (x.replay.length + ceilDiv p.cells 15 ≤ 1024)

/-- The first packet that fits and is behind no packet of its own channel, and the others. -/
def pickPkt (fits : BPkt → Bool) (seen : List Nat) : List BPkt → Option (BPkt × List BPkt)
  | [] => none
  | p :: rest =>
    if fits p && !seen.contains p.vc then some (p, rest)
    else (pickPkt fits (p.vc :: seen) rest).map (fun r => (r.1, p :: r.2))

/-- The cells of a packet in flits of fifteen, each with the next SEQ. -/
def State.sendFlits (s : State) (b : Nat) : Nat → Nat → State
  | 0, _ => s
  | n + 1, image =>
    let x := s.bend b
    let s := s.setBend b { x with txSeq := (x.txSeq + 1) % 4096, replay := x.replay ++ [(x.txSeq, image % 2 ^ 1920)] }
    (s.emit b flitData x.txSeq (image % 2 ^ 1920)).sendFlits b n (image / 2 ^ 1920)

/-- A packet leaves: its cells count as sent, and the buffer that held it is freed. -/
def State.transmit (s : State) (b : Nat) (p : BPkt) : State :=
  let x := s.bend b
  let s := s.setBend b { x with sent := SMap.set 0 x.sent p.vc ((SMap.get 0 x.sent p.vc + p.cells) % 65536) }
  (s.sendFlits b (ceilDiv p.cells 15) p.image).freeCells p.arr p.cells

/-- Packets leave while credits and the replay buffer allow. -/
def State.pumpOut (s : State) (b : Nat) : Nat → State
  | 0 => s
  | n + 1 =>
    if s.bdState b ≠ bdActive then s
    else match pickPkt (s.bend b).fits [] (s.bend b).outq with
    | none => s
    | some (p, rest) => ((s.setBend b { s.bend b with outq := rest }).transmit b p).pumpOut b n

/-! ### Originated requests (R680, R689, R690) -/

/-- The runs of bytes that a mask of `n` bytes names, as (first byte, length). -/
def maskRuns (n mask : Nat) : List (Nat × Nat) :=
  ((List.range n).foldl (fun acc i =>
    if mask.testBit i then
      match acc with
      | (b, k) :: rest => if b + k = i then (b, k + 1) :: rest else (i, 1) :: (b, k) :: rest
      | [] => [(i, 1)]
    else acc) []).reverse

/-- The next tag that is neither in use nor kept back after a timeout (R681). -/
def freeTag (used : List Nat) (next : Nat) : Nat → Option Nat
  | 0 => none
  | n + 1 => if used.contains next then freeTag used ((next + 1) % 4096) n else some next

/-- A packet of a request with a tag of its own; `none` when every tag is in use. -/
def State.originate (s : State) (b : Nat) (r : BendReq) (p : BPkt) : Option State :=
  let x := s.bend b
  let dead := x.dead.filter (fun d => decide (s.clockUs < d.2))
  match freeTag (x.tags.map (·.tag) ++ dead.map (·.1)) x.nextTag 4096 with
  | none => none
  | some t =>
    let i := 256 * b + r.window
    let p := { p with dst := s.fld .BD_WIN_DST_WAFER i, src := s.fld .BD_CTL_WAFER_ID b, dstPort := s.fld .BD_WIN_DST_PORT i, retPort := b,
                      dl := s.flag .BD_CTL_DATELINE b, tag := t, entry := s.fld .BD_WIN_ENTRY i, hops := 15, coil := s.fld .BD_WIN_COIL i }
    let bt : BTag := { tag := t, opc := p.opc, dst := p.dst, len := p.len, req := r }
    some (s.setBend b { x with tags := x.tags ++ [bt], nextTag := (t + 1) % 4096, dead := dead, outq := x.outq ++ [p] })

/-- The size code of an atomic of `n` bytes, and its code of Table 20.7. -/
def aszOf (n : Nat) : Nat := if n = 2 then 1 else if n = 4 then 2 else 3
def atopOf (op : Nat) : Nat := op - 0x10

/-- A window carries messages. -/
def State.msgWindow (s : State) (b w : Nat) : Bool := s.flag .BD_WIN_KIND (256 * b + w)

/-- Bytes written into a message block; a complete block leaves as one MSG. `none` when a 17th block would be needed (DEDUCED, log entry 80). -/
def State.writeBlock (s : State) (b : Nat) (r : BendReq) : Option State :=
  let x := s.bend b
  let blk := r.addr / 256
  let sh := r.addr % 256
  let old := x.blocks.find? (fun m => m.window = r.window && m.block = blk)
  if old.isNone && decide (16 ≤ x.blocks.length) then none
  else
    let m : MsgBlock := old.getD { window := r.window, block := blk }
    let data := (maskRuns 256 r.mask).foldl (fun d u => setBits d (8 * (sh + u.1)) (8 * u.2) (r.data >>> (8 * u.1))) m.data
    let m : MsgBlock := { m with mask := m.mask ||| (r.mask * 2 ^ sh) % 2 ^ 256, data := data, coil := r.coil, core := if r.core.isSome then r.core else m.core }
    let others := x.blocks.filter (fun z => !(z.window = r.window && z.block = blk))
    if m.mask == 2 ^ 256 - 1 then
      (s.setBend b { x with blocks := others }).originate b { r with core := m.core } { opc := opMsg, off := 256 * blk, data := m.data }
    else some (s.setBend b { x with blocks := others ++ [m] })

/-- A request's packets; `none` while the source stalls. -/
def State.issue (s : State) (b : Nat) (r : BendReq) : Option State :=
  match r.op with
  | .read => s.originate b r { opc := opRd, off := r.addr, len := r.size }
  | .atom op x y => s.originate b r { opc := opAtom, off := r.addr, atop := atopOf op, asz := aszOf r.size, data := x + y * 2 ^ 64 }
  | .fence => s.originate b r { opc := opWfence }
  | .write =>
    if s.msgWindow b r.window then s.writeBlock b r
    else (maskRuns 256 r.mask).foldl (fun (acc : Option State) u =>
      acc.bind (fun s => s.originate b r { opc := opWr, off := r.addr + u.1, len := u.2, data := r.data >>> (8 * u.1) % 2 ^ (8 * u.2) })) (some s)

/-- A fence waits for every earlier write to its window (R689). -/
def BendPort.fenceHeld (x : BendPort) (r : BendReq) : Bool :=
  x.waiting.any (fun z => z.op = .write && z.window = r.window && decide (z.seq < r.seq)) ||
    x.tags.any (fun t => t.req.op = .write && t.req.window = r.window && decide (t.req.seq < r.seq))

/-- The waiting requests in order: one that finds no tag or no block holds those behind it, fences excepted. -/
def State.pumpIn (s : State) (b : Nat) (stall : Bool) : List BendReq → State
  | [] => s
  | r :: rest =>
    let go := fun (t : State) => t.setBend b { t.bend b with waiting := (t.bend b).waiting.filter (fun z => z.seq ≠ r.seq) }
    if r.op = .fence then
      if (s.bend b).fenceHeld r then s.pumpIn b stall rest
      else match s.issue b r with
      | some t => (go t).pumpIn b stall rest
      | none => s.pumpIn b stall rest
    else if stall then s.pumpIn b stall rest
    else match s.issue b r with
    | some t => (go t).pumpIn b false rest
    | none => s.pumpIn b true rest

/-- Everything a port can send leaves. -/
def State.pump (s : State) (b : Nat) : State :=
  let s := s.pumpIn b false (s.bend b).waiting
  s.pumpOut b (s.bend b).outq.length

/-- A request enters the port. -/
def State.toBend (s : State) (b : Nat) (r : BendReq) : State :=
  let x := s.bend b
  (s.setBend b { x with waiting := x.waiting ++ [{ r with seq := x.nextSeq }], nextSeq := x.nextSeq + 1 }).pump b

/-- Posted writes that no fence will report any more are logged. -/
def State.logLost (s : State) (b : Nat) (f : Nat × Nat × Nat → Bool) : State :=
  let l := (s.bend b).lost.filter f
  let s := s.setBend b { s.bend b with lost := (s.bend b).lost.filter (fun x => !f x) }
  l.foldl (fun s x => s.event .bendWriteLost ⟨.bendPort, b⟩ (some (s.fld .BD_WIN_COIL (256 * b + x.2.1))) 0 0 x.2.1) s

end Sys2Proof.Machine
end

