-- ==== Sys2Proof/Machine/Spool.lean ====
section
/-!
DEFINITION. Spool (chapter 7): vault ownership, the line check, tags and poison, keys, stripes, scrub and clearing, host-managed
device memory maps, reservations and the governor.
-/
namespace Sys2Proof.Machine

/-! ### Sources of register writes (R119) -/

/-- A wafer-scoped register accepts writes only through the control port. -/
def State.waferScoped (s : State) (p off : Nat) (f : State → State) : State :=
  if !s.module.railsOn then s else if p = s.module.controlPort then f s else s.denied p off

/-- A coil-scoped register accepts writes only through the home port of its coil. -/
def State.coilScoped (s : State) (p coil off : Nat) (f : State → State) : State :=
  if !s.module.railsOn || decide (32 ≤ coil) then s else if s.homeOf coil = some p then f s else s.denied p off (some coil)

/-- The coil is sealed. -/
def State.sealed (s : State) (coil : Nat) : Bool := s.fld .CP_COIL_ADMIN_STATE coil = 2

/-- The coil's key slot holds a key (R231). -/
def State.keyed (s : State) (coil : Nat) : Bool := s.flag .SP_KEY_CTL_VALID coil

/-! ### Access checks (R214, R233) -/

/-- The statuses of a vault's answer. -/
def spOk : Nat := 0
def spPerm : Nat := 1
def spFenced : Nat := 2

/-- Whether the vault controller serves a request: OK, PERM or FENCED. RIG level and Cleat carry no coil. -/
def State.vaultCheck (s : State) (v : Nat) (coil shared : Option Nat) : Nat :=
  if s.fences.vaults.contains v || (s.vault v).resetting then spFenced
  else match coil with
  | none => spOk
  | some c =>
    match s.vaultCoil v with
    | none => spPerm
    | some o =>
      if s.fld .SP_VAULT_STATUS_STATE v = 1 && (o = c || shared = some o) && s.keyed o then spOk else spPerm

/-- A request that is answered PERM is logged (R214). -/
def State.permEvent (s : State) (v : Nat) (coil : Option Nat) (wpa : Nat) : State :=
  s.event .spoolPerm ⟨.vault, v⟩ coil wpa

/-! ### The line check (Tables 7.2 to 7.4) -/

/-- A corrected line is counted; a storm is logged when the count passes 1,024 within a scrub period. -/
def State.countCe (s : State) (v : Nat) : State :=
  let x := s.vault v
  let s := (s.setVault v { x with periodCe := x.periodCe + 1, storm := x.storm || decide (1024 < x.periodCe + 1) }).bump
    .SP_VAULT_STATUS_CE_COUNT v 1
  if 1024 < x.periodCe + 1 && !x.storm then s.event .spoolCeStorm ⟨.vault, v⟩ (s.vaultCoil v) else s

/-- The tag that a write leaves on a line of a vault (R232): the owner's, or none where no valid key stands. -/
def State.writeTag (s : State) (v : Nat) : Option Nat :=
  match s.vaultCoil v with
  | some o => if s.keyed o then some o else none
  | none => none

/-- A detected uncorrectable error (R226): every copy is invalidated; a dirty copy that returns becomes the line, else the
line is poisoned with zero data. -/
def State.uncorrectable (s : State) (line v : Nat) (recovered : Option LineData) : State :=
  let dirty := (s.dirtyCopies (fun l c => l = line && !c.str)).head?.map (·.2)
  let s := (s.dropCopies (fun l _ => l = line)).2
  let data := match dirty with
    | some c => if c.poison then none else some c.data
    | none => recovered
  let s := match data with
    | some d => (s.store (64 * line) 64 d.toNat).setLine line { poison := false, tag := s.writeTag v, dir := .none }
    | none => (s.store (64 * line) 64 0).setLine line { poison := true, tag := s.writeTag v, dir := .none }
  let n := s.fld .SP_VAULT_STATUS_UE_LINES v + 1
  (s.setFld .SP_VAULT_STATUS_UE_LINES v (min n 255)).event .spoolUe ⟨.vault, v⟩ (s.vaultCoil v) (64 * line)

/-- While the governor pauses a coil, the Spool requests of its cores and Tackle channels wait at their vault controllers, and none is dropped (R249) (DEDUCED, log entry 90). -/
def State.slicedOut (s : State) (line : Nat) (coil : Option Nat) : Bool := (lineVault line).isSome && coil.any (fun c => s.flag .SP_RSV_PAUSED c)

/-- The controller takes the line for corrected: one symbol in error, or three and more that it does not detect (R225) (DEDUCED, log entry 16). -/
def checkCorrects (c : LineCheck) : Bool := decide (c.symbols = 1) || (decide (3 ≤ c.symbols) && c.miscorrected.isSome)

/-- The check of a line that is read (Table 7.4): the state after it. -/
def State.checkLine (s : State) (line v : Nat) (c : LineCheck) : State :=
  if c.symbols = 0 then s
  else if checkCorrects c then
    (match c.miscorrected with
      | some d => if c.symbols = 1 then s else s.store (64 * line) 64 d.toNat
      | none => s).countCe v
  else s.uncorrectable line v c.recovered

/-- The line's tag names a coil that is not the vault's owner, or whose key is gone. -/
def State.tagMismatch (s : State) (line v : Nat) : Bool :=
  match (s.line line).tag with
  | some t => !(s.vaultCoil v = some t && s.keyed t)
  | none => false

/-- A read of a line: its data, whether it is poisoned, and the state after the check. -/
def State.readLine (s : State) (line v : Nat) (c : LineCheck := {}) : LineData × Bool × State :=
  let s := s.checkLine line v c
  if (s.line line).poison then (s.lineAt (64 * line), true, s)
  else if s.tagMismatch line v then
    (s.lineAt (64 * line), true, s.event .spoolTagMismatch ⟨.vault, v⟩ (s.vaultCoil v) (64 * line))
  else (s.lineAt (64 * line), false, s)

/-- A write of a line under a byte mask (R227, R232). -/
def State.writeLine (s : State) (line v : Nat) (data : LineData) (mask : BitVec 64) (poison : Bool) : State :=
  let m := s.line line
  let tag := s.writeTag v
  if mask = BitVec.allOnes 64 then
    (s.store (64 * line) 64 data.toNat).setLine line { m with poison := poison, tag := tag }
  else
    let foreign := match m.tag with
      | some t => decide (tag ≠ some t)
      | none => false
    let old : LineData := if foreign then 0 else s.lineAt (64 * line)
    let s1 := (s.store (64 * line) 64 (mergeMask old data mask).toNat).setLine line
      { m with poison := m.poison || poison || foreign, tag := tag }
    if foreign && tag.isSome then s1.event .spoolTagMismatch ⟨.vault, v⟩ (s.vaultCoil v) (64 * line) else s1

/-! ### Row repair (R228, R229) -/

/-- Scrub corrected a line of a row: the sixteenth in a pass starts the copy to a spare row. -/
def State.scrubRow (s : State) (v row : Nat) : State :=
  let x := s.vault v
  let n := SMap.get 0 x.rowCe row + 1
  let s := s.setVault v { x with rowCe := SMap.set 0 x.rowCe row n }
  if n = 16 then
    let used := s.fld .SP_VAULT_STATUS_SPARES_USED v
    if 32 ≤ used then s.event .spoolSpareExhausted ⟨.vault, v⟩
    else
      let s := s.setVault v { s.vault v with copying := insertNat row (s.vault v).copying }
      let s := s.setFld .SP_VAULT_STATUS_SPARES_USED v (used + 1)
      if used + 1 = 32 then s.event .spoolSpareExhausted ⟨.vault, v⟩ else s
  else s

/-- The row of a vault offset: bank and row within the bank (Table 7.1). -/
def rowOf (off : Nat) : Nat := off / 65536 * 32 + off / 2048 % 32

/-- The copy of a row into its spare is done; Cleat journals the remap. -/
def execSpareRowCopyDone (v row : Nat) (s : State) := commit s (fun s =>
  let x := s.vault v
  if x.copying.contains row then
    let s := s.setVault v { x with copying := x.copying.filter (· ≠ row) }
    let n := SMap.set 0 s.nvm.live.spares v (s.fld .SP_VAULT_STATUS_SPARES_USED v)
    ({ s with nvm := { s.nvm with live := { s.nvm.live with spares := n } } } : State).journal 6
  else s)

/-! ### Ownership (R213 to R216) -/

/-- Some active stripe list names the vault. -/
def State.striped (s : State) (v : Nat) : Bool :=
  (List.range 32).any (fun c => s.flag .SP_STRIPE_CTL_ACTIVE c &&
    (List.range (s.fld .SP_STRIPE_CTL_COUNT c)).any (fun i => s.fld .SP_STRIPE_LIST_VAULT (3072 * c + i) = v))

/-- The valid HDM map entries, as (port × 16,384 + f). -/
def State.hdmEntries (s : State) : List Nat :=
  (s.regs.filter (fun e => e.1 % 512 = Fld.SP_HDM_MAP_VALID.num)).map (fun e => e.1 / 512)

/-- Some HDM map entry names a fathom of the vault. -/
def State.hdmNames (s : State) (v : Nat) : Bool :=
  s.hdmEntries.any (fun i => s.fld .SP_HDM_MAP_FATHOM i * 0x1000000 / vaultSize = v)

/-- The refresh counts of SP_STATUS follow the vaults. -/
def State.assignVault (s : State) (v coil : Nat) : State :=
  let st := s.fld .SP_VAULT_STATUS_STATE v
  if st = 3 then s.setFld .SP_VAULT_OWNER_STATUS v 3
  else if st = 2 then s.setFld .SP_VAULT_OWNER_STATUS v 2
  else if s.flag .SP_VAULT_OWNER_VALID v then
    s.setFld .SP_VAULT_OWNER_STATUS v (if s.fld .SP_VAULT_OWNER_COIL v = coil then 0 else 1)
  else
    s.setFld .SP_VAULT_OWNER_COIL v coil |>.setFld .SP_VAULT_OWNER_VALID v 1 |>.setFld .SP_VAULT_OWNER_STATUS v 0
      |>.setFld .SP_VAULT_STATUS_STATE v 1

/-- SP_VAULT_OWNER[v] written with VALID set, through the control port; RWL once the owner is sealed. -/
def execVaultAssign (p v coil : Nat) (s : State) := commit s (fun s =>
  if 3072 ≤ v ∨ 32 ≤ coil then s
  else s.waferScoped p (0x5010000 + 8 * v) (fun s =>
    if s.flag .SP_VAULT_OWNER_VALID v && s.sealed (s.fld .SP_VAULT_OWNER_COIL v) then s else s.assignVault v coil))

/-- The release of a vault: CLEARING at once, or, when it is fenced, no owner (R215, R253). -/
def State.releaseVault (s : State) (v : Nat) : State :=
  let s := s.setFld .SP_VAULT_OWNER_COIL v 0 |>.setFld .SP_VAULT_OWNER_VALID v 0 |>.setFld .SP_VAULT_OWNER_STATUS v 0
  if s.fld .SP_VAULT_STATUS_STATE v = 3 then s else s.setFld .SP_VAULT_STATUS_STATE v 2

/-- SP_VAULT_OWNER[v] written with VALID clear. -/
def execVaultRelease (p v : Nat) (s : State) := commit s (fun s =>
  if 3072 ≤ v then s
  else s.waferScoped p (0x5010000 + 8 * v) (fun s =>
    if s.flag .SP_VAULT_OWNER_VALID v && s.sealed (s.fld .SP_VAULT_OWNER_COIL v) then s
    else if s.fld .SP_VAULT_STATUS_STATE v = 2 || s.striped v || s.hdmNames v then s.setFld .SP_VAULT_OWNER_STATUS v 2
    else if s.flag .SP_VAULT_OWNER_VALID v then s.releaseVault v
    else s.setFld .SP_VAULT_OWNER_STATUS v 0))

/-- The lines of a vault. -/
def inVault (v line : Nat) : Bool := decide (v * vaultSize ≤ 64 * line) && decide (64 * line < (v + 1) * vaultSize)

/-- Clearing ends (R236, R237): zero data, no tag, no poison, DIR NONE; lines that were still held are counted. -/
def State.clearVault (s : State) (v : Nat) : State :=
  let held := (s.lines.filter (fun e => inVault v e.1 && decide (e.2.dir ≠ .none))).length
  let s := (s.dropCopies (fun l c => inVault v l && !c.str)).2
  let s : State := { s with mem := s.mem.filter (fun e => !(decide (v * vaultSize ≤ e.1) && decide (e.1 < (v + 1) * vaultSize)))
                            lines := s.lines.filter (fun e => !inVault v e.1) }
  (s.setFld .SP_VAULT_STATUS_STATE v 0).event .vaultCleared ⟨.vault, v⟩ none 0 held

def execVaultClearDone (v : Nat) (s : State) := commit s (fun s =>
  if s.fld .SP_VAULT_STATUS_STATE v = 2 && !s.fences.vaults.contains v then s.clearVault v else s)

/-! ### Keys (R231) -/

/-- SP_KEY_CTL[c].GENERATE: a key from the random number generator, refused with CLAIMED over a valid one (DESIGN CHOICE, log entry 15). -/
def execKeyGenerate (p coil : Nat) (s : State) := commit s (fun s => s.coilScoped p coil (0x5000200 + 8 * coil) (fun s =>
  if s.keyed coil then s.setFld .SP_KEY_CTL_STATUS coil 1
  else
    let n := s.fresh
    ({ s with fresh := n + 1, keys := SMap.set 0 s.keys coil (n + 1) } : State)
      |>.setFld .SP_KEY_CTL_VALID coil 1 |>.setFld .SP_KEY_CTL_STATUS coil 0))

/-- The slot is emptied. -/
def State.dropKey (s : State) (coil : Nat) : State :=
  ({ s with keys := SMap.set 0 s.keys coil 0 } : State).setFld .SP_KEY_CTL_VALID coil 0

/-- The coil owns a vault. -/
def State.ownsVault (s : State) (coil : Nat) : Bool :=
  s.regs.any (fun e => e.1 % 512 = Fld.SP_VAULT_OWNER_VALID.num && s.fld .SP_VAULT_OWNER_COIL (e.1 / 512) = coil)

/-- SP_KEY_CTL[c].CLEAR: refused with BUSY while the coil owns a vault or an HDM map entry names it. -/
def execKeyClear (p coil : Nat) (s : State) := commit s (fun s => s.coilScoped p coil (0x5000200 + 8 * coil) (fun s =>
  if s.ownsVault coil || s.hdmEntries.any (fun i => s.fld .SP_HDM_MAP_COIL i = coil) then s.setFld .SP_KEY_CTL_STATUS coil 2
  else (s.dropKey coil).setFld .SP_KEY_CTL_STATUS coil 0))

/-! ### Stripes (R218 to R220) -/

/-- The WPA of a coil stripe address; `none` raises TRANSLATION (R219, R220). -/
def State.stripeWpa (s : State) (coil csa : Nat) : Option Nat :=
  let n := s.fld .SP_STRIPE_CTL_COUNT coil
  if !s.flag .SP_STRIPE_CTL_ACTIVE coil || decide (n * vaultSize ≤ csa) then none
  else
    let k := csa / 4096
    some (s.fld .SP_STRIPE_LIST_VAULT (3072 * coil + k % n) * vaultSize + (k / n * 4096 + csa % 4096))

/-- SP_STRIPE_CTL[c].ACTIVE set: RANGE, then NOT_OWNED; the list is frozen while it is set. -/
def execStripeActivate (p coil : Nat) (s : State) := commit s (fun s => s.coilScoped p coil (0x5000400 + 8 * coil) (fun s =>
  let n := s.fld .SP_STRIPE_CTL_COUNT coil
  let bad := fun i => let v := s.fld .SP_STRIPE_LIST_VAULT (3072 * coil + i)
    s.vaultCoil v ≠ some coil || s.fences.vaults.contains v
  if s.flag .SP_STRIPE_CTL_ACTIVE coil then s.setFld .SP_STRIPE_CTL_STATUS coil 0
  else if 3072 < n then s.setFld .SP_STRIPE_CTL_STATUS coil 3
  else if (List.range n).any bad then s.setFld .SP_STRIPE_CTL_STATUS coil 1
  else (s.setFld .SP_STRIPE_CTL_ACTIVE coil 1).setFld .SP_STRIPE_CTL_STATUS coil 0))

def execStripeDeactivate (p coil : Nat) (s : State) := commit s (fun s => s.coilScoped p coil (0x5000400 + 8 * coil) (fun s =>
  (s.setFld .SP_STRIPE_CTL_ACTIVE coil 0).setFld .SP_STRIPE_CTL_STATUS coil 0))

/-! ### HDM maps (R239, R240) -/

/-- SP_HDM_MAP[p][f] written through port p. -/
def execHdmMapWrite (p f fathom coil : Nat) (valid : Bool) (s : State) := commit s (fun s =>
  if 8 ≤ p ∨ 16384 ≤ f ∨ !s.module.railsOn then s
  else
    let i := 16384 * p + f
    let v := fathom * 0x1000000 / vaultSize
    if valid && decide (spoolSize ≤ fathom * 0x1000000) then s.setFld .SP_HDM_MAP_STATUS i 2
    else if valid && !(s.homeOf coil = some p && s.vaultCoil v = some coil && !s.fences.vaults.contains v) then
      s.setFld .SP_HDM_MAP_STATUS i 1
    else
      s.setFld .SP_HDM_MAP_FATHOM i fathom |>.setFld .SP_HDM_MAP_COIL i coil |>.setFld .SP_HDM_MAP_VALID i (b2n valid)
        |>.setFld .SP_HDM_MAP_STATUS i 0)

/-! ### Reservations and the governor (R244 to R250) -/

/-- The vaults by refresh rate: how many usable ones run at 2× and at 4×. -/
def State.refreshCount (s : State) (r : Nat) : Nat :=
  (s.regs.filter (fun e => e.1 % 512 = Fld.SP_VAULT_STATUS_REFRESH.num && e.2 = r && !s.fences.vaults.contains (e.1 / 512))).length

/-- The sum over usable vaults of 64 GB/s × the refresh factor (Table 7.5). -/
def State.vaultRate (s : State) : Nat :=
  let n := Config.vaults - s.fences.vaults.length
  let n2 := s.refreshCount 1
  let n4 := s.refreshCount 2
  (6400 * (n - n2 - n4) + 6016 * n2 + 5632 * n4) / 100

/-- The coils that are sealed, in ascending order. -/
def State.sealedCoils (s : State) : List Nat := (List.range 32).filter s.sealed

/-- A vault's temperature crosses 85 °C or 95 °C (R212). -/
def execVaultRefreshChange (v celsius : Nat) (s : State) := commit s (fun s =>
  if s.module.railsOn && decide (v < 3072) then
    let s := s.setFld .SP_VAULT_STATUS_REFRESH v (if celsius ≤ 85 then 0 else if celsius ≤ 95 then 1 else 2)
    s.setFld .SP_STATUS_VAULTS_2X 0 (s.refreshCount 1) |>.setFld .SP_STATUS_VAULTS_4X 0 (s.refreshCount 2)
  else s)

/-- The sum of the reservations that `f` names. -/
def State.rsvSum (s : State) (f : Nat → Bool) : Nat :=
  ((List.range 32).filter f).foldl (fun a c => a + s.fld .SP_RSV_GBPS c) 0

/-- The usable vaults that a coil owns. -/
def State.usableOwned (s : State) (coil : Nat) : Nat :=
  (s.regs.filter (fun e => e.1 % 512 = Fld.SP_VAULT_OWNER_VALID.num && s.fld .SP_VAULT_OWNER_COIL (e.1 / 512) = coil &&
    !s.fences.vaults.contains (e.1 / 512))).length

/-- SP_RSV[c].GBPS (R246); lowering is always admitted; RWL once sealed. -/
def execReservationWrite (p coil gbps : Nat) (s : State) := commit s (fun s => s.coilScoped p coil (0x5000100 + 8 * coil) (fun s =>
  let g := gbps % 2 ^ 18
  let old := s.fld .SP_RSV_GBPS coil
  if s.sealed coil then s
  else if old < g && decide (80 * s.fld .SP_GOV_CAPACITY 0 < 100 * (s.rsvSum (fun _ => true) - old + g)) then
    s.setFld .SP_RSV_STATUS coil 1
  else if old < g && decide (80 * 64 * s.usableOwned coil < 100 * g) then s.setFld .SP_RSV_STATUS coil 2
  else
    let s := (s.setFld .SP_RSV_GBPS coil g).setFld .SP_RSV_STATUS coil 0
    s.setFld .SP_GOV_RSV_TOTAL 0 (s.rsvSum (fun _ => true))))

/-- The pause count of R248. -/
def pauseCount (shares : List Nat) (cap : Nat) : Nat :=
  let m := shares.length
  let fits := fun q => (List.range m).all (fun i =>
    decide (((List.range (m - q)).foldl (fun a j => a + (shares[(i + j) % m]?).getD 0) 0) ≤ cap))
  ((span 1 (m - 1 - 1)).find? fits).getD (m - 1)

/-- The allowances of Table 7.6 in the state in force. -/
def State.allowances (s : State) : State :=
  let cap := s.fld .SP_GOV_CAPACITY 0
  let cs := s.sealedCoils
  let sT := s.rsvSum s.sealed
  let n := s.rsvSum (fun c => !s.sealed c)
  let st := s.fld .SP_GOV_STATE 0
  let m := cs.length
  let q := s.fld .SP_GOV_SEALED_PAUSE_Q 0
  let paused := if st = 2 then (List.range q).filterMap (fun i => cs[(s.gov.slice + i) % max m 1]?) else []
  let run := if st = 2 then (cs.filter (fun c => !paused.contains c)).foldl (fun a c => a + min (s.fld .SP_RSV_GBPS c) cap) 0 else sT
  let left := cap - run
  let s := s.setFld .SP_GOV_SCALE 0 (if st = 0 ∨ n ≤ left then 1024 else 1024 * left / n)
  (List.range 32).foldl (fun s c =>
    let g := s.fld .SP_RSV_GBPS c
    let a := if s.sealed c then (if paused.contains c then 0 else if st = 2 then min g cap else g)
      else if st = 0 ∨ n ≤ left then g else g * left / n
    s.setFld .SP_RSV_ALLOWED c a |>.setFld .SP_RSV_PAUSED c (b2n (paused.contains c)) |>.setFld .CP_COIL_CTL_PAUSED c (b2n (paused.contains c))) s

/-- The governor's part of a slack tick, given the Spool power allowance (R245, R247, R250). -/
def State.governorTick (s : State) (allowance : Nat) : State :=
  let cap := min s.vaultRate allowance
  let sT := s.rsvSum s.sealed
  let all := s.rsvSum (fun _ => true)
  let old := s.fld .SP_GOV_STATE 0
  let held := if all ≤ cap then s.gov.heldTicks + 1 else 0
  let st := if all ≤ cap then (if old = 0 ∨ 100 ≤ held then 0 else 1) else if sT ≤ cap then 1 else 2
  let m := s.sealedCoils.length
  let q := if st = 2 then pauseCount (s.sealedCoils.map (s.fld .SP_RSV_GBPS)) cap else 0
  let s : State := { s with gov := { heldTicks := held, slice := if st = 2 ∧ old = 2 then s.gov.slice else 0 } }
  let s := s.setFld .SP_GOV_CAPACITY 0 cap |>.setFld .SP_GOV_RSV_TOTAL 0 all |>.setFld .SP_GOV_STATE 0 st
    |>.setFld .SP_GOV_SEALED_SEALED_TOTAL 0 sT |>.setFld .SP_GOV_SEALED_SEALED_COUNT 0 m |>.setFld .SP_GOV_SEALED_PAUSE_Q 0 q
  let s := s.allowances
  if st = old then s
  else if st = 0 then s.event .reservationRestored
  else if st = 1 then s.event .reservationDegraded
  else s.event .sealedTimeSliced ⟨.none, 0⟩ none 0 0 m q

/-- The next slice of the frame begins (R248). -/
def execSliceBoundary (s : State) := commit s (fun s =>
  if s.fld .SP_GOV_STATE 0 = 2 then
    ({ s with gov := { s.gov with slice := (s.gov.slice + 1) % max s.sealedCoils.length 1 } } : State).allowances
  else s)

end Sys2Proof.Machine
end

