-- ==== Sys2Proof/Machine/Translation.lean ====
section
/-!
DEFINITION. Device address translation (chapter 8): the walk, permissions, translation caches, contexts, grants and
invalidation.
-/
namespace Sys2Proof.Machine

/-! ### Table entries and the walk (R258 to R268) -/

/-- The causes of Table 8.8. -/
inductive Cause where
  | contextOff | range | notMapped | reserved | level | alignEntry | tableRange | tableAlias | tablePerm | target | port
  | shareDenied | stripe | spliceClosed | access | fetchDev | spliceOwner | tableFenced | tablePoison
  deriving DecidableEq, Repr

/-- Table 8.8: the code, and the kind as DT_FAULT_INFO.KIND codes it. -/
def Cause.code : Cause → Nat
  | .contextOff => 0x01 | .range => 0x02 | .notMapped => 0x03 | .reserved => 0x04 | .level => 0x05 | .alignEntry => 0x06
  | .tableRange => 0x07 | .tableAlias => 0x08 | .tablePerm => 0x09 | .target => 0x0A | .port => 0x0B | .shareDenied => 0x0C
  | .stripe => 0x0D | .spliceClosed => 0x0E | .access => 0x20 | .fetchDev => 0x21 | .spliceOwner => 0x22
  | .tableFenced => 0x30 | .tablePoison => 0x31

def Cause.kind : Cause → Nat
  | .access | .fetchDev | .spliceOwner => 2
  | .tableFenced => 3
  | .tablePoison => 4
  | _ => 1

/-- What a step of a walk finds: a pointer to the next table, a leaf, or a fault. -/
inductive EntryRead where
  | next (table : Nat)
  | leaf (l : Leaf)
  | fault (c : Cause)
  deriving DecidableEq, Repr

/-- The table region of a coil, in bytes: first and one past the last (R261). -/
def State.tableLo (s : State) (coil : Nat) : Nat := s.fld .DT_CTX_TBL_BASE coil * 0x1000000
def State.tableHi (s : State) (coil : Nat) : Nat := (s.fld .DT_CTX_TBL_BASE coil + s.fld .DT_CTX_TBL_COUNT coil) * 0x1000000

/-- A WPA lies inside the table region of some coil (R266). -/
def State.inTables (s : State) (wpa : Nat) : Bool :=
  (List.range 32).any (fun c => decide (s.tableLo c ≤ wpa) && decide (wpa < s.tableHi c))

/-- Where the entry of a level stands (Table 8.1). -/
def entryAddr (table level dva : Nat) : Nat :=
  table + 8 * (match level with
    | 0 => bits dva 47 39
    | 1 => bits dva 38 30
    | _ => bits dva 29 24)

/-- The grant that honours a SHARED leaf (R280). -/
def State.grantFor (s : State) (coil fathom perm : Nat) : Option Nat :=
  (List.range 256).find? (fun g =>
    s.flag .DT_SHARE_A_VALID g && s.fld .DT_SHARE_A_GRANTEE g = coil &&
    decide (s.fld .DT_SHARE_B_BASE g ≤ fathom) && decide (fathom < s.fld .DT_SHARE_B_BASE g + s.fld .DT_SHARE_B_COUNT g) &&
    (perm &&& s.fld .DT_SHARE_A_PERM g) = perm &&
    s.vaultCoil (fathom * 0x1000000 / vaultSize) = some (s.fld .DT_SHARE_A_OWNER g))

/-- A leaf entry at level 1 (cable) or 2 (fathom) (R263, R264, R266, R276, R280). -/
def State.readLeaf (s : State) (coil level dva e : Nat) : EntryRead :=
  let cable := level = 1
  let target := bits e 4 2
  let perm := bits e 7 5
  let region := bits e 9 8
  let shared := bit e 10
  let addr := bits e 47 24 * 0x1000000
  let port := bits e 50 48
  let n := if cable then 64 else 1
  let first := if cable then bits dva 47 30 * 64 else bits dva 47 24
  let reg : Region := if region = 0 then .coh else if region = 1 then .str else .dev
  let mk := fun (t : Target) (base : Nat) (sh g : Option Nat) =>
    EntryRead.leaf { coil := coil, fathom := first, fathoms := n, target := t, base := base, port := port, r := bit perm 0,
                     w := bit perm 1, x := bit perm 2, region := reg, shared := sh, grant := g }
  if 4 ≤ target ∨ region = 3 ∨ bits e 23 11 ≠ 0 ∨ bits e 63 51 ≠ 0 then .fault .reserved
  else if (target < 2 ∧ port ≠ 0) ∨ (target = 3 ∧ 6 ≤ port) then .fault .reserved
  else if cable && bits e 29 24 ≠ 0 then .fault .alignEntry
  else match target with
  | 0 =>
    if cable ∨ region = 2 ∨ bits e 47 41 ≠ 0 ∨ spoolSize ≤ addr then .fault .target
    else if s.inTables addr then .fault .tableAlias
    else if shared then
      match s.grantFor coil (addr / 0x1000000) perm with
      | some g => mk .near addr (some (s.fld .DT_SHARE_A_OWNER g)) (some g)
      | none => .fault .shareDenied
    else mk .near addr none none
  | 1 => if shared ∨ region = 2 then .fault .target else mk .stripe addr none none
  | 2 =>
    if shared then .fault .target
    else if s.homeOf coil = some port && decide (2 ≤ s.fld .HT_LINK_STATUS_PROTO port) then mk .host (hostBase port + addr) none none
    else .fault .port
  | _ => if shared ∨ region ≠ 1 then .fault .target else mk .splice (spliceBase port + addr) none none

/-- One entry of a walk, read at its home slice as the coil (R262 to R267, R275). -/
def State.readEntry (s : State) (coil level dva addr : Nat) : EntryRead :=
  let line := addr / 64
  match lineVault line with
  | none => .fault .tableRange
  | some v =>
    match s.vaultCheck v (some coil) none with
    | 1 => .fault .tablePerm
    | 2 => .fault .tableFenced
    | _ =>
      if (s.line line).poison || s.tagMismatch line v then .fault .tablePoison
      else
        let e := s.cohLoad addr 8
        match bits e 1 0 with
        | 0 => .fault .notMapped
        | 1 =>
          let next := bits e 40 9 * 512
          if bits e 8 2 ≠ 0 ∨ bits e 63 41 ≠ 0 then .fault .reserved
          else if level = 2 then .fault .level
          else if level = 0 && next % 4096 ≠ 0 then .fault .alignEntry
          else if next < s.tableLo coil ∨ s.tableHi coil < next + (if level = 0 then 4096 else 512) then .fault .tableRange
          else .next next
        | 2 => if level = 0 then .fault .level else s.readLeaf coil level dva e
        | _ => .fault .reserved

/-- The cause that stops a translation before any lookup (R259, R260). -/
def State.preFault (s : State) (coil addr : Nat) : Option Cause :=
  if 2 ^ 48 ≤ addr then some .range else if !s.flag .DT_CTX_CTL_ENABLE coil then some .contextOff else none

/-- A walk from a level on, to its end: the leaf, or the cause and the level at which it stopped. -/
def State.walkFrom (s : State) (coil dva : Nat) : Nat → Nat → Nat → Leaf ⊕ (Cause × Nat)
  | 0, _, level => .inr (.level, level)
  | fuel + 1, table, level =>
    match s.readEntry coil level dva (entryAddr table level dva) with
    | .next t => s.walkFrom coil dva fuel t (level + 1)
    | .leaf l => .inl l
    | .fault c => .inr (c, level)

/-- A whole walk of a coil's context. -/
def State.walk (s : State) (coil dva : Nat) : Leaf ⊕ (Cause × Nat) :=
  match s.preFault coil dva with
  | some c => .inr (c, 6)
  | none => s.walkFrom coil dva 3 (s.fld .DT_CTX_ROOT_ROOT coil * 4096) 0

/-- A cached leaf serves a DVA of a coil. -/
def Leaf.serves (l : Leaf) (coil dva : Nat) : Bool :=
  l.coil = coil && decide (l.fathom ≤ dva / 0x1000000) && decide (dva / 0x1000000 < l.fathom + l.fathoms)

/-- The WPA that a leaf gives a DVA; a STRIPE leaf goes through the stripe list (R218) and may alias a table (R266). -/
def State.leafWpa (s : State) (l : Leaf) (dva : Nat) : Nat ⊕ Cause :=
  let o := l.base + (dva - l.fathom * 0x1000000)
  match l.target with
  | .stripe =>
    match s.stripeWpa l.coil o with
    | none => .inr .stripe
    | some w => if s.inTables w then .inr .tableAlias else .inl w
  | _ => .inl o

/-- The permission that an access needs (Table 8.4), `none` when the leaf grants it. -/
def Leaf.denies (l : Leaf) (k : AccKind) : Option Cause :=
  match k with
  | .read => if l.r then none else some .access
  | .write => if l.w then none else some .access
  | .atomic => if l.r && l.w then none else some .access
  | .fetch => if l.region = .dev then some .fetchDev else if l.x then none else some .access

/-- A SPLICE access is checked against its window at the Bend port (R282); a MSG window takes only writes (R690). -/
def State.spliceDenies (s : State) (coil wpa : Nat) (k : AccKind) : Option Cause :=
  match placeOf wpa with
  | .splice b w off =>
    let i := 256 * b + w
    if !s.flag .BD_WIN_OPEN i || s.flag .BD_WIN_BUSY i || decide (s.fld .BD_WIN_FATHOMS i * 0x1000000 ≤ off) then some .spliceClosed
    else if s.fld .BD_WIN_COIL i ≠ coil then some .spliceOwner
    else if s.flag .BD_WIN_KIND i && k != .write then some .access
    else none
  | _ => none

/-- Keeping at most `n` entries of a cache, the oldest dropped (DESIGN CHOICE) (DESIGN CHOICE, log entry 19). -/
def keepLast {α : Type} (n : Nat) (l : List α) : List α := l.drop (l.length - n)

/-- A leaf put into a translation cache of `n` entries, once. -/
def addLeaf (n : Nat) (ls : List Leaf) (l : Leaf) : List Leaf := keepLast n (ls.filter (· ≠ l) ++ [l])

/-! ### Faults (R290) -/

/-- A translation fault is recorded in its coil's registers: kind, cause, access, source, unit and level. -/
def State.recordFault (s : State) (coil dva : Nat) (c : Cause) (k : AccKind) (source unit level : Nat) : State :=
  s.setFld .DT_FAULT_ADDR_DVA coil dva |>.setFld .DT_FAULT_INFO_VALID coil 1 |>.setFld .DT_FAULT_INFO_KIND coil c.kind
    |>.setFld .DT_FAULT_INFO_CAUSE coil c.code
    |>.setFld .DT_FAULT_INFO_ACCESS coil (match k with | .read => 0 | .write => 1 | .fetch => 2 | .atomic => 3)
    |>.setFld .DT_FAULT_INFO_SOURCE coil source |>.setFld .DT_FAULT_INFO_UNIT coil unit |>.setFld .DT_FAULT_INFO_LEVEL coil level
    |>.bump .DT_FAULT_INFO_COUNT coil 1

/-! ### Contexts (R260, R261, R295) -/

/-- DT_CTX_CTL[c].ENABLE set: refused when the root lies outside the region or the region in a vault not owned. -/
def execContextEnable (p coil : Nat) (s : State) := commit s (fun s => s.coilScoped p coil (0x4001010 + 0x100 * coil) (fun s =>
  let root := s.fld .DT_CTX_ROOT_ROOT coil * 4096
  let foreign := (List.range (s.fld .DT_CTX_TBL_COUNT coil)).any (fun i =>
    s.vaultCoil ((s.fld .DT_CTX_TBL_BASE coil + i) * 0x1000000 / vaultSize) ≠ some coil)
  if root < s.tableLo coil ∨ s.tableHi coil < root + 4096 then s.setFld .DT_CTX_CTL_STATUS coil 1
  else if foreign then s.setFld .DT_CTX_CTL_STATUS coil 2
  else (s.setFld .DT_CTX_CTL_ENABLE coil 1).setFld .DT_CTX_CTL_STATUS coil 0))

/-- ENABLE cleared: translations that start after the write fault with CONTEXT_OFF; cached entries stay. -/
def execContextDisable (p coil : Nat) (s : State) := commit s (fun s => s.coilScoped p coil (0x4001010 + 0x100 * coil) (fun s =>
  (s.setFld .DT_CTX_CTL_ENABLE coil 0).setFld .DT_CTX_CTL_STATUS coil 0))

/-- DT_CTX_ROOT or DT_CTX_TBL written: discarded with STATUS TABLE_RANGE while ENABLE is set (R295); a COUNT of 9 to 15 is a
reserved encoding (R17). -/
def execCtxTableWrite (p coil : Nat) (isRoot : Bool) (base count : Nat) (s : State) := commit s (fun s =>
  s.coilScoped p coil (0x4001000 + 0x100 * coil + if isRoot then 0 else 8) (fun s =>
    if s.flag .DT_CTX_CTL_ENABLE coil then s.setFld .DT_CTX_CTL_STATUS coil 1
    else if isRoot then s.setFld .DT_CTX_ROOT_ROOT coil base
    else
      let s := s.setFld .DT_CTX_TBL_BASE coil base
      if count ≤ 8 then s.setFld .DT_CTX_TBL_COUNT coil count else s))

/-! ### Dropping cached entries (R284, R286) -/

/-- The entries that an invalidation of a coil drops: a leaf or pointer that maps a part of the range, `none` for ALL. -/
def Leaf.hit (l : Leaf) (coil : Nat) (range : Option (Nat × Nat)) : Bool :=
  l.coil = coil && match range with
    | none => true
    | some (b, n) => decide (l.fathom < b + n) && decide (b < l.fathom + l.fathoms) && decide (0 < n)

def WalkPtr.hit (w : WalkPtr) (coil : Nat) (range : Option (Nat × Nat)) : Bool :=
  w.coil = coil && match range with
    | none => true
    | some (b, n) =>
      let size := if w.level = 0 then 32768 else 64
      decide (w.index * size < b + n) && decide (b < w.index * size + size) && decide (0 < n)

/-- Every translation cache of the wafer without the leaves that `f` and the pointers that `g` name; walks that may bring
one back are marked, and their results are discarded (Table 8.6). DTW_DROPS counts what a bay dropped. -/
def State.dropLeaves (s : State) (f : Leaf → Bool) (g : WalkPtr → Bool) (w : Walk → Bool) : State :=
  let s := s.bays.foldl (fun s e =>
    let b := s.bay e.1
    let n := (b.cache.filter f).length + (b.ptrs.filter g).length
    (s.setBay e.1 { b with cache := b.cache.filter (fun l => !f l), ptrs := b.ptrs.filter (fun x => !g x),
                           walks := b.walks.map (fun x => if w x then { x with stale := true } else x) }).bump .DTW_DROPS_COUNT e.1 n) s
  let s := s.cores.foldl (fun s e =>
    s.setCore e.1 { s.core e.1 with itb := (s.core e.1).itb.filter (fun l => !f l), dtb := (s.core e.1).dtb.filter (fun l => !f l) }) s
  let s := s.plies.foldl (fun s e => s.setPly e.1 { s.ply e.1 with ctb := (s.ply e.1).ctb.filter (fun l => !f l) }) s
  s.ports.foldl (fun s e => s.setPort e.1 { s.port e.1 with ctb := (s.port e.1).ctb.filter (fun l => !f l) }) s

/-- What Cleat has verified, or verifies, for a coil lapses with an invalidation that covers a part of it (R743, R767). -/
def State.lapse (s : State) (coil : Nat) (range : Option (Nat × Nat)) : State :=
  let hit := fun (base size : Nat) => match range with
    | none => true
    | some (b, n) => decide (base < (b + n) * 0x1000000) && decide (b * 0x1000000 < base + size)
  { s with cleat := { s.cleat with
      verified := s.cleat.verified.filter (fun v => !(v.coil = coil && hit v.base v.size))
      skv := s.cleat.skv.map (fun k => if k.coil = coil && hit k.base 0x4000000 then { k with lapsed := true } else k) } }

/-- The command at the head of a coil's queue drops what it names. -/
def State.startInv (s : State) (coil : Nat) (c : InvCmd) : State :=
  (s.lapse coil c.range).dropLeaves (fun l => l.hit coil c.range) (fun w => w.hit coil c.range) (fun w => w.miss.coil = coil)

/-- A command is accepted with the next sequence number, or refused with FULL (R284). -/
def State.invCommand (s : State) (coil : Nat) (range : Option (Nat × Nat)) : State :=
  let q := SMap.get [] s.invs coil
  if 16 ≤ q.length then s.setFld .DT_INV_STATUS_STATUS coil 1
  else
    let n := (s.fld .DT_INV_STATUS_ISSUED coil + 1) % 2 ^ 24
    let c : InvCmd := { seq := n, range := range }
    let s : State := { s with invs := SMap.set [] s.invs coil (q ++ [c]) }
    let s := s.setFld .DT_INV_STATUS_ISSUED coil n |>.setFld .DT_INV_STATUS_STATUS coil 0
      |>.setFld .DT_INV_STATUS_PENDING coil (q.length + 1)
    if q.isEmpty then s.startInv coil c else s

def execInvRange (p coil base count : Nat) (s : State) := commit s (fun s => s.coilScoped p coil (0x4001018 + 0x100 * coil) (fun s =>
  s.invCommand coil (some (base % 2 ^ 24, count % 2 ^ 24))))

def execInvAll (p coil : Nat) (s : State) := commit s (fun s => s.coilScoped p coil (0x4001018 + 0x100 * coil) (fun s =>
  s.invCommand coil none))

/-! ### Grants (R281) -/

/-- The range of a grant lies in Spool, in vaults of its owner (DEDUCED, log entry 72). -/
def State.grantStatus (s : State) (g owner : Nat) : Nat :=
  let b := s.fld .DT_SHARE_B_BASE g
  let n := s.fld .DT_SHARE_B_COUNT g
  if spoolSize < (b + n) * 0x1000000 then 3
  else if (List.range n).any (fun i => s.vaultCoil ((b + i) * 0x1000000 / vaultSize) ≠ some owner) then 1
  else 0

/-- DT_SHARE_A[g] written with VALID set, through the owner's home port: BUSY while the grant is in use or drains, when an end is
sealed, or when the grantee is the owner (R281, R616, R620). -/
def execShareGrant (p g owner grantee perm : Nat) (s : State) := commit s (fun s =>
  if 256 ≤ g then s
  else s.coilScoped p owner (0x4004000 + 16 * g) (fun s =>
    if s.flag .DT_SHARE_A_VALID g || s.flag .DT_SHARE_A_BUSY g || owner = grantee || s.sealed owner || s.sealed grantee then
      s.setFld .DT_SHARE_A_STATUS g 2
    else
      let st := s.grantStatus g owner
      if st ≠ 0 then s.setFld .DT_SHARE_A_STATUS g st
      else
        s.setFld .DT_SHARE_A_OWNER g owner |>.setFld .DT_SHARE_A_GRANTEE g grantee |>.setFld .DT_SHARE_A_PERM g perm
          |>.setFld .DT_SHARE_A_VALID g 1 |>.setFld .DT_SHARE_A_STATUS g 0
          |>.setFld .DT_STATUS_GRANTS 0 (s.fld .DT_STATUS_GRANTS 0 + 1)))

/-- The revocation of a grant: its leaves are dropped everywhere, BUSY stands until their accesses have drained. -/
def State.revokeGrant (s : State) (g : Nat) : State :=
  let s := s.setFld .DT_SHARE_A_VALID g 0 |>.setFld .DT_SHARE_A_BUSY g 1 |>.setFld .DT_SHARE_A_STATUS g 0
    |>.setFld .DT_STATUS_GRANTS 0 (s.fld .DT_STATUS_GRANTS 0 - 1)
  s.dropLeaves (fun l => l.grant = some g) (fun _ => false) (fun w => w.miss.coil = s.fld .DT_SHARE_A_GRANTEE g)

/-- DT_SHARE_A[g] written with VALID clear. -/
def execShareRevoke (p g : Nat) (s : State) := commit s (fun s =>
  if 256 ≤ g then s
  else s.coilScoped p (s.fld .DT_SHARE_A_OWNER g) (0x4004000 + 16 * g) (fun s =>
    if s.flag .DT_SHARE_A_VALID g then s.revokeGrant g
    else if s.flag .DT_SHARE_A_BUSY g then s.setFld .DT_SHARE_A_STATUS g 2
    else s.setFld .DT_SHARE_A_STATUS g 0))

/-- The accesses of a revoked grant have drained. -/
def execShareRevokeDrained (g : Nat) (s : State) := commit s (fun s =>
  let busyCore := s.cores.any (fun e => e.2.accesses.any (fun a => match a.leaf with
    | some l => decide (l.grant = some g)
    | none => false))
  if s.flag .DT_SHARE_A_BUSY g && !busyCore then s.setFld .DT_SHARE_A_BUSY g 0 else s)

end Sys2Proof.Machine
end

