-- ==== Sys2Proof/Machine/Caches.lean ====
section
/-!
DEFINITION. Ply caches, victim caches and the L1 caches (chapter 9): lookup, replacement, recall, eviction, scratch, and the way a
line leaves a ply.
-/
namespace Sys2Proof.Machine

/-! ### Geometry (R310, R318) -/

/-- The set of a line: a[19:6] XOR a[33:20]. -/
def plySet (line : Nat) : Nat := (line % 16384) ^^^ (line / 16384 % 16384)

/-- The ways carved into ply scratch now. -/
def State.carved (s : State) (y : Nat) : Nat := s.fld .PC_STATUS_WAYS y

/-- An offset of a ply's scratch window is held in a carved way. -/
def State.scratchValid (s : State) (y off : Nat) : Bool := decide (off < s.carved y * 0x100000)

/-- An offset that becomes valid with the carve in progress: accesses to it wait (R320). -/
def State.scratchWaits (s : State) (y off : Nat) : Bool :=
  !s.scratchValid y off && (match (s.ply y).carving with
    | some ways => decide (off < ways * 0x100000)
    | none => false)

/-- A carve in progress holds accesses to an address. -/
def State.carveHolds (s : State) (wpa : Nat) : Bool :=
  match placeOf wpa with
  | .scratch y off => s.scratchWaits y off
  | _ => false

/-- The cores of a ply. -/
def coresOf (y : Nat) : List Nat := span (8 * y) 8

/-! ### L1 copies (R299, R304) -/

/-- The L1D copies of a line in a ply are invalidated, except in core `keep`. -/
def State.dropL1d (s : State) (y line : Nat) (keep : Option Nat := none) : State :=
  (coresOf y).foldl (fun s c =>
    if keep = some c then s
    else if (s.core c).l1d.any (fun e => e.1 = line) then
      s.setCore c { s.core c with l1d := (s.core c).l1d.filter (fun e => e.1 ≠ line) }
    else s) s

/-- Reservations that the cores of a ply hold on a line at the ply cache are cleared, except that of core `keep` (R394) (DEDUCED, log entry 67). -/
def State.dropRsv (s : State) (y line : Nat) (keep : Option Nat := none) : State :=
  (coresOf y).foldl (fun s c =>
    if keep = some c then s
    else match (s.core c).rsv with
    | some r => if !r.atTarget && r.base / 64 = line then s.setCore c { s.core c with rsv := none } else s
    | none => s) s

/-- Monitors of other cores on a line that is written see the write (R493). -/
def State.hitMonitors (s : State) (line : Nat) (by' : Option Nat) : State :=
  s.cores.foldl (fun s e =>
    if by' = some e.1 then s
    else match (s.core e.1).mon with
    | some m => if m.line = line then s.setCore e.1 { s.core e.1 with mon := some { m with hit := true } } else s
    | none => s) s

/-- Reservations held at targets on a 256 B granule that is written are cleared, except that of core `keep` (R394). -/
def State.hitGranule (s : State) (addr : Nat) (keep : Option Nat := none) : State :=
  { s with strRsv := s.strRsv.filter (fun r => r.granule ≠ addr / 256 || keep = some r.core) }

/-! ### Leaving a ply (R315, R317, R335, R340) -/

/-- The runs of bytes that a mask names, as (first byte, length). -/
def byteRuns (mask : BitVec 64) : List (Nat × Nat) :=
  ((List.range 64).foldl (fun acc i =>
    if mask.getLsbD i then
      match acc with
      | (b, n) :: rest => if b + n = i then (b, n + 1) :: rest else (i, 1) :: (b, n) :: rest
      | [] => [(i, 1)]
    else acc) []).reverse

/-- Bytes `o` to `o + n − 1` of a line. -/
def lineBytes (d : LineData) (o n : Nat) : List Byte := leBytes n (d.toNat >>> (8 * o))

/-- Masked bytes of a line posted to a host as CXL.io writes, core `core` being the writer (Table 4.10). -/
def State.postLine (s : State) (p line : Nat) (data : LineData) (mask : BitVec 64) (poison : Bool) (core : Option Nat := none) : State :=
  (byteRuns mask).foldl (fun s r =>
    s.send (.ioWrite p (64 * line % 2 ^ 48 + r.1) (lineBytes data r.1 r.2) poison)) ((s.hitGranule (64 * line)).hitMonitors line core)

/-- Masked bytes of an STR line written to its target, carrying the coil `coil` (R384): 0 done, 1 PERM, 2 FENCED. `core` names the core whose
posted write it is; a write through Bend that nobody will report is logged at once (R689). -/
def State.writeTarget (s : State) (coil shared : Option Nat) (line : Nat) (data : LineData) (mask : BitVec 64) (poison : Bool)
    (core : Option Nat := none) : Nat × State :=
  match placeOf (64 * line) with
  | .spool v _ =>
    let st := s.vaultCheck v coil shared
    if st = spOk then (0, ((s.writeLine line v data mask poison).hitGranule (64 * line)).hitMonitors line none)
    else (st, if st = spPerm then s.permEvent v coil (64 * line) else s)
  | .host p _ => (0, s.postLine p line data mask poison)
  | .scratch y off =>
    if s.scratchValid y off && (coil = none || s.plyCoil y = coil) then
      let r := if mask = BitVec.allOnes 64 then (s.ply y).scratchPoison.filter (· ≠ off / 64) else (s.ply y).scratchPoison
      (0, (s.setPly y { s.ply y with scratchPoison := r }).store (64 * line) 64 (mergeMask (s.lineAt (64 * line)) data mask).toNat)
    else (1, s)
  | .splice b w o =>
    if s.bendUp b then
      (0, s.toBend b { src := .cleat, op := .write, window := w, addr := o, data := data.toNat, mask := mask.toNat, coil := coil.getD 0, core := core })
    else (2, if core.isSome then s else s.event .bendWriteLost ⟨.bendPort, b⟩ coil 0 0 w)
  | _ => (1, s)

/-- A line leaves a ply: its L1D copies and reservations go; an E line is noticed with BEVC, an M line written back with BWB, an STR
line's written bytes go to its target (R304, R335, R340, R384). -/
def State.leavePly (s : State) (y line : Nat) (c : CLine) : State :=
  let s := (s.dropL1d y line).dropRsv y line
  let k := bayOfPly y
  let b := s.bus k
  if c.str then
    if c.mask = 0 then s
    else ((s.writeTarget (s.plyCoil y) none line c.data c.mask c.poison).2).bump .PC_WRITEBACKS_COUNT y 1
  else match c.st with
  | .m => (s.setBus k { b with wbs := b.wbs ++ [{ ply := y, line := line, kind := .wb, data := some c.data, poison := c.poison }] }).bump
      .PC_WRITEBACKS_COUNT y 1
  | .e => s.setBus k { b with wbs := b.wbs ++ [{ ply := y, line := line, kind := .evc }] }
  | _ => s

/-- The copy of a line is taken out of a ply's array and victim cache. -/
def State.forget (s : State) (y line : Nat) : State :=
  s.setPly y { s.ply y with cache := (s.ply y).cache.filter (fun e => e.1 ≠ line),
                            victim := (s.ply y).victim.filter (fun e => e.1 ≠ line) }

/-- The copy of a line replaced where it stands. -/
def State.setCopy (s : State) (y line : Nat) (c : CLine) : State :=
  s.setPly y { s.ply y with cache := (s.ply y).cache.map (fun e => if e.1 = line then (line, c) else e),
                            victim := (s.ply y).victim.map (fun e => if e.1 = line then (line, c) else e) }

/-- A victim of replacement: into the victim cache, whose oldest entry leaves if it is full, or straight out (R315, R317) (DEDUCED, log entry 21). -/
def State.displace (s : State) (y line : Nat) (c : CLine) : State :=
  if !c.streaming && s.flag .PC_CTL_VICTIM y then
    let v := (s.ply y).victim ++ [(line, c)]
    if v.length ≤ 32 then s.setPly y { s.ply y with victim := v }
    else match v with
    | (l, o) :: rest => (s.setPly y { s.ply y with victim := rest }).leavePly y l o
    | [] => s
  else s.leavePly y line c

/-! ### Replacement (R313, R314) -/

/-- A line is pinned by a miss entry or by a drain in progress. -/
def State.pinned (s : State) (y line : Nat) : Bool :=
  (s.bus (bayOfPly y)).reqs.any (fun r => r.ply = y && r.line = line) ||
    (coresOf y).any (fun c => (s.core c).mb.any (fun e => e.draining && e.line = line))

/-- The way that a fill takes in a set whose lines are `ls`: the lowest invalid one, else the lowest of the highest age among
the lines not pinned, with the ageing step applied to those; `none` if all are pinned. -/
def chooseWay (ls : List (Nat × CLine)) (ways : Nat) (pin : Nat → Bool) : Option (Nat × Nat) :=
  match (List.range ways).find? (fun w => !ls.any (fun e => e.2.way = w)) with
  | some w => some (w, 0)
  | none =>
    let free := ls.filter (fun e => decide (e.2.way < ways) && !pin e.1)
    let top := (free.map (fun e => e.2.age)).foldl max 0
    match (List.range ways).find? (fun w => free.any (fun e => e.2.way = w && e.2.age = top)) with
    | some w => some (w, 3 - top)
    | none => none

/-- A line filled into the array, with its victim displaced; `none` when every way is pinned and the fill waits. -/
def State.fillPly (s : State) (y line : Nat) (c : CLine) : Option State :=
  if (s.ply y).cache.any (fun e => e.1 = line) then
    some (s.setPly y { s.ply y with cache := (s.ply y).cache.map (fun e => if e.1 = line then (line, { c with way := e.2.way }) else e) })
  else
    let ls := (s.ply y).cache.filter (fun e => plySet e.1 = plySet line)
    match chooseWay ls (16 - s.carved y) (s.pinned y) with
    | none => none
    | some (w, inc) =>
      let old := ls.find? (fun e => e.2.way = w)
      let aged := (s.ply y).cache.map (fun e =>
        if plySet e.1 = plySet line && decide (e.2.way < 16 - s.carved y) && !s.pinned y e.1 then
          (e.1, { e.2 with age := min 3 (e.2.age + inc) }) else e)
      let kept := match old with
        | some o => aged.filter (fun e => e.1 ≠ o.1)
        | none => aged
      let s := s.setPly y { s.ply y with cache := SMap.put kept line { c with way := w } }
      some (match old with
        | some o => s.displace y o.1 o.2
        | none => s)

/-- The copy that an access of a line finds: in the array (a hit sets its age to 0 and clears its streaming bit), or recalled from
the victim cache (R313, R317); `none` on a miss. -/
def State.touch (s : State) (y line : Nat) : Option (CLine × State) :=
  match (s.ply y).cache.find? (fun e => e.1 = line) with
  | some (_, c) =>
    let c' := { c with age := 0, streaming := false, prefetched := false }
    let s := (s.setCopy y line c').bump .PC_HITS_COUNT y 1
    some (c', if c.prefetched then s.bump .PC_PREFETCHES_USED y 1 else s)
  | none =>
    match (s.ply y).victim.find? (fun e => e.1 = line) with
    | some (_, c) =>
      let c' := { c with age := 1, streaming := false }
      let s := (s.setPly y { s.ply y with victim := (s.ply y).victim.filter (fun e => e.1 ≠ line) }).bump .PC_VICTIM_HITS_COUNT y 1
      (s.fillPly y line c').map (fun s => (c', s))
    | none => none

/-! ### L1D (R301) -/

/-- A line's pieces that have arrived in a core's L1D, most recently used last, at most four lines in a set of WPA[13:6]; the ply's
presence vector follows. -/
def State.setL1d (s : State) (c line pieces : Nat) : State :=
  let x := s.core c
  let others := x.l1d.filter (fun e => e.1 ≠ line)
  let set := others.filter (fun e => e.1 % 256 = line % 256)
  let drop := match set with
    | e :: rest => if 3 ≤ rest.length then some e.1 else none
    | [] => none
  let l := (others.filter (fun e => some e.1 ≠ drop)) ++ [(line, pieces)]
  let s := s.setCore c { x with l1d := l }
  let y := plyOfCore c
  match (s.ply y).copy line with
  | some cl => s.setCopy y line { cl with presence := insertNat (c % 8) cl.presence }
  | none => s

/-- The pieces of a line present in a core's L1D, as a 4-bit mask. -/
def State.l1dPieces (s : State) (c line : Nat) : Nat :=
  match (s.core c).l1d.find? (fun e => e.1 = line) with
  | some e => e.2
  | none => 0

/-- A line into a core's L1I: 4 ways, 128 sets, least recently used (R298). -/
def addL1i (l : List Nat) (line : Nat) : List Nat :=
  let others := l.filter (· ≠ line)
  let set := others.filter (fun e => e % 128 = line % 128)
  match set with
  | e :: rest => if 3 ≤ rest.length then others.filter (· ≠ e) ++ [line] else others ++ [line]
  | [] => others ++ [line]

/-! ### Errors (Table 9.4) -/

/-- A read of a ply-cache line finds an error: 1 corrected, 2 uncorrectable data; a clean line is invalidated and refetched,
a dirty line or a scratch line is poisoned. -/
def State.plyEcc (s : State) (y line kind : Nat) : State :=
  match placeOf (64 * line) with
  | .scratch _ off =>
    if kind = 1 then s.bump .PC_ECC_CE y 1
    else if kind = 2 then s.setPly y { s.ply y with scratchPoison := insertNat (off / 64) (s.ply y).scratchPoison }
    else s
  | _ =>
    match (s.ply y).copy line with
    | none => s
    | some c =>
      if kind = 1 then s.bump .PC_ECC_CE y 1
      else if kind = 2 then
        if c.st = .m ∨ c.mask ≠ 0 then (s.setCopy y line { c with poison := true }).bump .PC_ECC_UE_DIRTY y 1
        else ((s.forget y line).leavePly y line c).bump .PC_ECC_UE_CLEAN y 1
      else s

/-! ### Misses -/

/-- The miss entries of a ply in use (R310). -/
def State.missUsed (s : State) (y : Nat) : Nat := ((s.bus (bayOfPly y)).reqs.filter (fun r => r.ply = y)).length

/-- A request presented on the bay bus, merged into the one for the same line (Table 9.8); `none` when all 64 miss entries are in use
(R310). -/
def State.present (s : State) (r : BusReq) : Option State :=
  let k := bayOfPly r.ply
  let b := s.bus k
  match b.reqs.find? (fun x => x.ply = r.ply && x.line = r.line) with
  | some x =>
    if r.demand && !x.demand then
      some (s.setBus k { b with reqs := b.reqs.map (fun z => if z.ply = r.ply && z.line = r.line then
        { z with demand := true, streaming := r.streaming } else z) })
    else some s
  | none => if 64 ≤ s.missUsed r.ply then none else some (s.setBus k { b with reqs := b.reqs ++ [r] })

/-- The next-line prefetch of a demand miss (R316). -/
def State.prefetchNext (s : State) (y line : Nat) (str : Bool) (coil shared : Option Nat) : State :=
  let n := line + 1
  let target := match placeOf (64 * n) with
    | .spool _ _ => true
    | .scratch _ _ => true
    | _ => false
  if s.flag .PC_CTL_PREFETCH y && n / 64 = line / 64 && target && !(s.ply y).holds n &&
      !(s.bus (bayOfPly y)).reqs.any (fun r => r.ply = y && r.line = n) && decide (s.missUsed y ≤ 56) then
    match s.present { ply := y, line := n, req := if str then .bnc else .brds, coil := coil, shared := shared, streaming := true, demand := false } with
    | some s => s.bump .PC_PREFETCHES_ISSUED y 1
    | none => s
  else s

end Sys2Proof.Machine
end

