-- ==== Sys2Proof/Machine/Fp.lean ====
section
/-!
DEFINITION. Data formats (Table 12.5) and arithmetic on them (R428 to R432, R463): values are decoded exactly, computed exactly
or to an exact truncation with a sticky bit, and rounded once.
-/
namespace Sys2Proof.Machine

/-! ### Formats -/

/-- How a format codes its top exponent: IEEE infinities and NaNs, the single NaN of E4M3, or no specials. -/
inductive FmtKind where
  | ieee | fn | finite
  deriving DecidableEq, Repr

/-- A floating-point format: width, exponent bits, mantissa bits, bias. -/
structure Fmt where
  w : Nat
  eb : Nat
  mb : Nat
  bias : Nat
  kind : FmtKind
  deriving DecidableEq, Repr

def fp32 : Fmt := ⟨32, 8, 23, 127, .ieee⟩
def fp16 : Fmt := ⟨16, 5, 10, 15, .ieee⟩
def bf16 : Fmt := ⟨16, 8, 7, 127, .ieee⟩
def e4m3 : Fmt := ⟨8, 4, 3, 7, .fn⟩
def e5m2 : Fmt := ⟨8, 5, 2, 15, .ieee⟩
def e3m2 : Fmt := ⟨6, 3, 2, 3, .finite⟩
def e2m3 : Fmt := ⟨6, 2, 3, 1, .finite⟩
def e2m1 : Fmt := ⟨4, 2, 1, 1, .finite⟩

/-- The exponent of the unit in the last place of a format's subnormals. -/
def Fmt.qmin (f : Fmt) : Int := 1 - (f.bias : Int) - f.mb

/-- The code, without sign, of the largest finite value. -/
def Fmt.maxCode (f : Fmt) : Nat :=
  match f.kind with
  | .ieee => (2 ^ f.eb - 1) * 2 ^ f.mb - 1
  | .fn => 2 ^ (f.eb + f.mb) - 2
  | .finite => 2 ^ (f.eb + f.mb) - 1

/-- The canonical NaN (R429); formats without specials have none. -/
def Fmt.nan (f : Fmt) : Nat :=
  match f.kind with
  | .ieee => (2 ^ f.eb - 1) * 2 ^ f.mb + 2 ^ (f.mb - 1)
  | .fn => 2 ^ (f.eb + f.mb) - 1
  | .finite => f.maxCode

/-- The infinity of an IEEE format. -/
def Fmt.inf (f : Fmt) (neg : Bool) : Nat := (2 ^ f.eb - 1) * 2 ^ f.mb + (b2n neg) * 2 ^ (f.w - 1)

/-- A code with its sign bit. -/
def Fmt.signed (f : Fmt) (neg : Bool) (code : Nat) : Nat := code + (b2n neg) * 2 ^ (f.w - 1)

/-- A decoded value: a NaN with its sign and whether it signals, an infinity, or exactly (−1)^neg × m × 2^e. -/
inductive FpVal where
  | nan (neg sig : Bool)
  | inf (neg : Bool)
  | fin (neg : Bool) (m : Nat) (e : Int)
  deriving DecidableEq, Repr

/-- The value of a code. -/
def Fmt.decode (f : Fmt) (x : Nat) : FpVal :=
  let neg := x.testBit (f.w - 1)
  let ef := bits x (f.w - 2) f.mb
  let m := x % 2 ^ f.mb
  if f.kind = .ieee && ef = 2 ^ f.eb - 1 then
    if m = 0 then .inf neg else .nan neg (!m.testBit (f.mb - 1))
  else if f.kind = .fn && ef = 2 ^ f.eb - 1 && m = 2 ^ f.mb - 1 then .nan neg false
  else if ef = 0 then .fin neg m f.qmin
  else .fin neg (2 ^ f.mb + m) ((ef : Int) - f.bias - f.mb)

/-! ### Flags and rounding -/

def flInvalid : Nat := 1
def flDivZero : Nat := 2
def flOverflow : Nat := 4
def flUnderflow : Nat := 8
def flInexact : Nat := 16
def flSaturated : Nat := 32

/-- Rounding modes (CC_FPCTL.RM); `sr` carries the 16-bit r of R432. -/
inductive Rm where
  | rne | rtz | rdn | rup
  | sr (r : Nat)
  deriving DecidableEq, Repr

/-- What a result beyond the largest finite value becomes: as IEEE 754 for arithmetic, as R431 for conversions. -/
inductive Ovf where
  | ieee
  | conv (sat : Bool)
  deriving DecidableEq, Repr

/-- Whether truncation to `n` is rounded away from zero, when the discarded part is rem / 2^s plus a sticky bit. -/
def roundUp (rm : Rm) (neg : Bool) (n rem s : Nat) (sticky : Bool) : Bool :=
  let inexact := rem ≠ 0 || sticky
  match rm with
  | .rne => decide (2 ^ s < 2 * rem) || (decide (2 * rem = 2 ^ s) && (sticky || n % 2 = 1))
  | .rtz => false
  | .rdn => neg && inexact
  | .rup => !neg && inexact
  | .sr r => decide (r < rem * 2 ^ 16 / 2 ^ s)

/-- m × 2^e (plus a sticky bit) as a multiple of 2^q: the rounded multiple and whether it is inexact. -/
def roundTo (rm : Rm) (neg : Bool) (m : Nat) (e q : Int) (sticky : Bool) : Nat × Bool :=
  if q ≤ e then (m * 2 ^ (e - q).toNat, sticky)
  else
    let s := (q - e).toNat
    let n := m / 2 ^ s
    let rem := m % 2 ^ s
    (if roundUp rm neg n rem s sticky then n + 1 else n, rem ≠ 0 || sticky)

/-- A non-zero exact value rounded to a format, and its flags (R430, R431, R463). -/
def Fmt.round (f : Fmt) (rm : Rm) (o : Ovf) (neg : Bool) (m : Nat) (e : Int) (sticky : Bool := false) : Nat × Nat :=
  if m = 0 && !sticky then (f.signed neg 0, 0)
  else
    let top : Int := (Nat.log2 m : Int) + e
    let q := max (top - f.mb) f.qmin
    let r := roundTo rm neg m e q sticky
    let wide := roundTo rm neg m e (top - f.mb) sticky
    let tinyBefore := decide (top < 1 - (f.bias : Int))
    let tinyAfter := tinyBefore && decide (wide.1 < 2 ^ (f.mb + 1) ∨ top < -(f.bias : Int))
    let tiny := tinyBefore && (tinyAfter || !Config.tinyAfterRounding)
    let code : Nat := if r.1 < 2 ^ f.mb then r.1 else (q - f.qmin).toNat * 2 ^ f.mb + r.1
    if code ≤ f.maxCode then
      (f.signed neg code, if r.2 then flInexact + (if tiny then flUnderflow else 0) else 0)
    else
      let past := flOverflow + flInexact
      match o with
      | .conv true => (f.signed neg f.maxCode, past + flSaturated)
      | .conv false =>
        match f.kind with
        | .ieee => (f.inf neg, past)
        | .fn => (f.nan, past)
        | .finite => (f.signed neg f.maxCode, past + flSaturated)
      | .ieee =>
        let toMax := match rm with
          | .rtz => true
          | .rdn => !neg
          | .rup => neg
          | _ => false
        match f.kind with
        | .ieee => (if toMax then f.signed neg f.maxCode else f.inf neg, past)
        | _ => (f.nan, past)

/-! ### Arithmetic (R463) -/

/-- An exact value as an integer multiple of 2^e. -/
def signedMant (neg : Bool) (m : Nat) : Int := if neg then -(m : Int) else m

/-- The sign of an exact zero sum of operands of signs a and b. -/
def zeroSign (rm : Rm) (a b : Bool) : Bool := if a = b then a else decide (rm = .rdn)

/-- The exact sum of two finite values: sign, mantissa, exponent. -/
def addFin (rm : Rm) (na : Bool) (ma : Nat) (ea : Int) (nb : Bool) (mb : Nat) (eb : Int) : Bool × Nat × Int :=
  let e := min ea eb
  let x := signedMant na (ma * 2 ^ (ea - e).toNat) + signedMant nb (mb * 2 ^ (eb - e).toNat)
  if x = 0 then (if ma = 0 ∨ mb = 0 ∨ na = nb then zeroSign rm na nb else decide (rm = .rdn), 0, e)
  else (decide (x < 0), x.natAbs, e)

/-- The invalid flag that a signalling NaN raises. -/
def sigFlag : FpVal → Nat
  | .nan _ true => flInvalid
  | _ => 0

def FpVal.isNan : FpVal → Bool
  | .nan _ _ => true
  | _ => false

def FpVal.neg : FpVal → FpVal
  | .nan n s => .nan n s
  | .inf n => .inf (!n)
  | .fin n m e => .fin (!n) m e

/-- a + b. -/
def Fmt.add (f : Fmt) (rm : Rm) (a b : FpVal) : Nat × Nat :=
  if a.isNan || b.isNan then (f.nan, sigFlag a ||| sigFlag b)
  else match a, b with
  | .inf x, .inf y => if x = y then (f.inf x, 0) else (f.nan, flInvalid)
  | .inf x, _ => (f.inf x, 0)
  | _, .inf y => (f.inf y, 0)
  | .fin na ma ea, .fin nb mb eb =>
    let r := addFin rm na ma ea nb mb eb
    f.round rm .ieee r.1 r.2.1 r.2.2
  | _, _ => (f.nan, 0)

/-- The exact product of two values that are no NaN; `none` for infinity × 0. -/
def mulVal (a b : FpVal) : Option FpVal :=
  match a, b with
  | .inf x, .inf y => some (.inf (x != y))
  | .inf x, .fin y m _ => if m = 0 then none else some (.inf (x != y))
  | .fin x m _, .inf y => if m = 0 then none else some (.inf (x != y))
  | .fin x m e, .fin y n d => some (.fin (x != y) (m * n) (e + d))
  | _, _ => none

/-- a × b. -/
def Fmt.mul (f : Fmt) (rm : Rm) (a b : FpVal) : Nat × Nat :=
  if a.isNan || b.isNan then (f.nan, sigFlag a ||| sigFlag b)
  else match mulVal a b with
  | none => (f.nan, flInvalid)
  | some (.inf n) => (f.inf n, 0)
  | some (.fin n m e) => f.round rm .ieee n m e
  | some (.nan _ _) => (f.nan, 0)

/-- d + a × b, rounded once; IEEE 754 leaves open whether infinity × 0 with a quiet NaN d raises invalid. -/
def Fmt.fma (f : Fmt) (rm : Rm) (a b d : FpVal) : Nat × Nat :=
  if a.isNan || b.isNan then (f.nan, sigFlag a ||| sigFlag b ||| sigFlag d)
  else match mulVal a b with
  | none => (f.nan, if d.isNan && !Config.fmaNanInvalid then sigFlag d else flInvalid)
  | some p => f.add rm d p

/-- The integer square root by Newton's iteration from above. -/
def isqrtGo : Nat → Nat → Nat → Nat
  | 0, _, x => x
  | n + 1, a, x =>
    let y := (x + a / x) / 2
    if x ≤ y then x else isqrtGo n a y

def isqrt (a : Nat) : Nat := if a = 0 then 0 else isqrtGo 1024 a (2 ^ (Nat.log2 a / 2 + 1))

/-- a / b. -/
def Fmt.div (f : Fmt) (rm : Rm) (a b : FpVal) : Nat × Nat :=
  if a.isNan || b.isNan then (f.nan, sigFlag a ||| sigFlag b)
  else match a, b with
  | .inf _, .inf _ => (f.nan, flInvalid)
  | .inf x, .fin y _ _ => (f.inf (x != y), 0)
  | .fin x _ _, .inf y => (f.signed (x != y) 0, 0)
  | .fin x m e, .fin y n d =>
    if n = 0 then (if m = 0 then (f.nan, flInvalid) else (f.inf (x != y), flDivZero))
    else if m = 0 then (f.signed (x != y) 0, 0)
    else f.round rm .ieee (x != y) (m * 2 ^ 96 / n) (e - d - 96) ((m * 2 ^ 96) % n ≠ 0)
  | _, _ => (f.nan, 0)

/-- √a. -/
def Fmt.sqrt (f : Fmt) (rm : Rm) (a : FpVal) : Nat × Nat :=
  match a with
  | .nan _ _ => (f.nan, sigFlag a)
  | .inf n => if n then (f.nan, flInvalid) else (f.inf false, 0)
  | .fin n m e =>
    if m = 0 then (f.signed n 0, 0)
    else if n then (f.nan, flInvalid)
    else
      let odd := e % 2 ≠ 0
      let m2 := (if odd then 2 * m else m) * 2 ^ 128
      let e2 := (if odd then e - 1 else e) - 128
      let r := isqrt m2
      f.round rm .ieee false r (e2 / 2) (r * r ≠ m2)

/-- Bits of the fixed-point computations of 2^x and log2 x: far more than the worst case of a correctly rounded FP32 result needs. -/
def fxBits : Nat := 320

/-- Σ z^(2i+1) / (2i+1) in fixed point, from term i on. -/
def atanhGo : Nat → Nat → Nat → Nat → Nat → Nat
  | 0, _, _, _, s => s
  | n + 1, i, z2, t, s => atanhGo n (i + 1) z2 (t * z2 / 2 ^ fxBits) (s + t / (2 * i + 1))

/-- ln(1 + x) for 0 ≤ x ≤ 1, both in fixed point: 2 atanh(x / (2 + x)). -/
def fxLn1p (x : Nat) : Nat :=
  let z := x * 2 ^ fxBits / (2 * 2 ^ fxBits + x)
  2 * atanhGo 110 0 (z * z / 2 ^ fxBits) z 0

def fxLn2 : Nat := fxLn1p (2 ^ fxBits)

/-- Σ x^i / i! in fixed point, from term i on. -/
def expGo : Nat → Nat → Nat → Nat → Nat → Nat
  | 0, _, _, _, s => s
  | n + 1, i, x, t, s => expGo n (i + 1) x (t * x / 2 ^ fxBits / (i + 1)) (s + t)

/-- 2^x for a fraction x in fixed point. -/
def fxExp2 (x : Nat) : Nat := expGo 80 0 (x * fxLn2 / 2 ^ fxBits) (2 ^ fxBits) 0

/-- 2^a. -/
def Fmt.exp2 (f : Fmt) (rm : Rm) (a : FpVal) : Nat × Nat :=
  match a with
  | .nan _ _ => (f.nan, sigFlag a)
  | .inf n => if n then (f.signed false 0, 0) else (f.inf false, 0)
  | .fin n m e =>
    let big := decide (m ≠ 0) && decide ((12 : Int) ≤ (Nat.log2 m : Int) + e)
    if big then f.round rm .ieee false 1 (if n then -4096 else 4096)
    else
      let v : Int := signedMant n m * (2 : Int) ^ (e + fxBits).toNat
      let k := v / (2 : Int) ^ fxBits
      let x := (v % (2 : Int) ^ fxBits).toNat
      if x = 0 then f.round rm .ieee false 1 k
      else f.round rm .ieee false (fxExp2 x / 2 ^ 20) (k - fxBits + 20) true

/-- log2 a. -/
def Fmt.log2 (f : Fmt) (rm : Rm) (a : FpVal) : Nat × Nat :=
  match a with
  | .nan _ _ => (f.nan, sigFlag a)
  | .inf n => if n then (f.nan, flInvalid) else (f.inf false, 0)
  | .fin n m e =>
    if m = 0 then (f.inf true, flDivZero)
    else if n then (f.nan, flInvalid)
    else
      let l := Nat.log2 m
      let k : Int := (l : Int) + e
      if m = 2 ^ l then (if k = 0 then (0, 0) else f.round rm .ieee (decide (k < 0)) k.natAbs 0)
      else
        let x := (m - 2 ^ l) * 2 ^ fxBits / 2 ^ l
        let v : Int := k * (2 : Int) ^ fxBits + ((fxLn1p x * 2 ^ fxBits / fxLn2 : Nat) : Int)
        f.round rm .ieee (decide (v < 0)) (v.natAbs / 2 ^ 20) (20 - (fxBits : Int)) true

/-- The order of two values that are no NaN, −0 below +0 when `zeros` is set: whether a < b. -/
def FpVal.lt (zeros : Bool) (a b : FpVal) : Bool :=
  match a, b with
  | .inf x, .inf y => x && !y
  | .inf x, _ => x
  | _, .inf y => !y
  | .fin x m e, .fin y n d =>
    let q := min e d
    let i := signedMant x (m * 2 ^ (e - q).toNat)
    let j := signedMant y (n * 2 ^ (d - q).toNat)
    decide (i < j) || (zeros && decide (i = j) && x && !y && m = 0)
  | _, _ => false

/-- Numerical equality. -/
def FpVal.same (a b : FpVal) : Bool := !a.isNan && !b.isNan && !FpVal.lt false a b && !FpVal.lt false b a

/-- VFMIN and VFMAX on codes (R463): no flag is set. -/
def Fmt.minMax (f : Fmt) (isMax : Bool) (x y : Nat) : Nat :=
  let a := f.decode x
  let b := f.decode y
  if a.isNan then (if b.isNan then f.nan else y)
  else if b.isNan then x
  else if FpVal.lt true a b = isMax then y else x

/-! ### Stochastic rounding (R432) -/

/-- The 64-bit hash of a seed, a count n and a lane i. -/
def srHash (seed n i : Nat) : Nat :=
  let z0 : BitVec 64 := BitVec.ofNat 64 seed + BitVec.ofNat 64 (n * 65536 ||| i) * 0x9E3779B97F4A7C15#64
  let z1 := (z0 ^^^ (z0 >>> 30)) * 0xBF58476D1CE4E5B9#64
  let z2 := (z1 ^^^ (z1 >>> 27)) * 0x94D049BB133111EB#64
  let z3 := z2 ^^^ (z2 >>> 31)
  z3.toNat

/-- The 16-bit r of element i of the conversion that finds CC_SRCOUNT = n. -/
def srR (seed n i : Nat) : Nat := srHash seed n i % 65536

/-! ### Conversions (R430, R431) -/

/-- The number formats of the element types (Table 13.10): an integer width, a float, the MXINT8 element, or a scale. -/
inductive NumFmt where
  | int (w : Nat)
  | flt (f : Fmt)
  | mxint
  | scale
  deriving DecidableEq, Repr

/-- Table 13.10, `none` for the reserved code. -/
def numFmt (ty : Nat) : Option NumFmt :=
  match ty with
  | 0 => some (.int 4) | 1 => some (.int 8) | 2 => some (.int 16) | 3 => some (.int 32) | 4 => some (.int 64)
  | 5 => some (.flt fp16) | 6 => some (.flt bf16) | 7 => some (.flt fp32) | 8 => some (.flt e4m3)
  | 9 => some (.flt e5m2) | 10 => some (.flt e3m2) | 11 => some (.flt e2m3) | 12 => some (.flt e2m1)
  | 13 => some .mxint | 14 => some .scale
  | _ => none

/-- The element width of Table 13.10. -/
def tyWidth (ty : Nat) : Nat :=
  match ty with
  | 0 => 4 | 1 => 8 | 2 => 16 | 3 => 32 | 4 => 64 | 5 => 16 | 6 => 16 | 7 => 32 | 8 => 8 | 9 => 8
  | 10 => 6 | 11 => 6 | 12 => 4 | 13 => 8 | 14 => 8
  | _ => 8

/-- A code of a number format as an exact value. -/
def NumFmt.value (n : NumFmt) (unsigned : Bool) (x : Nat) : FpVal :=
  match n with
  | .int w =>
    if unsigned then .fin false (x % 2 ^ w) 0
    else let i := toSigned w x; .fin (decide (i < 0)) i.natAbs 0
  | .flt f => f.decode x
  | .mxint => let i := toSigned 8 x; .fin (decide (i < 0)) i.natAbs (-6)
  | .scale => if x % 256 = 255 then .nan false false else .fin false 1 ((x % 256 : Nat) - 127)

/-- An integer of `w` bits from a rounded magnitude, saturating to the range. -/
def satInt (w : Nat) (unsigned neg : Bool) (n : Nat) : Nat × Bool :=
  let lo : Int := if unsigned then 0 else -((2 ^ (w - 1) : Nat) : Int)
  let hi : Int := if unsigned then ((2 ^ w - 1 : Nat) : Int) else ((2 ^ (w - 1) - 1 : Nat) : Int)
  let v := signedMant neg n
  if v < lo then (ofSigned w lo, true) else if hi < v then (ofSigned w hi, true) else (ofSigned w v, false)

/-- A value converted to a number format under RM and SAT (R430, R431), with its flags; `sticky` marks a value truncated by the
caller. -/
def NumFmt.convert (n : NumFmt) (rm : Rm) (sat unsigned : Bool) (v : FpVal) : Nat × Nat :=
  match n with
  | .flt f =>
    match v with
    | .nan neg sig => if f.kind = .finite then (f.signed neg f.maxCode, flInvalid) else (f.nan, if sig then flInvalid else 0)
    | .inf neg =>
      match f.kind with
      | .ieee => if sat then (f.signed neg f.maxCode, flSaturated) else (f.inf neg, 0)
      | .fn => if sat then (f.signed neg f.maxCode, flSaturated) else (f.nan, 0)
      | .finite => (f.signed neg f.maxCode, flInvalid)
    | .fin neg m e => f.round rm (.conv sat) neg m e
  | .int w =>
    match v with
    | .nan neg _ => ((satInt w unsigned neg (2 ^ 128)).1, flInvalid)
    | .inf neg => ((satInt w unsigned neg (2 ^ 128)).1, flInvalid)
    | .fin neg m e =>
      let big := decide (m ≠ 0) && decide ((128 : Int) ≤ (Nat.log2 m : Int) + e)
      let r := if big then (2 ^ 128, false) else roundTo rm neg m e 0 false
      let x := satInt w unsigned neg r.1
      (x.1, if x.2 then flSaturated else if r.2 then flInexact else 0)
  | .mxint =>
    match v with
    | .nan neg _ => (if neg then 129 else 127, flInvalid)
    | .inf neg => (if neg then 129 else 127, flInvalid)
    | .fin neg m e =>
      let big := decide (m ≠ 0) && decide ((16 : Int) ≤ (Nat.log2 m : Int) + e)
      let r := if big then (2 ^ 16, true) else roundTo rm neg m e (-6) false
      if 127 < r.1 then (if neg then 129 else 127, flOverflow + flInexact + flSaturated)
      else (ofSigned 8 (signedMant neg r.1), if r.2 then flInexact else 0)
  | .scale => (0, 0)

/-- Formats for which RM SR rounds stochastically (R430). -/
def srFormat (ty : Nat) : Bool := (decide (5 ≤ ty) && decide (ty ≤ 13)) && ty != 7

/-! ### MX blocks (R466, OCP MX v1.0) -/

/-- The exponent of the largest power of two that an element type holds. -/
def mxEmax (ty : Nat) : Int :=
  match ty with
  | 8 => 8 | 9 => 15 | 10 => 4 | 11 => 2 | 12 => 2 | _ => 0

/-- floor(log2 |v|) of a finite non-zero value. -/
def FpVal.top : FpVal → Option Int
  | .fin _ m e => if m = 0 then none else some ((Nat.log2 m : Int) + e)
  | _ => none

/-- The E8M0 scale of a block for an element type: 2 to the power floor(log2 of the largest magnitude) − emax, held to the range
of E8M0. OCP MX v1.0 leaves a block with a NaN or infinity and a block of zeros to the implementation: free values. -/
def mxScale (ty : Nat) (vs : List FpVal) : Nat :=
  if vs.any (fun v => v.top = none && !(match v with | .fin _ 0 _ => true | _ => false)) then Config.mxScaleSpecial 0 % 256
  else match vs.filterMap FpVal.top with
  | [] => Config.mxScaleSpecial 1 % 256
  | t :: ts => (max 0 (min 254 (ts.foldl max t - mxEmax ty + 127))).toNat

/-- A value times 2^k. -/
def FpVal.scale (v : FpVal) (k : Int) : FpVal :=
  match v with
  | .fin n m e => .fin n m (e + k)
  | v => v

end Sys2Proof.Machine
end

