-- ==== Sys2Proof/Machine/Coherence.lean ====
section
/-!
DEFINITION. Coherence (chapter 10): the bay bus, the homes at the vault slices and the Hitches, the host's snoops and memory requests,
back-invalidation and bias flips.
-/
namespace Sys2Proof.Machine

/-! ### Directory (Table 7.3, R348) -/

/-- The set bay pairs and host ports of a list of holder codes. -/
def coarseOf (hs : List Nat) : Dir :=
  .coarse ((hs.filter (· < 96)).foldl (fun a h => insertNat (h / 2) a) []) ((hs.filter (96 ≤ ·)).foldl (fun a h => insertNat (h - 96) a) [])

/-- A holder added to a shared directory; a fifth one turns SHARED_EXACT into SHARED_COARSE. -/
def Dir.add (d : Dir) (h : Nat) : Dir :=
  match d with
  | .none => .shared [h]
  | .shared hs => let l := insertNat h hs; if l.length ≤ 4 then .shared l else coarseOf l
  | .owned o => if o = h then .shared [h] else .shared (insertNat h [o])
  | .coarse ps hs => if h < 96 then .coarse (insertNat (h / 2) ps) hs else .coarse ps (insertNat (h - 96) hs)

/-- A holder taken out; SHARED_COARSE stays as it is. -/
def Dir.remove (d : Dir) (h : Nat) : Dir :=
  match d with
  | .shared hs => let l := hs.filter (· ≠ h); if l.isEmpty then .none else .shared l
  | .owned o => if o = h then .none else d
  | d => d

/-- The holders that a snoop goes to. -/
def Dir.holders : Dir → List Nat
  | .none => []
  | .shared hs => hs
  | .owned o => [o]
  | .coarse ps hs => ps.flatMap (fun i => [2 * i, 2 * i + 1]) ++ hs.map (· + 96)

/-- The directory of a line at its vault home slice. -/
def State.dir (s : State) (line : Nat) : Dir := (s.line line).dir
def State.setDir (s : State) (line : Nat) (d : Dir) : State := s.setLine line { s.line line with dir := d }

/-- The transaction of a line at its home. -/
def State.txn (s : State) (line : Nat) : Txn := SMap.get {} s.txns line
def State.setTxn (s : State) (line : Nat) (t : Txn) : State := { s with txns := SMap.set {} s.txns line t }

/-! ### HDM lines (R239, R360, R361) -/

/-- The port and HDM fathom that name a Spool line. -/
def State.hdmOf (s : State) (line : Nat) : Option (Nat × Nat) :=
  (s.hdmEntries.find? (fun i => s.fld .SP_HDM_MAP_FATHOM i = line / 0x40000)).map (fun i => (i / 16384, i % 16384))

/-- HDM fathom `f` of port `p` is in device bias. -/
def State.deviceBias (s : State) (p f : Nat) : Bool := (s.fld .HT_BIAS_BIAS (512 * p + f / 32)).testBit (f % 32)

/-- The Hitch that is the home of a line for device requesters (Table 10.1). -/
def State.hitchOf (s : State) (line : Nat) : Option Nat :=
  match linePort line with
  | some p => some p
  | none =>
    match s.hdmOf line with
    | some (p, f) => if s.fld .HT_LINK_STATUS_HDM p = 1 && !s.deviceBias p f then some p else none
    | none => none

/-- An access of the line waits for a bias flip of its fathom (R362). -/
def State.flipping (s : State) (line : Nat) : Bool :=
  match s.hdmOf line with
  | some (p, f) => s.flag .HT_BIAS_FLIP_BUSY p && s.fld .HT_BIAS_FLIP_FATHOM p = f
  | none => false

/-- The Spool line of a DPA of port `p`, with its map entry's coil. -/
def State.hdmLine (s : State) (p dpa : Nat) : Option (Nat × Nat) :=
  let i := 16384 * p + dpa / 0x1000000
  if dpa < 2 ^ 38 && s.flag .SP_HDM_MAP_VALID i then
    some ((s.fld .SP_HDM_MAP_FATHOM i * 0x1000000 + dpa % 0x1000000) / 64, s.fld .SP_HDM_MAP_COIL i)
  else none

/-! ### Copies in bays -/

/-- Every device copy of a line goes, with the L1D copies and the reservations on it; the dirty data if one was dirty. -/
def State.takeAll (s : State) (line : Nat) : Option (LineData × Bool) × State :=
  s.plies.foldl (fun acc e =>
    match (acc.2.ply e.1).copy line with
    | some c =>
      if c.str then acc
      else ((if c.st = .m then some (c.data, c.poison) else acc.1), ((acc.2.forget e.1 line).dropL1d e.1 line).dropRsv e.1 line)
    | none => acc) (none, s)

/-- The writeback-class messages of bay `k` for a line that the home has not processed. -/
def State.wbInFlight (s : State) (k line : Nat) : List WbEntry := (s.bus k).wbs.filter (fun w => w.line = line && decide (w.stage < 2))

/-- A ply's copy after a snoop (Table 10.3). -/
def snoopCopy (kind : Snoop) (c : CLine) : Option CLine :=
  match kind, c.st with
  | .snpS, _ => some { c with st := .s }
  | .snpInv, _ => none
  | .snpClean, .m => some { c with st := .e }
  | _, _ => some c

/-- What a ply's copy, as the snoop finds it, gives to the combined response (R337). -/
def snoopRsp (c : CLine) : SnpRsp :=
  match c.st with
  | .m => { holder := 0, rsp := .rspData, data := some c.data, poison := c.poison }
  | .e => { holder := 0, rsp := .rspV }
  | _ => { holder := 0, rsp := .rspS }

/-- The rank of a response in the combination of R337. -/
def rspRank : Rsp → Nat
  | .rspI => 0 | .rspS => 1 | .rspV => 2 | .rspData => 3

/-- A bay's combined answer to a home snoop: every ply, and the writeback buffers, whose WB and CLN data answers (R336, R337,
Table 10.7). -/
def State.snoopBay (s : State) (k line : Nat) (kind : Snoop) : SnpRsp × State :=
  let wb := (s.wbInFlight k line).filter (fun w => w.kind = .wb ∨ w.kind = .cln)
  let first : SnpRsp := match wb with
    | w :: _ => { holder := k, rsp := .rspData, data := w.data, poison := w.poison }
    | [] => { holder := k, rsp := .rspI }
  (span (4 * k) 4).foldl (fun acc y =>
    match (acc.2.ply y).copy line with
    | some c =>
      if c.str then acc
      else
        let r := snoopRsp c
        let s := match snoopCopy kind c with
          | some c' => if c' = c then acc.2 else acc.2.setCopy y line c'
          | none => ((acc.2.forget y line).dropL1d y line).dropRsv y line
        (if rspRank acc.1.rsp < rspRank r.rsp then { r with holder := k } else acc.1, s)
    | none => acc) (first, s)

/-! ### BA_ counters (R366) -/

/-- A BA_ count, unless FREEZE is set. -/
def State.baBump (s : State) (k : Nat) (f : Fld) (i : Nat) : State := if s.flag .BA_CTL_FREEZE k then s else s.bump f i 1

/-! ### Hitch requests to the host (Table 10.9, R355) -/

/-- A CXL.cache request to the host; the port sends at most 4,096 at a time (R130). -/
def State.issueD2h (s : State) (p : Nat) (r : D2h) : State :=
  let pt := s.port p
  let r := { r with id := pt.nextD2h }
  let s := s.setPort p { pt with d2h := pt.d2h ++ [r], nextD2h := pt.nextD2h + 1 }
  if pt.d2h.length < 4096 then
    s.send (.d2h p r.id r.op r.line (if r.op = .woWrInv then some r.data else none) r.poison)
  else s

/-- A request of the host interface is finished; the next one that waited is sent. -/
def State.endD2h (s : State) (p id : Nat) : State :=
  let pt := s.port p
  let next := (pt.d2h.drop 4096).head?
  let s := s.setPort p { pt with d2h := pt.d2h.filter (fun r => r.id ≠ id) }
  match next with
  | some r => s.send (.d2h p r.id r.op r.line (if r.op = .woWrInv then some r.data else none) r.poison)
  | none => s

/-- The snoop-filter entry of a host line. -/
def State.sf (s : State) (p line : Nat) : SfEntry := SMap.get {} (s.port p).sf line
def State.setSf (s : State) (p line : Nat) (e : SfEntry) : State :=
  s.setPort p { s.port p with sf := SMap.set {} (s.port p).sf line e }

/-- The directory that a snoop-filter entry stands for. -/
def SfEntry.dir (e : SfEntry) : Dir :=
  match e.holders, e.excl with
  | [], _ => .none
  | h :: _, true => .owned h
  | hs, false => if hs.length ≤ 4 then .shared hs else coarseOf hs

/-- The copies of a host line leave the device caches, and the host hears of it: DirtyEvict for a dirty line,
CleanEvictNoData for a clean exclusive one; shared clean lines are never reported (R127, R354, R355). -/
def State.recallLine (s : State) (p line : Nat) : State :=
  let e := s.sf p line
  if e.holders.isEmpty then s
  else
    let r := s.takeAll line
    let s := r.2.setSf p line {}
    match r.1 with
    | some (d, po) => s.issueD2h p { id := 0, op := .dirtyEvict, line := line, data := d, poison := po }
    | none => if e.excl then s.issueD2h p { id := 0, op := .cleanEvict, line := line } else s

/-- Room for an entry in the set of 16 ways (R354), and below the EXCL limit of R140: the least recently used entry is recalled. -/
def State.sfRoom (s : State) (p line : Nat) (excl : Bool) : State :=
  let oldest := fun (l : SMap SfEntry) => l.foldl (fun (acc : Option (Nat × Nat)) e =>
    match acc with
    | some (_, u) => if e.2.used < u then some (e.1, e.2.used) else acc
    | none => some (e.1, e.2.used)) none
  let others := (s.port p).sf.filter (fun e => e.1 ≠ line && e.1 % 131072 = line % 131072)
  let s := if 16 ≤ others.length then
      match oldest others with
      | some (l, _) => s.recallLine p l
      | none => s
    else s
  let ex := (s.port p).sf.filter (fun e => e.1 ≠ line && e.2.excl)
  if excl && decide ((s.port p).lmax ≤ ex.length) && decide (0 < (s.port p).lmax) then
    match oldest ex with
    | some (l, _) => s.recallLine p l
    | none => s
  else s

/-- A bay is recorded as a holder at the Hitch. -/
def State.sfAdd (s : State) (p line k : Nat) (excl : Bool) (coil : Option Nat) : State :=
  let s := s.sfRoom p line excl
  let e := s.sf p line
  let hs := if excl then [k] else if e.excl then [k] else insertNat k e.holders
  s.setSf p line { holders := hs, excl := excl, coil := if excl || e.holders.isEmpty then coil else e.coil, used := s.fresh }
    |> fun s => { s with fresh := s.fresh + 1 }

/-! ### Lost owners (R350) -/

/-- The owner's copy has been lost: the home writes poison and zero data, sets NONE and logs COH_OWNER_LOST. -/
def State.ownerLost (s : State) (line k : Nat) : State :=
  match s.hitchOf line with
  | some p =>
    ((s.setSf p line {}).issueD2h p { id := 0, op := .dirtyEvict, line := line, poison := true }).event .cohOwnerLost ⟨.bay, k⟩ none (64 * line)
  | none =>
    ((s.store (64 * line) 64 0).setLine line { s.line line with poison := true, dir := .none }).event .cohOwnerLost ⟨.bay, k⟩ none (64 * line)

/-- The directory of a line at its home, whichever unit that is. -/
def State.homeDir (s : State) (line : Nat) : Dir :=
  match s.hitchOf line with
  | some p => (s.sf p line).dir
  | none => s.dir line

/-! ### Snoops and back-invalidations (R348, R359) -/

/-- The snoop that a request of holder `q` needs, and the holders that it goes to (Table 10.6). INVR and CLNR also reach
another ply of the requester's own bay. -/
def homeSnoops (op : HomeOp) (hitch : Bool) (d : Dir) (q : Nat) : Snoop × List Nat :=
  let others := d.holders.filter (· ≠ q)
  match op, d with
  | .rda, .owned _ => (if hitch then .snpInv else .snpS, others)
  | .rds, .owned _ => (if hitch then .snpInv else .snpS, others)
  | .rdx, _ => (.snpInv, others)
  | .own _, _ => (.snpInv, others)
  | .clnr, .owned o => (.snpClean, [o])
  | .invr, d => (.snpInv, d.holders)
  | _, _ => (.snpInv, [])

/-- A home snoop of a host holder is a back-invalidation through its Hitch, at most 1,024 outstanding. -/
def State.sendBI (s : State) (p line : Nat) (kind : Snoop) : State :=
  let pt := s.port p
  let s := s.setPort p { pt with backInv := pt.backInv ++ [line] }
  if pt.backInv.length < 1024 then s.send (.backInv p line kind) else s

/-- A back-invalidation has been answered; the next one that waited goes out. -/
def State.endBI (s : State) (p line : Nat) : State :=
  let pt := s.port p
  let next := (pt.backInv.drop 1024).head?
  let s := s.setPort p { pt with backInv := pt.backInv.erase line }
  match next with
  | some l => s.send (.backInv p l (s.txn l).snoop)
  | none => s

/-! ### Ending a transaction -/

/-- The data that a home grants from the vault, with its poison and the state after the line check. -/
def State.homeData (s : State) (line : Nat) : LineData × Bool × State :=
  match lineVault line with
  | some v => s.readLine line v
  | none => (0, false, s)

/-- The vault home slice has every answer it needs: directory and grant of Table 10.6. -/
def State.grantVault (s : State) (line : Nat) (t : Txn) : State :=
  let q := t.src
  let d := s.dir line
  match t.op with
  | .clnr => s.setTxn line { t with busy := false }
  | .invr => (s.setDir line .none).setTxn line { t with busy := false }
  | op =>
    let r := s.homeData line
    let s := r.2.2
    let g := fun (st : Mesi) (withData : Bool) (nd : Dir) =>
      (s.setDir line nd).setTxn line { t with grant := some { st := st, data := if withData then some r.1 else none, poison := withData && r.2.1 } }
    match op, d with
    | .rda, .none => g .e true (.owned q)
    | .rda, d => g .s true (d.add q)
    | .rds, .none => g .s true (.shared [q])
    | .rds, d => g .s true (d.add q)
    | .rdx, _ => g .m true (.owned q)
    | .own full, d => g .m (!full && !d.holders.contains q) (.owned q)
    | _, _ => s.setTxn line { t with busy := false }

/-- The Hitch has every answer it needs: it asks the host (Table 10.9), or is done. -/
def State.askHost (s : State) (p line : Nat) (t : Txn) : State :=
  let e := s.sf p line
  let go := fun (op : D2hOp) => (s.setTxn line { t with d2h := some op }).issueD2h p { id := 0, op := op, line := line, bay := t.src }
  match t.op with
  | .rda => go .rdShared
  | .rds => go .rdShared
  | .rdx => go .rdOwn
  | .own full => go (if full || e.holders.contains t.src then .rdOwnNoData else .rdOwn)
  | .invr => ((s.setSf p line {}).setTxn line { t with busy := false })
  | _ => s.setTxn line { t with busy := false }

/-- A CLNR or INVR is answered Cmp: the requests that wait for it at the bay are done (R346). -/
def State.cmpBay (s : State) (line : Nat) (t : Txn) : State :=
  let k := t.src
  s.setBus k { s.bus k with reqs := (s.bus k).reqs.map (fun r =>
    if r.line = line && r.pending && (r.req = .bclr ∨ r.req = .binv) && r.ply = t.ply then { r with done := true } else r) }

/-- No answer is outstanding: the transaction goes on to its grant or its end. -/
def State.advance (s : State) (line : Nat) (t : Txn) : State :=
  if t.waiting.isEmpty && t.rsps.isEmpty then
    let cmp := match t.op with
      | .clnr => true
      | .invr => true
      | _ => false
    let s := match s.hitchOf line with
      | some p => s.askHost p line t
      | none => s.grantVault line t
    if cmp then s.cmpBay line t else s
  else s.setTxn line t

/-! ### Non-caching requests and host requests at a home, in one step (Tables 10.6 and 10.11) -/

/-- The value of the `size` bytes at `off` of a line. -/
def lineField (d : LineData) (off size : Nat) : Nat := d.toNat >>> (8 * off) % 2 ^ (8 * size)

/-- A line with `size` bytes at `off` replaced. -/
def setLineField (d : LineData) (off size v : Nat) : LineData := BitVec.ofNat 512 (setBits d.toNat (8 * off) (8 * size) v)

/-- The byte mask of `size` bytes at `off`. -/
def fieldMask (off size : Nat) : BitVec 64 := BitVec.ofNat 64 ((2 ^ size - 1) * 2 ^ off)

/-- The new memory value of an atomic (Table 14.5), `op` being its opcode. -/
def amoValue (op size m b c : Nat) : Nat :=
  let w := 8 * size
  let m := m % 2 ^ w
  let b := b % 2 ^ w
  let f := if size = 2 then bf16 else fp32
  match op with
  | 0x10 => b
  | 0x11 => (m + b) % 2 ^ w
  | 0x12 => m &&& b
  | 0x13 => m ||| b
  | 0x14 => m ^^^ b
  | 0x15 => if toSigned w m ≤ toSigned w b then m else b
  | 0x16 => if toSigned w m ≤ toSigned w b then b else m
  | 0x17 => min m b
  | 0x18 => max m b
  | 0x19 => if m = c % 2 ^ w then b else m
  | 0x1A => (f.add .rne (f.decode m) (f.decode b)).1
  | 0x1B => f.minMax false m b
  | 0x1C => f.minMax true m b
  | _ => m

/-- Copies in device caches are invalidated, dirty data first written to the vault. -/
def State.invalidateAll (s : State) (line : Nat) : State :=
  let r := s.takeAll line
  match r.1 with
  | some (d, po) =>
    let s := (r.2.store (64 * line) 64 d.toNat)
    s.setLine line { s.line line with poison := po }
  | none => r.2

/-- A non-caching read at a vault home slice (RdNC): status, data, poison (R214, R348). -/
def State.ncRead (s : State) (line : Nat) (coil shared : Option Nat) (c : LineCheck := {}) : Nat × LineData × Bool × State :=
  match lineVault line with
  | none => (spPerm, 0, false, s)
  | some v =>
    let st := s.vaultCheck v coil shared
    if st = spOk then
      let s := s.checkLine line v c
      match s.dirtyCopies (fun l x => l = line && !x.str) with
      | (_, x) :: _ => (spOk, x.data, x.poison, s)
      | [] => let r := s.readLine line v; (spOk, r.1, r.2.1, r.2.2)
    else (st, 0, false, if st = spPerm then s.permEvent v coil (64 * line) else s)

/-- A non-caching masked write (WrNC): every copy is invalidated, dirty data merged, the directory NONE. -/
def State.ncWrite (s : State) (line : Nat) (coil shared : Option Nat) (data : LineData) (mask : BitVec 64) (poison : Bool)
    (core : Option Nat := none) : Nat × State :=
  match lineVault line with
  | none => (spPerm, s)
  | some v =>
    let st := s.vaultCheck v coil shared
    if st = spOk then
      let s := (s.invalidateAll line).writeLine line v data mask poison
      (spOk, ((s.setDir line .none).hitMonitors line core).hitGranule (64 * line))
    else (st, if st = spPerm then s.permEvent v coil (64 * line) else s)

/-- A non-caching atomic (ATOM): the old value. -/
def State.ncAtom (s : State) (line : Nat) (coil shared : Option Nat) (op off size b c : Nat) (core : Option Nat := none) :
    Nat × Nat × Bool × State :=
  let r := s.ncRead line coil shared
  if r.1 = spOk then
    let m := lineField r.2.1 off size
    let w := r.2.2.2.ncWrite line coil shared (setLineField 0 off size (amoValue op size m b c)) (fieldMask off size) false core
    (spOk, m, r.2.2.1, w.2)
  else (r.1, 0, false, r.2.2.2)

/-- The completion codes of S2M messages: Cmp, Cmp-S, Cmp-E. -/
def s2mCmp : Nat := 0
def s2mCmpS : Nat := 1
def s2mCmpE : Nat := 2

/-- A host's M2S request at the home (Table 10.11). -/
def State.serveHost (s : State) (line p : Nat) (op : HomeOp) : State :=
  let q := 96 + p
  let d := s.dir line
  let read := fun (s : State) (nd : Dir) (code : Nat) =>
    let r := s.homeData line
    (r.2.2.setDir line nd).send (.memReply p code r.1 r.2.1)
  let devOnly := fun (d : Dir) => d.holders.filter (· < 96)
  let shareOwner := fun (s : State) =>
    (devOnly d).foldl (fun s k =>
      let r := s.snoopBay k line .snpS
      match r.1.data with
      | some x => let s := r.2.store (64 * line) 64 x.toNat; s.setLine line { s.line line with poison := r.1.poison }
      | none => r.2) s
  match op with
  | .memRd mv snp =>
    let cls := if mv = 2 ∧ snp ≠ 3 then 2 else mv
    if cls = 2 then read (s.invalidateAll line) (.owned q) s2mCmpE
    else if cls = 1 then
      match d with
      | .owned o => if o = q then read s (.owned q) s2mCmpS else read (shareOwner s) (d.add q) s2mCmpS
      | d => read s (d.add q) s2mCmpS
    else
      match s.dirtyCopies (fun l x => l = line && !x.str) with
      | (_, x) :: _ => s.send (.memReply p s2mCmp x.data x.poison)
      | [] => read s d s2mCmp
  | .memRdData =>
    match d with
    | .none => read s (.owned q) s2mCmpE
    | .owned o => if o = q then read s (.owned q) s2mCmpE else read (shareOwner s) (d.add q) s2mCmpS
    | d => read s (d.add q) s2mCmpS
  | .memInv mv =>
    if mv = 0 then (s.setDir line (d.remove q)).send (.memReply p s2mCmp 0 false)
    else ((s.invalidateAll line).setDir line (.owned q)).send (.memReply p s2mCmpE 0 false)
  | .memClnEvct => (s.setDir line (d.remove q)).send (.memReply p s2mCmp 0 false)
  | .memWr mv data mask poison =>
    match lineVault line with
    | some v =>
      if d = .owned q then
        let s := s.writeLine line v data mask poison
        (s.setDir line (if mv = 0 then .none else d)).send (.memReply p s2mCmp 0 false)
      else
        let s := (s.invalidateAll line).writeLine line v data mask poison
        ((s.setDir line .none).hitMonitors line none).send (.memReply p s2mCmp 0 false)
    | none => s
  | _ => s

/-! ### Requests at a home -/

/-- A request taken for a line that is not busy (R348, R350). -/
def State.begin (s : State) (line : Nat) (r : HomeReq) : State :=
  let hitch := s.hitchOf line
  match r.op with
  | .rdnc => let x := s.ncRead line none none; x.2.2.2.send (.home x.1 x.2.1.toNat x.2.2.1)
  | .wrnc d m po => let x := s.ncWrite line none none d m po; x.2.send (.home x.1 0 false)
  | .atom op off size b c => let x := s.ncAtom line none none op off size b c; x.2.2.2.send (.home x.1 x.2.1 x.2.2.1)
  | .memRd _ _ => s.serveHost line (r.src - 96) r.op
  | .memRdData => s.serveHost line (r.src - 96) r.op
  | .memInv _ => s.serveHost line (r.src - 96) r.op
  | .memClnEvct => s.serveHost line (r.src - 96) r.op
  | .memWr _ _ _ _ => s.serveHost line (r.src - 96) r.op
  | op =>
    let grantOp := match op with
      | .clnr => false
      | .invr => false
      | _ => true
    let s := if grantOp && s.homeDir line = .owned r.src then s.ownerLost line r.src else s
    let sn := homeSnoops op hitch.isSome (s.homeDir line) r.src
    let t : Txn := { s.txn line with busy := true, op := op, src := r.src, ply := r.ply, snoop := sn.1, waiting := sn.2, rsps := [],
                                     d2h := none, grant := none, installed := false }
    let s := (s.setTxn line t)
    let s := (sn.2.filter (96 ≤ ·)).foldl (fun s h => s.sendBI (h - 96) line sn.1) s
    s.advance line t

/-- The transaction of a line has ended: the requests that wait are taken in the order of their arrival (R346). -/
def State.serveQueue (s : State) (line : Nat) : Nat → State
  | 0 => s
  | n + 1 =>
    let t := s.txn line
    if t.busy then s
    else match t.queue with
    | [] => if t = {} then s else s.setTxn line {}
    | r :: rest => ((s.setTxn line { t with queue := rest }).begin line r).serveQueue line n

/-- A request reaches the home of a line: taken at once, or behind the transaction in progress (DEDUCED, log entry 41). -/
def State.request (s : State) (line : Nat) (r : HomeReq) : State :=
  let t := s.txn line
  let hostBusy := match s.hitchOf line with
    | some p => (s.port p).d2h.any (fun x => x.line = line)
    | none => false
  if t.busy || hostBusy then s.setTxn line { t with queue := t.queue ++ [r] }
  else (s.begin line r).serveQueue line (t.queue.length + 1)

/-- The line's home has nothing in progress for it. -/
def State.quietLine (s : State) (line : Nat) : Bool := !(s.txn line).busy && !s.flipping line

/-! ### Bay bus commands (R335 to R344) -/

/-- The requests of the slice other than this one are a cycle older; BA_STATUS.PROMOTED is unchanged until a request is
promoted. -/
def ageOthers (b : BayBus) (y line : Nat) : BayBus :=
  { b with reqs := b.reqs.map (fun r =>
    if !r.pending && r.line % 4 = line % 4 && !(r.ply = y && r.line = line) then { r with age := r.age + 1 } else r) }

/-- An older promoted request of the slice keeps the grant (R342). -/
def outranked (b : BayBus) (r : BusReq) : Bool :=
  b.reqs.any (fun x => x.promoted && !x.pending && x.line % 4 = r.line % 4 && !(x.ply = r.ply && x.line = r.line) &&
    (!r.promoted || decide (r.age < x.age)))

/-- The bits of BA_STATUS.PROMOTED. -/
def promotedBits (b : BayBus) : Nat :=
  (List.range 4).foldl (fun a i => a + (if b.reqs.any (fun r => r.promoted && !r.pending && r.line % 4 = i) then 2 ^ i else 0)) 0

/-- The request of a ply leaves the bus. -/
def State.dropReq (s : State) (y line : Nat) : State :=
  let k := bayOfPly y
  s.setBus k { s.bus k with reqs := (s.bus k).reqs.filter (fun r => !(r.ply = y && r.line = line)) }

/-- The data of a full-mask drain that waits for ownership of a line in a ply; zero for ZERO (R308, R324). -/
def State.fullData (s : State) (y line : Nat) : LineData :=
  match (coresOf y).findSome? (fun c => ((s.core c).mb.find? (fun e => e.line = line && e.draining)).map (·.data)) with
  | some d => d
  | none => 0

/-- What a grant or a peer's supply installs in the requesting ply, by its request (Table 9.6). -/
def State.installFor (s : State) (r : BusReq) (st : Mesi) (data : Option LineData) (poison : Bool) : Option State :=
  let own := (s.ply r.ply).copy r.line
  let full := match r.req with
    | .bown f => f
    | _ => false
  let d := if full then s.fullData r.ply r.line else match data, own with
    | some d, _ => d
    | none, some c => c.data
    | none, none => 0
  let s := s.setPly r.ply { s.ply r.ply with victim := (s.ply r.ply).victim.filter (fun e => e.1 ≠ r.line) }
  s.fillPly r.ply r.line { st := st, data := d, age := if r.streaming then 3 else 1, streaming := r.streaming, poison := poison && !full,
                           presence := match own with | some c => c.presence | none => [], prefetched := !r.demand }

/-- One request is granted its slice's arbitration cycle: answered RETRY, served within the bay, or sent home (R339 to R344). -/
def State.grantBus (s : State) (r : BusReq) : State :=
  let k := bayOfPly r.ply
  let i := 4 * k + r.line % 4
  let s := s.baBump k .BA_TXN_COUNT i
  let s := if s.flag .BA_CTL_FREEZE k then s else s.setFld .BA_MAXWAIT_CYCLES i (max (s.fld .BA_MAXWAIT_CYCLES i) (min 8191 r.age))
  let peers := (span (4 * k) 4).filter (fun y => y ≠ r.ply)
  let set := fun (s : State) (f : BusReq → BusReq) => s.setBus k { s.bus k with reqs := (s.bus k).reqs.map (fun x =>
    if x.ply = r.ply && x.line = r.line then f x else x) }
  if (s.bus k).reqs.any (fun x => x.line = r.line && x.ply ≠ r.ply && x.pending) then
    set (s.baBump k .BA_RETRY_COUNT i) (fun x => { x with age := x.age + 1 })
  else
    let home := fun (s : State) =>
      let held := (s.bus k).wbs.any (fun w => w.line = r.line)
      set s (fun x => { x with pending := true, held := held, promoted := false })
    let holders := peers.filterMap (fun y => ((s.ply y).copy r.line).bind (fun c => if c.str then none else some (y, c)))
    let excl := holders.find? (fun h => h.2.st = .e ∨ h.2.st = .m)
    let dng := fun (s : State) (y : Nat) (c : CLine) =>
      let w : WbEntry := { ply := y, line := r.line, kind := .dng, data := if c.st = .m then some c.data else none,
                           poison := c.poison, stage := 1 }
      s.setBus k { s.bus k with wbs := (s.bus k).wbs ++ [w] }
    match r.req with
    | .brd | .brds =>
      match excl, holders with
      | some (y, c), _ =>
        match ((dng (s.setCopy y r.line { c with st := .s }) y c).dropReq r.ply r.line).installFor r .s (some c.data) c.poison with
        | some s => s.baBump k .BA_C2C_COUNT k
        | none => s
      | none, (_, c) :: _ =>
        match (s.dropReq r.ply r.line).installFor r .s (some c.data) c.poison with
        | some s => s.baBump k .BA_C2C_COUNT k
        | none => s
      | none, [] => home s
    | .brdx | .bown _ =>
      match excl with
      | some (y, c) =>
        let s1 := ((s.forget y r.line).dropL1d y r.line).dropRsv y r.line
        match (s1.dropReq r.ply r.line).installFor r .m (some c.data) c.poison with
        | some s => s.baBump k .BA_C2C_COUNT k
        | none => s
      | none => home (holders.foldl (fun s h => ((s.forget h.1 r.line).dropL1d h.1 r.line).dropRsv h.1 r.line) s)
    | .bclr | .binv => home s
    | .bnc => set s (fun x => { x with pending := true })

/-- A request of a ply is presented and arbitrated. -/
def State.busRequest (s : State) (r : BusReq) : State :=
  match s.present r with
  | none => s
  | some s =>
    let k := bayOfPly r.ply
    match (s.bus k).reqs.find? (fun x => x.ply = r.ply && x.line = r.line && !x.pending) with
    | none => s
    | some x =>
      if x.req ≠ r.req ∨ outranked (s.bus k) x then s
      else (s.setBus k (ageOthers (s.bus k) r.ply r.line)).grantBus x
        |> fun s => s.setFld .BA_STATUS_PROMOTED k (promotedBits (s.bus k))

/-- The bay of a ply is up. -/
def State.busUp (s : State) (y : Nat) : Bool := s.module.railsOn && decide (y < 384)

/-- A presentation on the bus by ply `y`, on behalf of its coil. -/
def State.busCommand (s : State) (y line : Nat) (req : BayReq) (streaming demand : Bool) : State :=
  if s.busUp y then
    s.busRequest { ply := y, line := line, req := req, coil := s.plyCoil y, streaming := streaming, demand := demand }
  else s

def execBrd (y line : Nat) (streaming : Bool) (s : State) := commit s (fun s => s.busCommand y line .brd streaming true)
def execBrds (y line : Nat) (s : State) := commit s (fun s => s.busCommand y line .brds true false)
def execBrdx (y line : Nat) (s : State) := commit s (fun s => s.busCommand y line .brdx false true)
def execBown (y line : Nat) (full : Bool) (s : State) := commit s (fun s => s.busCommand y line (.bown full) false true)
def execBclr (y line : Nat) (s : State) := commit s (fun s => s.busCommand y line .bclr false true)
def execBinv (y line : Nat) (s : State) := commit s (fun s => s.busCommand y line .binv false true)

/-- The writeback phase accepts a writeback-class message of ply `y` while fewer than 64 of the bay, and fewer than 16 of the ply,
await their Ack (R340, R343). -/
def State.acceptWb (s : State) (y line : Nat) (kind : WbKind) : State :=
  let k := bayOfPly y
  let b := s.bus k
  if 64 ≤ (b.wbs.filter (fun w => 1 ≤ w.stage)).length ∨ 16 ≤ (b.wbs.filter (fun w => 1 ≤ w.stage ∧ w.ply = y ∧ w.data.isSome)).length then s
  else
    match b.wbs.findIdx? (fun w => w.ply = y && w.line = line && w.kind = kind && w.stage = 0) with
    | none => s
    | some i =>
      let s := s.setBus k { b with wbs := b.wbs.modify i (fun w => { w with stage := 1 }) }
      s.setFld .BA_STATUS_WB_PENDING k ((s.bus k).wbs.filter (fun w => 1 ≤ w.stage)).length

def execBwb (y line : Nat) (s : State) := commit s (fun s => s.acceptWb y line .wb)
def execBevc (y line : Nat) (s : State) := commit s (fun s => s.acceptWb y line .evc)
def execBcln (y line : Nat) (s : State) := commit s (fun s => s.acceptWb y line .cln)

/-- A request reaches age 4,096 and keeps top priority from then on (R342) (DEDUCED, log entry 14). -/
def execRequestPromoted (y line : Nat) (s : State) := commit s (fun s =>
  let k := bayOfPly y
  let b := s.bus k
  if b.reqs.any (fun r => r.ply = y && r.line = line && !r.pending && !r.promoted) then
    let s := s.setBus k { b with reqs := b.reqs.map (fun r =>
      if r.ply = y && r.line = line && !r.pending then { r with promoted := true, age := max r.age 4096 } else r) }
    (s.baBump k .BA_STARVED_COUNT (4 * k + line % 4)).setFld .BA_STATUS_PROMOTED k (promotedBits (s.bus k))
  else s)

/-! ### Requests of bays at the homes (R348) -/

/-- A pending miss of a ply that its home answers with PERM, FENCED or poison ends without a fill; the accesses that wait for
the line find the answer when they are answered themselves. -/
def State.takeRequest (s : State) (y line : Nat) (want : BayReq → Bool) (op : HomeOp) (c : LineCheck) : State :=
  let k := bayOfPly y
  match (s.bus k).reqs.find? (fun r => r.ply = y && r.line = line && r.pending && !r.held && !r.done && want r.req) with
  | none => s
  | some r =>
    if s.flipping line || (s.txn line).busy && (s.txn line).src = k && (s.txn line).ply = y ||
        (s.txn line).queue.any (fun x => x.src = k && x.ply = y) then s
    else
      let refused := match linePort line with
        | some p => !s.hostUp p
        | none => match lineVault line with
          | some v => s.vaultCheck v r.coil r.shared ≠ spOk
          | none => true
      if refused then
        let s := match lineVault line with
          | some v => if s.vaultCheck v r.coil r.shared = spPerm && r.demand then s.permEvent v r.coil (64 * line) else s
          | none => s
        s.dropReq y line
      else if s.slicedOut line r.coil then s
      else
        let s := match lineVault line with
          | some v => s.checkLine line v c
          | none => s
        s.request line { op := op, src := k, ply := y }

def execClnr (y line : Nat) (s : State) := commit s (fun s => s.takeRequest y line (· = .bclr) .clnr {})
def execInvr (y line : Nat) (s : State) := commit s (fun s => s.takeRequest y line (· = .binv) .invr {})

/-! ### Writeback-class messages at the homes (R349) -/

/-- The home processes a message of bay `k`, and its Ack is on the way. -/
def State.takeWb (s : State) (k line : Nat) (kind : WbKind) : State :=
  match (s.bus k).wbs.findIdx? (fun w => w.line = line && w.kind = kind && w.stage = 1) with
  | none => s
  | some i =>
    match (s.bus k).wbs[i]? with
    | none => s
    | some w =>
      let s := s.setBus k { s.bus k with wbs := (s.bus k).wbs.modify i (fun w => { w with stage := 2 }) }
      match s.hitchOf line with
      | some p =>
        if (s.sf p line).dir = .owned k then
          let e := s.sf p line
          match kind, w.data with
          | .wb, some d => (s.setSf p line {}).issueD2h p { id := 0, op := .dirtyEvict, line := line, data := d, poison := w.poison }
          | .evc, _ => (s.setSf p line {}).issueD2h p { id := 0, op := .cleanEvict, line := line }
          | .cln, some d =>
            let s := (span (4 * k) 4).foldl (fun s y => match (s.ply y).copy line with
              | some c => if c.str then s else s.setCopy y line { c with st := .s }
              | none => s) s
            (s.setSf p line { e with excl := false }).issueD2h p
              { id := 0, op := .dirtyEvict, line := line, data := d, poison := w.poison, bay := k, again := true }
          | .dng, some d => (s.setSf p line { e with excl := false }).issueD2h p
              { id := 0, op := .dirtyEvict, line := line, data := d, poison := w.poison, bay := k, again := true }
          | _, _ => s.setSf p line { e with excl := false }
        else s
      | none =>
        match lineVault line with
        | none => s
        | some v =>
          if s.dir line = .owned k && s.vaultCheck v none none = spOk then
            let s := match w.data with
              | some d => s.writeLine line v d (BitVec.allOnes 64) w.poison
              | none => s
            s.setDir line (match kind with
              | .wb => .none
              | .cln => .owned k
              | .evc => .none
              | .dng => .shared [k])
          else s

def execWb (k line : Nat) (s : State) := commit s (fun s => s.takeWb k line .wb)
def execCln (k line : Nat) (s : State) := commit s (fun s => s.takeWb k line .cln)
def execEvc (k line : Nat) (s : State) := commit s (fun s => s.takeWb k line .evc)
def execDng (k line : Nat) (s : State) := commit s (fun s => s.takeWb k line .dng)

/-- An Ack or Cmp arrives at a bay: the writeback buffer entry, or the request, is freed, and requests held behind it leave (R343). -/
def execAck (k line : Nat) (s : State) := commit s (fun s =>
  let b := s.bus k
  let wbs := b.wbs.filter (fun w => !(w.line = line && w.stage = 2))
  let reqs := b.reqs.filter (fun r => !(r.line = line && r.done))
  let blocked := wbs.any (fun w => w.line = line)
  let s := s.setBus k { b with wbs := wbs, reqs := reqs.map (fun r => if r.line = line && !blocked then { r with held := false } else r) }
  s.setFld .BA_STATUS_WB_PENDING k (wbs.filter (fun w => 1 ≤ w.stage)).length)

/-! ### Non-caching requests (R330, R348) -/

/-- A non-caching request that its vault would serve waits there, since its coil is paused (R249). -/
def State.ncWaits (s : State) (line : Nat) (coil shared : Option Nat) : Bool :=
  s.slicedOut line coil && (lineVault line).any (fun v => s.vaultCheck v coil shared = spOk)

/-- A non-caching read, write or atomic that reaches the home: at once, or behind the line's transaction. -/
def State.homeRead (s : State) (line : Nat) (coil shared : Option Nat) (c : LineCheck) : State :=
  if s.ncWaits line coil shared then s
  else if s.quietLine line then let x := s.ncRead line coil shared c; x.2.2.2.send (.home x.1 x.2.1.toNat x.2.2.1)
  else s.request line { op := .rdnc, src := 200 }
def execWrnc (line : Nat) (coil shared : Option Nat) (data : LineData) (mask : BitVec 64) (poison : Bool) (s : State) := commit s (fun s =>
  if s.ncWaits line coil shared then s
  else if s.quietLine line then let x := s.ncWrite line coil shared data mask poison; x.2.send (.home x.1 0 false)
  else s.request line { op := .wrnc data mask poison, src := 200 })
def execAtom (line : Nat) (coil shared : Option Nat) (op off size b c : Nat) (s : State) := commit s (fun s =>
  if s.ncWaits line coil shared then s
  else if s.quietLine line then let x := s.ncAtom line coil shared op off size b c; x.2.2.2.send (.home x.1 x.2.1 x.2.2.1)
  else s.request line { op := .atom op off size b c, src := 200 })

/-! ### Snoops at the bays and responses at the homes (R336, R337, R348, R350) -/

/-- A home's snoop reaches bay `k`, whose combined response is on its way; a fenced bay answers nothing and the home is told
FENCED by its notice (R202). -/
def State.deliverSnoop (s : State) (k line : Nat) (kind : Snoop) : State :=
  let t := s.txn line
  if t.busy && t.snoop = kind && t.waiting.contains k && decide (k < 96) then
    let r := s.snoopBay k line kind
    ((r.2.baBump k .BA_HOME_SNOOPS_COUNT k).setTxn line { t with waiting := t.waiting.erase k, rsps := t.rsps ++ [r.1] })
  else s

def execSnps (k line : Nat) (s : State) := commit s (fun s => s.deliverSnoop k line .snpS)
def execSnpinv (k line : Nat) (s : State) := commit s (fun s => s.deliverSnoop k line .snpInv)
def execSnpcur (k line : Nat) (s : State) := commit s (fun s => s.deliverSnoop k line .snpCur)
def execSnpclean (k line : Nat) (s : State) := commit s (fun s => s.deliverSnoop k line .snpClean)

/-- A holder's answer is taken by the home: dirty data is written, an owner that has nothing and no message in flight is lost. -/
def State.takeRsp (s : State) (h line : Nat) (r : SnpRsp) : State :=
  let t : Txn := s.txn line
  let left := t.rsps.filter (fun x => x.holder ≠ h)
  let s := s.setTxn line { t with rsps := left }
  let lost := s.homeDir line = .owned h && (r.rsp = .rspI || r.rsp = .rspS) && decide (h < 96) && (s.wbInFlight h line).isEmpty
  let s := if lost then s.ownerLost line h else s
  let s := match r.data, s.hitchOf line with
    | some d, none => let s := s.store (64 * line) 64 d.toNat; s.setLine line { s.line line with poison := r.poison }
    | some d, some p => s.issueD2h p { id := 0, op := .dirtyEvict, line := line, data := d, poison := r.poison, bay := h,
                                       again := t.snoop == Snoop.snpClean }
    | none, _ => s
  let s := match s.hitchOf line with
    | some p =>
      if t.snoop = Snoop.snpInv then
        let e := s.sf p line
        let hs := e.holders.filter (· ≠ h)
        s.setSf p line (if hs.isEmpty then {} else { e with holders := hs, excl := false })
      else if t.snoop = Snoop.snpClean && r.data.isSome then s.setSf p line { s.sf p line with excl := false }
      else s
    | none => s
  s.advance line (s.txn line) |>.serveQueue line ((s.txn line).queue.length + 1)

/-- A response of holder `h` of kind `r` arrives at the home of a line. -/
def State.response (s : State) (h line : Nat) (kind : Rsp) : State :=
  match (s.txn line).rsps.find? (fun x => x.holder = h && x.rsp = kind) with
  | some r => s.takeRsp h line r
  | none => s

def execRspi (h line : Nat) (s : State) := commit s (fun s => s.response h line .rspI)
def execRsps (h line : Nat) (s : State) := commit s (fun s => s.response h line .rspS)
def execRspv (h line : Nat) (s : State) := commit s (fun s => s.response h line .rspV)
def execRspdata (h line : Nat) (s : State) := commit s (fun s => s.response h line .rspData)

/-! ### Grants (R347) -/

/-- The grant of a line arrives at the requesting bay and is installed; its CmpAck is on the way. A prefetch answered with poison
installs nothing (R316). -/
def execGrant (line : Nat) (s : State) := commit s (fun s =>
  let t := s.txn line
  match t.grant with
  | none => s
  | some g =>
    if !t.busy || t.installed then s
    else
      let ack := fun (s : State) => s.setTxn line { s.txn line with installed := true }
      match (s.bus t.src).reqs.find? (fun r => r.ply = t.ply && r.line = line && r.pending) with
      | none => ack s
      | some r =>
        if g.poison && !r.demand then ack (s.dropReq t.ply line)
        else match (s.dropReq t.ply line).installFor r g.st g.data g.poison with
        | some s => ack s
        | none => s)

/-- The CmpAck reaches the home: the grant transaction ends, and the next request that waits is taken (R346). -/
def execCmpack (line : Nat) (s : State) := commit s (fun s =>
  let t := s.txn line
  if t.busy && t.installed then
    (s.setTxn line { t with busy := false, installed := false, grant := none }).serveQueue line (t.queue.length + 1)
  else s)

/-! ### Loss of a holder (R352, R353) -/

/-- The sweep of every home for bay `k`, in effect complete when it begins: a bay reset or fence, or the reset of one ply of it whose
copies are already gone. -/
def State.sweep (s : State) (k : Nat) (wholeBay : Bool) : State :=
  let alive := fun (s : State) (line : Nat) => !wholeBay && (span (4 * k) 4).any (fun y => match (s.ply y).copy line with
    | some c => !c.str && (c.st = .e || c.st = .m)
    | none => false) || !wholeBay && !(s.wbInFlight k line).isEmpty
  let s := s.lines.foldl (fun s e =>
    match e.2.dir with
    | .owned o => if o = k && !alive s e.1 then s.ownerLost e.1 k else s
    | .shared _ => if wholeBay then s.setDir e.1 (e.2.dir.remove k) else s
    | _ => s) s
  let s := s.ports.foldl (fun s pe =>
    pe.2.sf.foldl (fun s e =>
      if e.2.excl && e.2.holders.contains k && !alive s e.1 then
        (s.setSf pe.1 e.1 {}).issueD2h pe.1 { id := 0, op := .dirtyEvict, line := e.1, poison := true }
      else if wholeBay && !e.2.excl && e.2.holders.contains k then
        let hs := e.2.holders.filter (· ≠ k)
        if hs.isEmpty then (s.setSf pe.1 e.1 {}).issueD2h pe.1 { id := 0, op := .cleanEvict, line := e.1 }
        else s.setSf pe.1 e.1 { e.2 with holders := hs }
      else s) s) s
  s.setFld .BA_STATUS_SWEEP k 1

/-- Every home has finished its sweep for bay `k`. -/
def execSweepDone (k : Nat) (s : State) := commit s (fun s => s.setFld .BA_STATUS_SWEEP k 0)

/-! ### The host's answers to the Hitch (Table 10.9) -/

/-- The accesses and drains of a ply's cores that wait for a line take it as poisoned (R355). -/
def State.poisonWaiters (s : State) (y line : Nat) : State :=
  s.setPly y { s.ply y with poisonedMiss := insertNat line (s.ply y).poisonedMiss }

/-- The HDM fathoms that the decoders of a port cover, each decoder's size being in units of 256 MiB (R121). -/
def State.hdmFathoms (s : State) (p : Nat) : Nat :=
  16 * (SMap.get 0 (s.port p).cfg CfgField.hdmDecoder0.ctorIdx + SMap.get 0 (s.port p).cfg CfgField.hdmDecoder1.ctorIdx)


/-- The host's GO responses. -/
def State.hitchGrant (s : State) (p line : Nat) (t : Txn) (g : GrantMsg) : State :=
  let coil := match (s.bus t.src).reqs.find? (fun r => r.ply = t.ply && r.line = line && r.pending) with
    | some r => r.coil
    | none => none
  let excl := g.st ≠ .s
  ((s.sfAdd p line t.src excl coil)).setTxn line { t with d2h := none, grant := some g }

/-- A GO response: S, E and M grant, I ends an eviction, Err installs nothing and the waiting access takes poison (R355) (DEDUCED, log entry 40). -/
def execGo (p id : Nat) (go : GoKind) (data : LineData) (poison : Bool) (s : State) := commit s (fun s =>
  match (s.port p).d2h.find? (fun r => r.id = id) with
  | none => s
  | some r =>
    if r.op = .woWrInv then s
    else
      let s := s.endD2h p id
      let t := s.txn r.line
      if t.busy && t.d2h = some r.op then
        match go with
        | .err => (s.dropReq t.ply r.line).setTxn r.line { t with busy := false, d2h := none }
            |> fun s => s.poisonWaiters t.ply r.line |>.serveQueue r.line (t.queue.length + 1)
        | .i => (s.setTxn r.line { t with busy := false, d2h := none }).serveQueue r.line (t.queue.length + 1)
        | _ =>
          let st : Mesi := match r.op with
            | .rdShared => .s
            | _ => .m
          s.hitchGrant p r.line t { st := st, data := if r.op = .rdOwnNoData then none else some data, poison := poison }
      else s.serveQueue r.line (t.queue.length + 1))

/-- GO_WritePull for a DirtyEvict: the Hitch sends the data, and a line that its bay keeps is read again (Table 10.9). -/
def execGoWritepull (p id : Nat) (s : State) := commit s (fun s =>
  match (s.port p).d2h.find? (fun r => r.id = id && r.op = .dirtyEvict) with
  | none => s
  | some r =>
    let s := (s.endD2h p id).send (.d2h p id .dirtyEvict r.line (some r.data) r.poison)
    if r.again then s.issueD2h p { id := 0, op := .rdShared, line := r.line, bay := r.bay }
    else s.serveQueue r.line ((s.txn r.line).queue.length + 1))

/-! ### Host snoops (Table 10.10, R357) -/

/-- The response codes of Table 10.10. -/
def rspIHitI : Nat := 0
def rspIHitSE : Nat := 1
def rspIFwdM : Nat := 2
def rspSHitSE : Nat := 3
def rspSFwdM : Nat := 4
def rspVHitV : Nat := 5
def rspVFwdV : Nat := 6

/-- An H2D snoop of a host address, answered from the snoop filter. -/
def State.hostSnoop (s : State) (p addr : Nat) (kind : Snoop) : State :=
  let line := hostLine p addr
  let e := s.sf p line
  if s.flag .HT_HOLD_STATUS_HOLD p || e.holders.isEmpty then s.send (.h2dRsp p rspIHitI none)
  else
    let r := e.holders.foldl (fun (acc : Option LineData × State) k =>
      let x := acc.2.snoopBay k line kind
      (match x.1.data with | some d => some d | none => acc.1, x.2)) (none, s)
    let s := match kind with
      | .snpInv => r.2.setSf p line {}
      | .snpS => r.2.setSf p line { e with excl := false }
      | _ => r.2
    let code := match kind, r.1 with
      | .snpInv, none => rspIHitSE
      | .snpInv, some _ => rspIFwdM
      | .snpS, none => rspSHitSE
      | .snpS, some _ => rspSFwdM
      | _, none => rspVHitV
      | _, some _ => rspVFwdV
    s.send (.h2dRsp p code r.1)

def execH2dSnpinv (p addr : Nat) (s : State) := commit s (fun s => s.hostSnoop p addr .snpInv)
def execH2dSnpdata (p addr : Nat) (s : State) := commit s (fun s => s.hostSnoop p addr .snpS)
def execH2dSnpcur (p addr : Nat) (s : State) := commit s (fun s => s.hostSnoop p addr .snpCur)

/-! ### Back-invalidation (R359) -/

/-- BIRsp: the host's state after a back-invalidation, taken as the matching snoop response; dirty data came as MemWr before
it. -/
def execBirsp (p line : Nat) (kind : Rsp) (s : State) := commit s (fun s =>
  let t := s.txn line
  if (s.port p).backInv.contains line && t.waiting.contains (96 + p) then
    let s := (s.endBI p line).setTxn line { t with waiting := t.waiting.erase (96 + p) }
    let keep := kind ≠ .rspI && t.snoop ≠ .snpInv
    let s := if keep then s else s.setDir line ((s.dir line).remove (96 + p))
    s.advance line (s.txn line) |>.serveQueue line ((s.txn line).queue.length + 1)
  else s)

/-- A host request for a line under a back-invalidation: the BIConflict handshake orders it after the device transaction. -/
def execBiconflict (p line : Nat) (op : HomeOp) (s : State) := commit s (fun s =>
  if (s.port p).backInv.contains line && (s.txn line).busy then
    let host := match op with
      | .memRd _ _ => true
      | .memRdData => true
      | .memInv _ => true
      | .memClnEvct => true
      | .memWr _ _ _ _ => true
      | _ => false
    if host then s.setTxn line { s.txn line with queue := (s.txn line).queue ++ [{ op := op, src := 96 + p }] } else s
  else s)

/-! ### Bias flips (R360, R362, R145) -/

/-- HT_BIAS_FLIP.GO, written through port p. -/
def execBiasFlip (p fathom : Nat) (toDevice : Bool) (s : State) := commit s (fun s =>
  if decide (8 ≤ p) || !s.module.railsOn then s
  else if s.fld .HT_LINK_STATUS_HDM p ≠ 1 then s.setFld .HT_BIAS_FLIP_STATUS p 2
  else if s.flag .HT_BIAS_FLIP_BUSY p then s.setFld .HT_BIAS_FLIP_STATUS p 1
  else if s.hdmFathoms p ≤ fathom then s.setFld .HT_BIAS_FLIP_STATUS p 3
  else
    s.setFld .HT_BIAS_FLIP_FATHOM p fathom |>.setFld .HT_BIAS_FLIP_TO_DEVICE p (b2n toDevice) |>.setFld .HT_BIAS_FLIP_STATUS p 0
      |>.setFld .HT_BIAS_FLIP_BUSY p 1)

/-- The lines of a Spool fathom. -/
def inFathom (fathom line : Nat) : Bool := line / 0x40000 = fathom

/-- The steps of Table 12 of a flip end: to device bias the Hitch recalls its entries of the fathom and flushes the host's copies; to
host bias every line is handled as under INVR. -/
def State.endFlip (s : State) (p : Nat) : State :=
  let f := s.fld .HT_BIAS_FLIP_FATHOM p
  let sp := s.fld .SP_HDM_MAP_FATHOM (16384 * p + f)
  let toDevice := s.flag .HT_BIAS_FLIP_TO_DEVICE p
  let i := 512 * p + f / 32
  let s := if toDevice then
      ((s.port p).sf.filter (fun e => inFathom sp e.1)).foldl (fun s e => s.recallLine p e.1) s
    else
      (s.lines.filter (fun e => inFathom sp e.1 && decide (e.2.dir ≠ .none))).foldl (fun s e => (s.invalidateAll e.1).setDir e.1 .none) s
  s.setFld .HT_BIAS_BIAS i (setBit (s.fld .HT_BIAS_BIAS i) (f % 32) toDevice) |>.setFld .HT_BIAS_FLIP_BUSY p 0

def execBiasFlipDone (p : Nat) (s : State) := commit s (fun s => if s.flag .HT_BIAS_FLIP_BUSY p then s.endFlip p else s)

/-! ### Non-coherent accesses (R339, R363) -/

/-- The data of a non-coherent access arrives: the line is filled, unless it is poisoned and only prefetched. -/
def State.bncFill (s : State) (y line : Nat) (d : LineData) (po : Bool) : State :=
  match (s.bus (bayOfPly y)).reqs.find? (fun r => r.ply = y && r.line = line && r.req = .bnc) with
  | none => s
  | some r =>
    if po && !r.demand then s.dropReq y line
    else
      let c : CLine := { st := .s, data := d, str := true, age := if r.streaming then 3 else 1, streaming := r.streaming,
                         poison := po, prefetched := !r.demand }
      ((s.dropReq y line).fillPly y line c).getD s

/-- The target of a non-coherent access refuses it with a status: whoever waits for the line finds it (Table 5.2, R685). -/
def State.bncRefuse (s : State) (y line status : Nat) : State :=
  match (s.bus (bayOfPly y)).reqs.find? (fun r => r.ply = y && r.line = line && r.req = .bnc) with
  | none => s
  | some r =>
    let s := s.dropReq y line
    if r.demand then s.setPly y { s.ply y with refusedMiss := SMap.set 0 (s.ply y).refusedMiss line status } else s

/-- A non-coherent access of ply `y` is routed to its target without a snoop: the read of an STR line fills the ply
cache; host windows are read over CXL.io and splice windows through their Bend port, whose answers fill it later. -/
def State.bncServe (s : State) (y line : Nat) (c : LineCheck) : State :=
  match (s.bus (bayOfPly y)).reqs.find? (fun r => r.ply = y && r.line = line && r.req = .bnc) with
  | none => s
  | some r =>
    if s.ncWaits line r.coil r.shared then s
    else
    let k := bayOfPly y
    let s := s.baBump k .BA_TXN_COUNT (4 * k + line % 4)
    match placeOf (64 * line) with
    | .spool v _ =>
      if s.vaultCheck v r.coil r.shared = spOk then
        let s := s.checkLine line v c
        let x := s.readLine line v
        x.2.2.bncFill y line x.1 x.2.1
      else
        let st := s.vaultCheck v r.coil r.shared
        (if st = spPerm && r.demand then s.permEvent v r.coil (64 * line) else s).bncRefuse y line st
    | .scratch z off =>
      if s.scratchValid z off then s.bncFill y line (s.lineAt (64 * line)) ((s.ply z).scratchPoison.contains (off / 64)) else s.bncRefuse y line spPerm
    | .host p a =>
      if r.pending then s
      else if !s.hostUp p then s.bncRefuse y line spFenced
      else
        let pt := s.port p
        let s := s.setPort p { pt with tags := pt.tags ++ [{ tag := pt.nextTag, fn := 0, src := .ply y line, addr := a, len := 64 }],
                                       nextTag := pt.nextTag + 1 }
        let s := s.setBus k { s.bus k with reqs := (s.bus k).reqs.map (fun x => if x.ply = y && x.line = line then { x with pending := true } else x) }
        s.send (.ioRead p pt.nextTag a 64)
    | .splice b w o =>
      if r.pending then s
      else if !s.bendUp b then s.bncRefuse y line spFenced
      else if s.msgWindow b w then s.bncRefuse y line spPerm
      else
        let s := s.setBus k { s.bus k with reqs := (s.bus k).reqs.map (fun x => if x.ply = y && x.line = line then { x with pending := true } else x) }
        s.toBend b { src := .ply y line, window := w, addr := o, coil := r.coil.getD 0 }
    | .rig _ => s.bncFill y line (if s.module.rigLoaded then Config.rigFirmware line else 0) false
    | _ => s.dropReq y line

end Sys2Proof.Machine
end

