-- ==== Sys2Proof/Machine/CoreOps.lean ====
section
/-!
DEFINITION. What every core instruction is built from (chapter 12): registers, faults and the start of termination, the conditions under
which the next instruction issues, translation, and how a line becomes available to a core.
-/
namespace Sys2Proof.Machine

/-! ### Registers (R411, R445) -/

/-- A general register; g0 reads as zero. -/
def Core.rg (x : Core) (n : Nat) : Word := if n = 0 then 0 else SMap.get 0 x.g n
/-- A write of g0 is discarded. -/
def Core.setG (x : Core) (n : Nat) (v : Word) : Core := if n = 0 then x else { x with g := SMap.set 0 x.g n v }

def Core.rv (x : Core) (n : Nat) : BitVec 1024 := SMap.get 0 x.v n
def Core.setV (x : Core) (n : Nat) (v : BitVec 1024) : Core := { x with v := SMap.set 0 x.v n v }

/-- A predicate register; p0 reads as all ones. -/
def Core.rp (x : Core) (n : Nat) : BitVec 128 := if n = 0 then BitVec.allOnes 128 else SMap.get 0 x.p n
/-- A write of p0 is discarded. -/
def Core.setP (x : Core) (n : Nat) (v : BitVec 128) : Core := if n = 0 then x else { x with p := SMap.set 0 x.p n v }

/-- Element m, n of an accumulator. -/
def Core.ra (x : Core) (a m n : Nat) : BitVec 32 := SMap.get 0 x.acc (2048 * a + 32 * m + n)
def Core.setA (x : Core) (a m n : Nat) (v : BitVec 32) : Core := { x with acc := SMap.set 0 x.acc (2048 * a + 32 * m + n) v }

/-- A control register that the core holds (Table 12.2). -/
def Core.cr (x : Core) (n : Nat) : Nat := SMap.get 0 x.cc n
def Core.setCr (x : Core) (n v : Nat) : Core := { x with cc := SMap.set 0 x.cc n v }

def ccFpctl : Nat := 0x08
def ccFpflags : Nat := 0x09
def ccMstat : Nat := 0x0A
def ccSeed : Nat := 0x0B
def ccSrcount : Nat := 0x0C
def ccRigEpc : Nat := 0x10
def ccRigCause : Nat := 0x11
def ccRigSave : Nat := 0x12

/-- Sticky flags set in CC_FPFLAGS (R429). -/
def Core.raise (x : Core) (flags : Nat) : Core := x.setCr ccFpflags (x.cr ccFpflags ||| flags)

/-! ### Faults and the start of termination (R435, R436, R438) -/

/-- The fault codes of Table 12.6. -/
def fcTranslation : Nat := 1
def fcPerm : Nat := 2
def fcFenced : Nat := 3
def fcEcc : Nat := 4
def fcAlign : Nat := 5
def fcIllegal : Nat := 6
def fcWatchdog : Nat := 7

/-- Termination starts (Table 12.7 step 1): issue stops, the matrix engine stops and its queue is discarded, event waits end, and every
merging-buffer and NT entry drains (DEDUCED, log entry 63). -/
def Core.startEnd (x : Core) : Core :=
  { x with ending := true, mma := [], wait := .none, mon := none, stalled := none,
           mb := x.mb.map (fun e => { e with draining := true }), nt := x.nt.map (fun e => { e with draining := true }) }

/-- A fault of the task on a core: the first one is recorded and starts termination, a later one is counted (R438). -/
def State.coreFault (s : State) (c : Nat) (f : CoreFault) : State :=
  let x := s.core c
  if !x.running then s
  else match x.fault with
  | some _ => s.bump .CR_FAULT_COUNT_COUNT c 1
  | none => (s.setCore c ({ x with fault := some { f with rig := x.rig } }).startEnd).setFld .CR_STATUS_PSTATE c 1

/-- A precise fault at the instruction at the PC. -/
def State.trap (s : State) (c code : Nat) (cause addr : Nat := 0) : State :=
  s.coreFault c { code := code, cause := cause, pc := (s.core c).pc, addr := addr }

/-- A translation-side cause as a precise fault (Table 12.6). -/
def State.trapCause (s : State) (c : Nat) (k : Cause) (addr : Nat) : State :=
  match k.kind with
  | 1 => s.trap c fcTranslation k.code addr
  | 2 => s.trap c fcPerm k.code addr
  | 3 => s.trap c fcFenced k.code addr
  | _ => s.trap c fcEcc k.code addr

/-! ### Issue (R416, R417, R446) -/

/-- The registers that an instruction reads or writes. -/
structure Uses where
  g : List Nat := []
  v : List Nat := []
  a : List Nat := []
  deriving DecidableEq, Repr

/-- The general registers that outstanding loads will write. -/
def AccOp.dstG : AccOp → Option Nat
  | .load (.g n _ _) => some n
  | .amo _ _ _ n => some n
  | .ldrsv n => some n
  | .stcnd _ n => some n
  | _ => none

def AccOp.dstV : AccOp → Option Nat
  | .load (.v n _ _ _) => some n
  | _ => none

/-- A register of the instruction awaits the value of an outstanding access, or an accumulator a matrix instruction. -/
def Core.pendingOn (x : Core) (u : Uses) : Bool :=
  x.accesses.any (fun a => (match a.op.dstG with
    | some n => n ≠ 0 && u.g.contains n
    | none => false) || (match a.op.dstV with
    | some n => u.v.contains n
    | none => false)) || x.mma.any (fun m => u.a.contains m.acc)

/-- The line that holds the instruction at the PC, when the fetch has completed: a WPA at RIG level, a DVA at TASK level that the ITB
translates (R446). -/
def State.fetchLine (s : State) (c : Nat) : Option Nat :=
  let x := s.core c
  if x.rig then some (x.pc / 64)
  else match x.coil with
  | none => none
  | some k =>
    match x.itb.find? (fun l => l.serves k x.pc) with
    | none => none
    | some l => match s.leafWpa l x.pc with
      | .inl w => some (w / 64)
      | .inr _ => none

/-- The fetch of the instruction at the PC has completed: its line is valid in the L1I (R298). -/
def State.fetched (s : State) (c : Nat) : Bool :=
  match s.fetchLine c with
  | some l => (s.core c).l1i.contains l
  | none => false

/-- The core runs a task, neither ends it nor waits, its clock runs (PSTATE RUN or STALL), and it is not fenced or resetting. -/
def State.coreLive (s : State) (c : Nat) : Bool :=
  decide (c < Config.cores) && (s.core c).running && !(s.core c).ending && (s.core c).wait = .none &&
    decide (s.fld .CR_STATUS_PSTATE c < 2) && !s.fences.cores.contains c && !(s.core c).resetting

/-- The next instruction of a core issues: it is live, fetched, and no register it uses is pending (DEDUCED, log entry 13) (DESIGN CHOICE, log entry 92). -/
def State.mayIssue (s : State) (c : Nat) (u : Uses) : Bool :=
  s.coreLive c && s.fetched c && !(s.core c).pendingOn u

/-- An instruction that may issue: ILLEGAL when its encoding is not legal (R447, R448), else its effect. -/
def State.instr (s : State) (c : Nat) (legal : Bool) (u : Uses) (f : State → State) : State :=
  if s.mayIssue c u then (if legal then f s else s.trap c fcIllegal) else s

/-- The instruction retires and the PC becomes `pc`. -/
def State.retireAt (s : State) (c pc : Nat) : State :=
  (s.setCore c { s.core c with pc := pc % 2 ^ 64, stalled := none, progress := 0 }).setFld .CR_STATUS_PSTATE c 0 |>.bump .CR_RETIRED_COUNT c 1

/-- The instruction retires and the PC advances by 8 (R442). -/
def State.retire (s : State) (c : Nat) : State := s.retireAt c ((s.core c).pc + 8)

/-- An instruction that only changes the core's own state. -/
def State.update (s : State) (c : Nat) (f : Core → Core) : State := (s.setCore c (f (s.core c))).retire c

/-- The core stalls on an access of kind `k` at a DVA whose translation is not at hand (R273). -/
def State.stall (s : State) (c : Nat) (k : AccKind) (dva : Nat) : State :=
  (s.setCore c { s.core c with stalled := some (k, dva) }).setFld .CR_STATUS_PSTATE c 1

/-- The core stalls without a translation to wait for. -/
def State.hold (s : State) (c : Nat) : State := s.setFld .CR_STATUS_PSTATE c 1

/-- Operand fields are legal register numbers (Table 13.3). -/
def gOk (l : List Nat) : Bool := l.all (fun n => decide (n < 32))
def pOk (l : List Nat) : Bool := l.all (fun n => decide (n < 8))

/-! ### Translation of a core's access (R258, R271, R273, Table 13.7) -/

/-- What an address of an access becomes: a WPA with the region and what the request carries, a fault, or a wait for a walk. -/
inductive Xlat where
  | ok (wpa : Nat) (region : Region) (leaf : Option Leaf)
  | fault (c : Cause)
  | miss
  deriving DecidableEq, Repr

/-- A leaf of a core's DTB or ITB, else of its bay's cache. -/
def State.findLeaf (s : State) (c coil dva : Nat) (fetch : Bool) : Option Leaf :=
  let x := s.core c
  match (if fetch then x.itb else x.dtb).find? (fun l => l.serves coil dva) with
  | some l => some l
  | none => (s.bay (bayOfCore c)).cache.find? (fun l => l.serves coil dva)

/-- The entries of a core's data and instruction translation buffers (Table 8.5). -/
def dtbSize : Nat := 16
def itbSize : Nat := 8

/-- A DVA of the core's task translated through a leaf at hand (DEDUCED, log entry 20). -/
def State.xlatDva (s : State) (c dva : Nat) (k : AccKind) : Xlat :=
  match (s.core c).coil with
  | none => .fault .contextOff
  | some coil =>
    match s.preFault coil dva with
    | some e => .fault e
    | none =>
      match s.findLeaf c coil dva (k = .fetch) with
      | none => .miss
      | some l =>
        match l.denies k with
        | some e => .fault e
        | none =>
          match s.leafWpa l dva with
          | .inr e => .fault e
          | .inl w =>
            match s.spliceDenies coil w k with
            | some e => .fault e
            | none => .ok w l.region (some l)

/-- An effective address under SPACE (Table 13.7). -/
def State.xlat (s : State) (c space e : Nat) (k : AccKind) : Xlat :=
  match space with
  | 0 =>
    if (s.core c).rig then
      match placeOf e with
      | .regs _ => .ok e .dev none
      | .rig _ => if k = .write ∨ k = .atomic then .fault .access else .ok e .str none
      | .splice _ _ _ => .ok e .str none
      | _ => .ok e .coh none
    else s.xlatDva c e k
  | 1 =>
    if 2 ^ 24 ≤ e then .fault .range
    else if s.scratchValid (plyOfCore c) e || s.scratchWaits (plyOfCore c) e then
      .ok (scratchBase + plyOfCore c * 0x1000000 + e) .coh none
    else .fault .access
  | _ => if 2 ^ 33 ≤ e ∨ 384 ≤ e / 2 ^ 24 then .fault .range else .ok (scratchBase + e) .coh none

/-- The leaf is kept in the core's own translation buffer (R271). -/
def State.putLeaf (s : State) (c : Nat) (l : Option Leaf) (fetch : Bool) : State :=
  match l with
  | none => s
  | some l =>
    let x := s.core c
    if fetch then s.setCore c { x with itb := addLeaf itbSize x.itb l } else s.setCore c { x with dtb := addLeaf dtbSize x.dtb l }

/-- The leaf that an access uses; one that came from the bay cache is a hit there (Table 8.10). -/
def State.keepLeaf (s : State) (c : Nat) (l : Option Leaf) (fetch : Bool) : State :=
  match l with
  | none => s
  | some l' =>
    let x := s.core c
    let own := if fetch then x.itb.contains l' else x.dtb.contains l'
    (if own then s else s.bump .DTW_HITS_COUNT (bayOfCore c) 1).putLeaf c l fetch

/-- The owner that a leaf's shared mark names. -/
def leafShared (l : Option Leaf) : Option Nat := l.bind (·.shared)

/-! ### Lines available to a core -/

/-- What a target answers to an access of a line on behalf of a coil: OK, PERM or FENCED (R214, R319, Table 5.4). -/
def State.targetCheck (s : State) (coil shared : Option Nat) (line : Nat) : Nat :=
  match placeOf (64 * line) with
  | .spool v _ => s.vaultCheck v coil shared
  | .scratch y off =>
    if s.fencedUnit ⟨.ply, y⟩ ∨ (s.ply y).resetting then spFenced
    else if s.scratchValid y off && (coil = none || s.plyCoil y = coil) then spOk else spPerm
  | .host p _ => if s.hostUp p then spOk else spFenced
  | .splice b _ _ => if s.bendUp b then spOk else spFenced
  | .rig _ => if coil = none then spOk else spPerm
  | .regs _ => if coil = none then spOk else spPerm
  | _ => spPerm

/-- The status with which a target refused a miss of the ply, 0 for none, and the state in which it has been reported. -/
def State.refused (s : State) (y line : Nat) : Nat := SMap.get 0 (s.ply y).refusedMiss line
def State.forgive (s : State) (y line : Nat) : State := s.setPly y { s.ply y with refusedMiss := SMap.erase (s.ply y).refusedMiss line }

/-- What a core finds when it wants a line in its ply cache. -/
inductive Avail where
  | have (x : CLine) (s : State)
  | wait (s : State)
  | bad (code cause : Nat) (s : State)

/-- The line in the core's ply cache (a hit, or a recall), else a miss: its target's refusal, or a request on the bay bus with its
next-line prefetch (R310, R316, R339). -/
def State.obtain (s : State) (c line : Nat) (str : Bool) (shared : Option Nat) (req : BayReq) (streaming : Bool) : Avail :=
  let y := plyOfCore c
  match s.touch y line with
  | some (x, s) => .have x s
  | none =>
    if (s.ply y).poisonedMiss.contains line then
      .bad fcEcc 0 (s.setPly y { s.ply y with poisonedMiss := (s.ply y).poisonedMiss.filter (· ≠ line) })
    else if s.refused y line ≠ 0 then
      .bad (if s.refused y line = spPerm then fcPerm else fcFenced) (if s.refused y line = spPerm then Cause.access.code else 0) (s.forgive y line)
    else
      let coil := if (s.core c).rig then none else (s.core c).coil
      match s.targetCheck coil shared line with
      | 0 =>
        let r : BusReq := { ply := y, line := line, req := if str then .bnc else req, coil := coil, shared := shared, streaming := streaming }
        let fresh := !(s.bus (bayOfPly y)).reqs.any (fun z => z.ply = y && z.line = line)
        match s.present r with
        | none => .wait s
        | some s => .wait (if fresh then (s.bump .PC_MISSES_COUNT y 1).prefetchNext y line str coil shared else s)
      | 1 => .bad fcPerm Cause.access.code (match lineVault line with
        | some v => s.permEvent v coil (64 * line)
        | none => s)
      | _ => .bad fcFenced 0 s

/-! ### Instruction fetch (R298, R446) -/

/-- A whole line arrives for the fetch at the PC: the line becomes valid in the L1I, or the fetch faults precisely. -/
def execL1iFill (c : Nat) (s : State) := commit s (fun s =>
  let x := s.core c
  if !s.coreLive c || s.fetched c then s
  else if x.rig then
    match s.obtain c (x.pc / 64) (match placeOf x.pc with
      | .rig _ => true
      | _ => false) none .brd false with
    | .have l s => if l.poison then s.trap c fcEcc 0 x.pc else s.setCore c { s.core c with l1i := addL1i (s.core c).l1i (x.pc / 64) }
    | .wait s => s.hold c
    | .bad code cause s => s.trap c code cause x.pc
  else match s.xlatDva c x.pc .fetch with
  | .fault e => s.trapCause c e x.pc
  | .miss => s.stall c .fetch x.pc
  | .ok w region leaf =>
    let s := s.keepLeaf c leaf true
    match s.obtain c (w / 64) (region = .str) (leafShared leaf) .brd false with
    | .have l s =>
      if l.poison then s.trap c fcEcc 0 x.pc
      else s.setCore c { s.core c with l1i := addL1i (s.core c).l1i (w / 64), stalled := none }
    | .wait s => s.hold c
    | .bad code cause s => s.trap c code cause x.pc)

/-- The core decodes a word with a reserved class, an unlisted opcode or a reserved field (R447). -/
def execIllegalInstruction (c : Nat) (s : State) := commit s (fun s => s.instr c false {} (fun s => s))

end Sys2Proof.Machine
end

