-- ==== Sys2Proof/Machine/Scalar.lean ====
section
/-!
DEFINITION. Scalar ALU (Table 13.4) and branch and control (Table 13.5).
-/
namespace Sys2Proof.Machine

/-! ### Arithmetic -/

/-- A truth value as a register value. -/
def flagW (b : Bool) : Word := if b then 1 else 0

/-- Division by zero gives all ones, and −2^63 by −1 gives −2^63 (R451). -/
def sdivW (a b : Word) : Word := if b = 0 then BitVec.allOnes 64 else a.sdiv b
def udivW (a b : Word) : Word := if b = 0 then BitVec.allOnes 64 else a / b
/-- The remainder by zero is a (R451). -/
def sremW (a b : Word) : Word := if b = 0 then a else a.srem b
def uremW (a b : Word) : Word := if b = 0 then a else a % b

/-- The number of leading zero bits among the low `n` bits. -/
def clzGo (a : Word) : Nat → Nat
  | 0 => 0
  | n + 1 => if a.getLsbD n then 0 else 1 + clzGo a n

/-- The number of trailing zero bits from bit `i` on, `n` bits being left. -/
def ctzGo (a : Word) (i : Nat) : Nat → Nat
  | 0 => 0
  | n + 1 => if a.getLsbD i then 0 else 1 + ctzGo a (i + 1) n

/-- The number of set bits among the low `n` bits. -/
def popGo (a : Word) : Nat → Nat
  | 0 => 0
  | n + 1 => (if a.getLsbD n then 1 else 0) + popGo a n

/-- The second source's legality and value: an immediate is MOD[27:0] sign-extended, MOD[5:0] for a shift (R450). -/
def opndOk (b : Opnd) (shift : Bool) : Bool :=
  match b with
  | .reg n => decide (n < 32)
  | .imm v => if shift then decide (v < 64) else decide (v < 2 ^ 28)

def Core.opnd (x : Core) (b : Opnd) (shift : Bool) : Word :=
  match b with
  | .reg n => x.rg n
  | .imm v => if shift then BitVec.ofNat 64 v else (BitVec.ofNat 28 v).signExtend 64

def opndRegs : Opnd → List Nat
  | .reg n => [n]
  | .imm _ => []

/-- A two-source scalar ALU instruction (R449, R450). -/
def State.alu (s : State) (c d a : Nat) (b : Opnd) (shift : Bool) (f : Word → Word → Word) : State :=
  s.instr c (gOk [d, a] && opndOk b shift) { g := d :: a :: opndRegs b } (fun s =>
    s.update c (fun x => x.setG d (f (x.rg a) (x.opnd b shift))))

/-- A one-source scalar ALU instruction. -/
def State.alu1 (s : State) (c d a : Nat) (legal : Bool) (f : Word → Word) : State :=
  s.instr c (gOk [d, a] && legal) { g := [d, a] } (fun s => s.update c (fun x => x.setG d (f (x.rg a))))

def execAdd (c d a : Nat) (b : Opnd) (s : State) := commit s (fun s => s.alu c d a b false (fun a b => a + b))
def execSub (c d a b : Nat) (s : State) := commit s (fun s => s.alu c d a (.reg b) false (fun a b => a - b))
def execMul (c d a : Nat) (b : Opnd) (s : State) := commit s (fun s => s.alu c d a b false (fun a b => a * b))
def execMulh (c d a b : Nat) (s : State) := commit s (fun s => s.alu c d a (.reg b) false (fun a b => BitVec.ofInt 64 (a.toInt * b.toInt / 2 ^ 64)))
def execMulhu (c d a b : Nat) (s : State) := commit s (fun s => s.alu c d a (.reg b) false (fun a b => BitVec.ofNat 64 (a.toNat * b.toNat / 2 ^ 64)))
def execDiv (c d a b : Nat) (s : State) := commit s (fun s => s.alu c d a (.reg b) false (fun a b => sdivW a b))
def execDivu (c d a b : Nat) (s : State) := commit s (fun s => s.alu c d a (.reg b) false (fun a b => udivW a b))
def execRem (c d a b : Nat) (s : State) := commit s (fun s => s.alu c d a (.reg b) false (fun a b => sremW a b))
def execRemu (c d a b : Nat) (s : State) := commit s (fun s => s.alu c d a (.reg b) false (fun a b => uremW a b))
def execAnd (c d a : Nat) (b : Opnd) (s : State) := commit s (fun s => s.alu c d a b false (fun a b => a &&& b))
def execOr (c d a : Nat) (b : Opnd) (s : State) := commit s (fun s => s.alu c d a b false (fun a b => a ||| b))
def execXor (c d a : Nat) (b : Opnd) (s : State) := commit s (fun s => s.alu c d a b false (fun a b => a ^^^ b))
def execAndn (c d a b : Nat) (s : State) := commit s (fun s => s.alu c d a (.reg b) false (fun a b => a &&& ~~~b))
def execSll (c d a : Nat) (b : Opnd) (s : State) := commit s (fun s => s.alu c d a b true (fun a b => a <<< (b.toNat % 64)))
def execSrl (c d a : Nat) (b : Opnd) (s : State) := commit s (fun s => s.alu c d a b true (fun a b => a >>> (b.toNat % 64)))
def execSra (c d a : Nat) (b : Opnd) (s : State) := commit s (fun s => s.alu c d a b true (fun a b => a.sshiftRight (b.toNat % 64)))
def execRor (c d a : Nat) (b : Opnd) (s : State) := commit s (fun s => s.alu c d a b true (fun a b => a.rotateRight (b.toNat % 64)))
def execSlt (c d a : Nat) (b : Opnd) (s : State) := commit s (fun s => s.alu c d a b false (fun a b => flagW (a.slt b)))
def execSltu (c d a : Nat) (b : Opnd) (s : State) := commit s (fun s => s.alu c d a b false (fun a b => flagW (a.ult b)))
def execSeq (c d a : Nat) (b : Opnd) (s : State) := commit s (fun s => s.alu c d a b false (fun a b => flagW (a == b)))
def execMin (c d a b : Nat) (s : State) := commit s (fun s => s.alu c d a (.reg b) false (fun a b => if b.slt a then b else a))
def execMax (c d a b : Nat) (s : State) := commit s (fun s => s.alu c d a (.reg b) false (fun a b => if a.slt b then b else a))
def execMinu (c d a b : Nat) (s : State) := commit s (fun s => s.alu c d a (.reg b) false (fun a b => if b.ult a then b else a))
def execMaxu (c d a b : Nat) (s : State) := commit s (fun s => s.alu c d a (.reg b) false (fun a b => if a.ult b then b else a))

def execClz (c d a : Nat) (s : State) := commit s (fun s => s.alu1 c d a true (fun a => BitVec.ofNat 64 (clzGo a 64)))
def execCtz (c d a : Nat) (s : State) := commit s (fun s => s.alu1 c d a true (fun a => BitVec.ofNat 64 (ctzGo a 0 64)))
def execPopc (c d a : Nat) (s : State) := commit s (fun s => s.alu1 c d a true (fun a => BitVec.ofNat 64 (popGo a 64)))

/-- Widths 0 8-bit, 1 16-bit, 2 32-bit; 3 is reserved. -/
def extWidth (w : Nat) : Nat := 8 * 2 ^ w
def execSext (c d a w : Nat) (s : State) := commit s (fun s =>
  s.alu1 c d a (w < 3) (fun a => (a.setWidth (extWidth w)).signExtend 64))
def execZext (c d a w : Nat) (s : State) := commit s (fun s =>
  s.alu1 c d a (w < 3) (fun a => (a.setWidth (extWidth w)).setWidth 64))

def execCsel (c d a b e : Nat) (s : State) := commit s (fun s =>
  s.instr c (gOk [d, a, b, e]) { g := [d, a, b, e] } (fun s =>
    s.update c (fun x => x.setG d (if x.rg e ≠ 0 then x.rg a else x.rg b))))

/-- MOVK inserts MOD[15:0] into quarter h = MOD[17:16] of d; MOD[27:18] is reserved. -/
def execMovk (c d imm h : Nat) (s : State) := commit s (fun s =>
  s.instr c (gOk [d] && decide (imm < 2 ^ 16) && decide (h < 4)) { g := [d] } (fun s =>
    s.update c (fun x => x.setG d (BitVec.ofNat 64 (setBits (x.rg d).toNat (16 * h) 16 imm)))))

/-! ### Branch and control (R452 to R454) -/

/-- The offset MOD[27:0], sign-extended and multiplied by 8, added to an address. -/
def brTarget (base off : Nat) : Nat := ((base : Int) + 8 * toSigned 28 off) % 2 ^ 64 |>.toNat

def offOk (off : Nat) : Bool := decide (off < 2 ^ 28)

/-- A conditional branch. -/
def State.branch (s : State) (c a b off : Nat) (f : Word → Word → Bool) : State :=
  s.instr c (gOk [a, b] && offOk off) { g := [a, b] } (fun s =>
    let x := s.core c
    if f (x.rg a) (x.rg b) then s.retireAt c (brTarget x.pc off) else s.retire c)

def execNop (c : Nat) (s : State) := commit s (fun s => s.instr c true {} (fun s => s.retire c))
def execJ (c off : Nat) (s : State) := commit s (fun s =>
  s.instr c (offOk off) {} (fun s => s.retireAt c (brTarget (s.core c).pc off)))
def execJal (c d off : Nat) (s : State) := commit s (fun s =>
  s.instr c (gOk [d] && offOk off) { g := [d] } (fun s =>
    let pc := (s.core c).pc
    (s.setCore c ((s.core c).setG d (BitVec.ofNat 64 (pc + 8)))).retireAt c (brTarget pc off)))

/-- A register jump; a target with any of bits [2:0] set raises ALIGN at the jump, which has no effect (R453). -/
def State.regJump (s : State) (c d a off : Nat) : State :=
  let x := s.core c
  let t := brTarget (x.rg a).toNat off
  if t % 8 ≠ 0 then s.trap c fcAlign 0 t
  else (s.setCore c (x.setG d (BitVec.ofNat 64 (x.pc + 8)))).retireAt c t

def execJr (c a off : Nat) (s : State) := commit s (fun s =>
  s.instr c (gOk [a] && offOk off) { g := [a] } (fun s => s.regJump c 0 a off))
def execJalr (c d a off : Nat) (s : State) := commit s (fun s =>
  s.instr c (gOk [d, a] && offOk off) { g := [d, a] } (fun s => s.regJump c d a off))

def execBeq (c a b off : Nat) (s : State) := commit s (fun s => s.branch c a b off (fun a b => a == b))
def execBne (c a b off : Nat) (s : State) := commit s (fun s => s.branch c a b off (fun a b => a != b))
def execBlt (c a b off : Nat) (s : State) := commit s (fun s => s.branch c a b off (fun a b => a.slt b))
def execBge (c a b off : Nat) (s : State) := commit s (fun s => s.branch c a b off (fun a b => !a.slt b))
def execBltu (c a b off : Nat) (s : State) := commit s (fun s => s.branch c a b off (fun a b => a.ult b))
def execBgeu (c a b off : Nat) (s : State) := commit s (fun s => s.branch c a b off (fun a b => !a.ult b))

/-- A branch on a predicate register. -/
def State.predBranch (s : State) (c a off : Nat) (any : Bool) : State :=
  s.instr c (pOk [a] && offOk off) {} (fun s =>
    let x := s.core c
    if (x.rp a != 0) = any then s.retireAt c (brTarget x.pc off) else s.retire c)

def execBpany (c a off : Nat) (s : State) := commit s (fun s => s.predBranch c a off true)
def execBpnone (c a off : Nat) (s : State) := commit s (fun s => s.predBranch c a off false)

/-- ICINV: the L1I is invalidated, and the next instruction is fetched again (R299, R454). -/
def execIcinv (c : Nat) (s : State) := commit s (fun s =>
  s.instr c true {} (fun s => s.update c (fun x => { x with l1i := [] })))

end Sys2Proof.Machine
end

