-- ==== Sys2Proof/Machine/Vector.lean ====
section
/-!
DEFINITION. Vector ALU (Tables 13.9 to 13.11): lanes under predication, integer and floating-point operations, compares, predicate
operations, moves, reductions and conversions.
-/
namespace Sys2Proof.Machine

/-! ### Lanes (R412, R460, R461) -/

/-- Element `i` of width `w` of a register. -/
def elem (v : BitVec 1024) (w i : Nat) : Nat := v.toNat >>> (w * i) % 2 ^ w

/-- A register with element `i` of width `w` replaced. -/
def setElem (v : BitVec 1024) (w i x : Nat) : BitVec 1024 := BitVec.ofNat 1024 (setBits v.toNat (w * i) w x)

/-- Element `i` of width `w` is active under a predicate (R412). -/
def laneOn (p : BitVec 128) (w i : Nat) : Bool := p.getLsbD (i * w / 8)

/-- The elements of a register. -/
def lanesOf (w : Nat) : Nat := 1024 / w

/-- Every element of `d` rewritten: an active one by `f`, with its flags, an inactive one kept or zeroed. -/
def mapLanes (d : BitVec 1024) (w : Nat) (on : Nat → Bool) (z : Bool) (f : Nat → Nat × Nat) : BitVec 1024 × Nat :=
  (List.range (lanesOf w)).foldl (fun acc i =>
    if on i then let r := f i; (setElem acc.1 w i r.1, acc.2 ||| r.2)
    else if z then (setElem acc.1 w i 0, acc.2) else acc) (d, 0)

/-- The MOD fields that an instruction uses beside TY; every other field must be zero (Table 13.9). -/
structure VUse where
  u : Bool := false
  rmo : Bool := false
  ty2 : Bool := false
  part : Bool := false
  sub : Bool := false
  imm : Bool := false
  pred : Bool := true

/-- A MOD encoding is legal for the fields an instruction uses; 6-bit types take no predicate (R444, R447, R461). -/
def vmodOk (m : VMod) (u : VUse) (types : List Nat) : Bool :=
  types.contains m.ty && (u.u || !m.u) && decide (if u.rmo then m.rmo < 6 else m.rmo = 0) && decide (if u.ty2 then m.ty2 < 13 else m.ty2 = 0) &&
    decide (if u.part then m.part < 8 else m.part = 0) && decide (if u.sub then m.sub < 8 else m.sub = 0) &&
    decide (if u.imm then m.imm < 512 else m.imm = 0) &&
    (if u.pred && m.ty ≠ 10 && m.ty ≠ 11 then decide (m.pred < 8) else m.pred = 0 && !m.z)

def tyInt : List Nat := [1, 2, 3, 4]
def tyFp : List Nat := [5, 6, 7]
def tyAll : List Nat := List.range 15
def tyPred : List Nat := List.range 10

/-- The float format of TY 0x5 to 0x7. -/
def fmtOf (ty : Nat) : Fmt := if ty = 5 then fp16 else if ty = 6 then bf16 else fp32

/-- The rounding mode code in force: CC_FPCTL.RM, or RMO (Table 13.9). -/
def Core.rmCode (x : Core) (rmo : Nat) : Nat := if rmo = 0 then x.cr ccFpctl % 8 else rmo - 1

/-- CC_FPCTL.SAT. -/
def Core.sat (x : Core) : Bool := (x.cr ccFpctl).testBit 3

/-- A rounding mode for an operation that never rounds stochastically (R430) (DEDUCED, log entry 25). -/
def plainRm (code : Nat) : Rm :=
  match code with
  | 1 => .rtz | 2 => .rdn | 3 => .rup | _ => .rne

/-- The rounding mode of element `i` of a conversion to type `ty` (R430, R432). -/
def Core.convRm (x : Core) (code ty i : Nat) : Rm :=
  if code = 4 && srFormat ty then .sr (srR (x.cr ccSeed) (x.cr ccSrcount) i) else plainRm code

/-- An SR conversion that completes counts (R432). -/
def Core.countSr (x : Core) (code ty : Nat) : Core :=
  if code = 4 && srFormat ty then x.setCr ccSrcount (wrapAdd 64 (x.cr ccSrcount) 1) else x

/-- A vector instruction with element-wise meaning: `f x i` gives the element and the flags it raises. -/
def State.vec (s : State) (c d : Nat) (vs gs : List Nat) (m : VMod) (legal : Bool) (f : Core → Nat → Nat × Nat) : State :=
  s.instr c (legal && gOk (d :: vs ++ gs)) { g := gs, v := d :: vs } (fun s => s.update c (fun x =>
    let r := mapLanes (x.rv d) (tyWidth m.ty) (laneOn (x.rp m.pred) (tyWidth m.ty)) m.z (f x)
    (x.setV d r.1).raise r.2))

/-- Two-source and one-source element-wise instructions. -/
def State.vec2 (s : State) (c d a b : Nat) (m : VMod) (u : VUse) (types : List Nat) (f : Nat → Nat → Nat × Nat) : State :=
  s.vec c d [a, b] [] m (vmodOk m u types) (fun x i => f (elem (x.rv a) (tyWidth m.ty) i) (elem (x.rv b) (tyWidth m.ty) i))

def State.vec1 (s : State) (c d a : Nat) (m : VMod) (u : VUse) (types : List Nat) (legal : Bool) (f : Nat → Nat × Nat) : State :=
  s.vec c d [a] [] m (legal && vmodOk m u types) (fun x i => f (elem (x.rv a) (tyWidth m.ty) i))

/-! ### Integer operations -/

/-- The value of an element as an integer, unsigned when U is set. -/
def ival (w : Nat) (u : Bool) (x : Nat) : Int := if u then (x : Int) else toSigned w x

/-- A saturated result with its flag. -/
def satElem (w : Nat) (u : Bool) (v : Int) : Nat × Nat :=
  let r := satInt w u (decide (v < 0)) v.natAbs
  (r.1, if r.2 then flSaturated else 0)

def shlElem (w a n : Nat) : Nat := if w ≤ n then 0 else a * 2 ^ n % 2 ^ w
/-- A right shift, arithmetic unless U; a count of w or more gives 0 or all sign bits. -/
def shrElem (w : Nat) (u : Bool) (a n : Nat) : Nat := ofSigned w (ival w u a / (2 : Int) ^ min n w)

def execVadd (c d a b : Nat) (m : VMod) (s : State) := commit s (fun s => s.vec2 c d a b m {} tyInt (fun a b => ((a + b) % 2 ^ (tyWidth m.ty), 0)))
def execVsub (c d a b : Nat) (m : VMod) (s : State) := commit s (fun s => s.vec2 c d a b m {} tyInt (fun a b => (ofSigned (tyWidth m.ty) ((a : Int) - b), 0)))
def execVmul (c d a b : Nat) (m : VMod) (s : State) := commit s (fun s => s.vec2 c d a b m {} tyInt (fun a b => (a * b % 2 ^ (tyWidth m.ty), 0)))
def execVmulh (c d a b : Nat) (m : VMod) (s : State) := commit s (fun s => s.vec2 c d a b m { u := true } tyInt (fun a b => (ofSigned (tyWidth m.ty) (ival (tyWidth m.ty) m.u a * ival (tyWidth m.ty) m.u b / (2 : Int) ^ (tyWidth m.ty)), 0)))
def execVmin (c d a b : Nat) (m : VMod) (s : State) := commit s (fun s => s.vec2 c d a b m { u := true } tyInt (fun a b => (if ival (tyWidth m.ty) m.u b < ival (tyWidth m.ty) m.u a then b else a, 0)))
def execVmax (c d a b : Nat) (m : VMod) (s : State) := commit s (fun s => s.vec2 c d a b m { u := true } tyInt (fun a b => (if ival (tyWidth m.ty) m.u a < ival (tyWidth m.ty) m.u b then b else a, 0)))
def execVabs (c d a : Nat) (m : VMod) (s : State) := commit s (fun s => s.vec1 c d a m {} tyInt true (fun a => (ofSigned (tyWidth m.ty) (toSigned (tyWidth m.ty) a).natAbs, 0)))
def execVneg (c d a : Nat) (m : VMod) (s : State) := commit s (fun s => s.vec1 c d a m {} tyInt true (fun a => (ofSigned (tyWidth m.ty) (-(a : Int)), 0)))
def execVadds (c d a b : Nat) (m : VMod) (s : State) := commit s (fun s => s.vec2 c d a b m { u := true } tyInt (fun a b => satElem (tyWidth m.ty) m.u (ival (tyWidth m.ty) m.u a + ival (tyWidth m.ty) m.u b)))
def execVsubs (c d a b : Nat) (m : VMod) (s : State) := commit s (fun s => s.vec2 c d a b m { u := true } tyInt (fun a b => satElem (tyWidth m.ty) m.u (ival (tyWidth m.ty) m.u a - ival (tyWidth m.ty) m.u b)))
def execVand (c d a b : Nat) (m : VMod) (s : State) := commit s (fun s => s.vec2 c d a b m {} tyAll (fun a b => (a &&& b, 0)))
def execVor (c d a b : Nat) (m : VMod) (s : State) := commit s (fun s => s.vec2 c d a b m {} tyAll (fun a b => (a ||| b, 0)))
def execVxor (c d a b : Nat) (m : VMod) (s : State) := commit s (fun s => s.vec2 c d a b m {} tyAll (fun a b => (a ^^^ b, 0)))
def execVnot (c d a : Nat) (m : VMod) (s : State) := commit s (fun s => s.vec1 c d a m {} tyAll true (fun a => (2 ^ (tyWidth m.ty) - 1 - a, 0)))
def execVshl (c d a b : Nat) (m : VMod) (s : State) := commit s (fun s => s.vec2 c d a b m {} tyInt (fun a b => (shlElem (tyWidth m.ty) a b, 0)))
def execVshr (c d a b : Nat) (m : VMod) (s : State) := commit s (fun s => s.vec2 c d a b m { u := true } tyInt (fun a b => (shrElem (tyWidth m.ty) m.u a b, 0)))
def execVshli (c d a : Nat) (m : VMod) (s : State) := commit s (fun s => s.vec1 c d a m { imm := true } tyInt (m.imm < (tyWidth m.ty)) (fun a => (shlElem (tyWidth m.ty) a m.imm, 0)))
def execVshri (c d a : Nat) (m : VMod) (s : State) := commit s (fun s => s.vec1 c d a m { u := true, imm := true } tyInt (m.imm < (tyWidth m.ty)) (fun a => (shrElem (tyWidth m.ty) m.u a m.imm, 0)))

/-! ### Floating-point operations (R463) -/

/-- An element-wise floating-point instruction rounded under RMO. -/
def State.vecF (s : State) (c d : Nat) (vs : List Nat) (m : VMod) (f : Fmt → Rm → (Nat → Nat) → Nat × Nat) : State :=
  s.vec c d vs [] m (vmodOk m { rmo := true } tyFp) (fun x i =>
    f (fmtOf m.ty) (plainRm (x.rmCode m.rmo)) (fun r => elem (x.rv r) (tyWidth m.ty) i))

def execVfadd (c d a b : Nat) (m : VMod) (s : State) := commit s (fun s => s.vecF c d [a, b] m (fun f rm r => f.add rm (f.decode (r a)) (f.decode (r b))))
def execVfsub (c d a b : Nat) (m : VMod) (s : State) := commit s (fun s => s.vecF c d [a, b] m (fun f rm r => f.add rm (f.decode (r a)) (f.decode (r b)).neg))
def execVfmul (c d a b : Nat) (m : VMod) (s : State) := commit s (fun s => s.vecF c d [a, b] m (fun f rm r => f.mul rm (f.decode (r a)) (f.decode (r b))))
def execVfma (c d a b : Nat) (m : VMod) (s : State) := commit s (fun s => s.vecF c d [a, b] m (fun f rm r => f.fma rm (f.decode (r a)) (f.decode (r b)) (f.decode (r d))))
def execVfmin (c d a b : Nat) (m : VMod) (s : State) := commit s (fun s => s.vec2 c d a b m {} tyFp (fun a b => ((fmtOf m.ty).minMax false a b, 0)))
def execVfmax (c d a b : Nat) (m : VMod) (s : State) := commit s (fun s => s.vec2 c d a b m {} tyFp (fun a b => ((fmtOf m.ty).minMax true a b, 0)))

/-- A sign operation; of a NaN it gives the canonical NaN. -/
def signOp (f : Fmt) (a b : Nat) : Nat × Nat := (if (f.decode a).isNan then f.nan else b, 0)
def execVfabs (c d a : Nat) (m : VMod) (s : State) := commit s (fun s => s.vec1 c d a m {} tyFp true (fun a => signOp (fmtOf m.ty) a (a % 2 ^ (tyWidth m.ty - 1))))
def execVfneg (c d a : Nat) (m : VMod) (s : State) := commit s (fun s => s.vec1 c d a m {} tyFp true (fun a => signOp (fmtOf m.ty) a (a ^^^ 2 ^ (tyWidth m.ty - 1))))
def execVfdiv (c d a b : Nat) (m : VMod) (s : State) := commit s (fun s => s.vecF c d [a, b] m (fun f rm r => f.div rm (f.decode (r a)) (f.decode (r b))))
def execVfsqrt (c d a : Nat) (m : VMod) (s : State) := commit s (fun s => s.vecF c d [a] m (fun f rm r => f.sqrt rm (f.decode (r a))))
def execVfrcp (c d a : Nat) (m : VMod) (s : State) := commit s (fun s => s.vecF c d [a] m (fun f rm r => f.div rm (.fin false 1 0) (f.decode (r a))))
def execVexp2 (c d a : Nat) (m : VMod) (s : State) := commit s (fun s => s.vecF c d [a] m (fun f rm r => f.exp2 rm (f.decode (r a))))
def execVlog2 (c d a : Nat) (m : VMod) (s : State) := commit s (fun s => s.vecF c d [a] m (fun f rm r => f.log2 rm (f.decode (r a))))

/-! ### Compares and predicates (R464) -/

/-- A condition of SUB on an ordering of the operands: less, equal, unordered. -/
def condOf (sub : Nat) (lt eq un : Bool) : Bool :=
  match sub with
  | 0 => eq
  | 1 => un || !eq
  | 2 => lt
  | 3 => lt || eq
  | 4 => !un && !lt && !eq
  | 5 => !un && !lt
  | _ => un

/-- Every predicate bit of an element's byte lanes set to `b`. -/
def setLane (p : BitVec 128) (w i : Nat) (b : Bool) : BitVec 128 :=
  BitVec.ofNat 128 (setBits p.toNat (i * w / 8) (w / 8) (if b then 2 ^ (w / 8) - 1 else 0))

/-- A compare into a predicate register; inactive elements' bits are cleared or kept as Z states. -/
def State.vcompare (s : State) (c d a b : Nat) (m : VMod) (legal : Bool) (f : Nat → Nat → Bool × Nat) : State :=
  s.instr c (legal && pOk [d] && gOk [a, b]) { v := [a, b] } (fun s => s.update c (fun x =>
    let w := tyWidth m.ty
    let r := (List.range (lanesOf w)).foldl (fun (acc : BitVec 128 × Nat) i =>
      if laneOn (x.rp m.pred) w i then
        let y := f (elem (x.rv a) w i) (elem (x.rv b) w i)
        (setLane acc.1 w i y.1, acc.2 ||| y.2)
      else if m.z then (setLane acc.1 w i false, acc.2) else acc) (x.rp d, 0)
    (x.setP d r.1).raise r.2))

def execVcmp (c d a b : Nat) (m : VMod) (s : State) := commit s (fun s =>
  s.vcompare c d a b m (vmodOk m { u := true, sub := true } tyInt && decide (m.sub < 6)) (fun a b =>
    let i := ival (tyWidth m.ty) m.u a
    let j := ival (tyWidth m.ty) m.u b
    (condOf m.sub (decide (i < j)) (decide (i = j)) false, 0)))

def execVfcmp (c d a b : Nat) (m : VMod) (s : State) := commit s (fun s =>
  s.vcompare c d a b m (vmodOk m { sub := true } tyFp && decide (m.sub < 7)) (fun a b =>
    let i := (fmtOf m.ty).decode a
    let j := (fmtOf m.ty).decode b
    let un := i.isNan || j.isNan
    (condOf m.sub (!un && FpVal.lt false i j) (FpVal.same i j) un,
     if un && decide (2 ≤ m.sub ∧ m.sub ≤ 5) then flInvalid else sigFlag i ||| sigFlag j)))

/-- A predicate-register operation; MOD is zero. -/
def State.predOp (s : State) (c d a b : Nat) (f : BitVec 128 → BitVec 128 → BitVec 128) : State :=
  s.instr c (pOk [d, a, b]) {} (fun s => s.update c (fun x => x.setP d (f (x.rp a) (x.rp b))))

def execPand (c d a b : Nat) (s : State) := commit s (fun s => s.predOp c d a b (fun a b => a &&& b))
def execPor (c d a b : Nat) (s : State) := commit s (fun s => s.predOp c d a b (fun a b => a ||| b))
def execPxor (c d a b : Nat) (s : State) := commit s (fun s => s.predOp c d a b (fun a b => a ^^^ b))
def execPandn (c d a b : Nat) (s : State) := commit s (fun s => s.predOp c d a b (fun a b => a &&& ~~~b))
def execPnot (c d a : Nat) (s : State) := commit s (fun s => s.predOp c d a a (fun a _ => ~~~a))

/-- The first `n` elements of width `w` active; an odd number of 4-bit elements ends inside a predicate bit, whose value is free. -/
def firstLanes (w n : Nat) : BitVec 128 :=
  if w = 4 then BitVec.ofNat 128 (2 ^ (n / 2) - 1 + (if n % 2 = 1 && Config.pfirstHalf n then 2 ^ (n / 2) else 0))
  else BitVec.ofNat 128 (2 ^ (n * w / 8) - 1)

def execPfirst (c d a ty : Nat) (s : State) := commit s (fun s =>
  s.instr c (pOk [d] && gOk [a] && tyPred.contains ty) { g := [a] } (fun s => s.update c (fun x =>
    x.setP d (firstLanes (tyWidth ty) (min (max (x.rg a).toInt 0).toNat (lanesOf (tyWidth ty)))))))

def execPcnt (c d a ty : Nat) (s : State) := commit s (fun s =>
  s.instr c (gOk [d] && pOk [a] && tyPred.contains ty) { g := [d] } (fun s => s.update c (fun x =>
    x.setG d (BitVec.ofNat 64 ((List.range (lanesOf (tyWidth ty))).filter (laneOn (x.rp a) (tyWidth ty))).length))))

/-! ### Moves (R462) -/

def execVmov (c d a : Nat) (m : VMod) (s : State) := commit s (fun s => s.vec1 c d a m {} tyAll true (fun a => (a, 0)))
def execVbcast (c d a : Nat) (m : VMod) (s : State) := commit s (fun s =>
  s.vec c d [] [a] m (vmodOk m {} tyAll) (fun x _ => ((x.rg a).toNat % 2 ^ tyWidth m.ty, 0)))

/-- The types of VEXT and VINS. -/
def tyElem : List Nat := [0, 1, 2, 3, 4, 5, 6, 7, 8, 9, 14]

def execVext (c d a : Nat) (m : VMod) (s : State) := commit s (fun s =>
  s.instr c (gOk [d, a] && vmodOk m { u := true, imm := true, pred := false } tyElem && decide (m.imm < lanesOf (tyWidth m.ty)))
    { g := [d], v := [a] } (fun s => s.update c (fun x =>
      let e := elem (x.rv a) (tyWidth m.ty) m.imm
      x.setG d (if m.u then BitVec.ofNat 64 e else BitVec.ofInt 64 (toSigned (tyWidth m.ty) e)))))
def execVins (c d a : Nat) (m : VMod) (s : State) := commit s (fun s =>
  s.instr c (gOk [d, a] && vmodOk m { imm := true, pred := false } tyElem && decide (m.imm < lanesOf (tyWidth m.ty)))
    { g := [a], v := [d] } (fun s => s.update c (fun x =>
      x.setV d (setElem (x.rv d) (tyWidth m.ty) m.imm (x.rg a).toNat))))

def execVperm (c d a b : Nat) (m : VMod) (s : State) := commit s (fun s =>
  s.vec c d [a, b] [] m (vmodOk m {} tyAll) (fun x i =>
    (elem (x.rv a) (tyWidth m.ty) (elem (x.rv b) (tyWidth m.ty) i % lanesOf (tyWidth m.ty)), 0)))
def execVslideup (c d a : Nat) (m : VMod) (s : State) := commit s (fun s =>
  s.vec c d [a] [] m (vmodOk m { imm := true } tyAll && decide (m.imm < lanesOf (tyWidth m.ty))) (fun x i =>
    (if m.imm ≤ i then elem (x.rv a) (tyWidth m.ty) (i - m.imm) else 0, 0)))
def execVslidedn (c d a : Nat) (m : VMod) (s : State) := commit s (fun s =>
  s.vec c d [a] [] m (vmodOk m { imm := true } tyAll && decide (m.imm < lanesOf (tyWidth m.ty))) (fun x i =>
    (if i + m.imm < lanesOf (tyWidth m.ty) then elem (x.rv a) (tyWidth m.ty) (i + m.imm) else 0, 0)))

/-! ### Reductions (R467) -/

/-- One level of the pairwise tree: a node with one inactive side takes the other side unchanged. -/
def redLevel (f : Nat → Nat → Nat × Nat) : List (Option Nat) → List (Option Nat) × Nat
  | a :: b :: l =>
    let r := redLevel f l
    match a, b with
    | some x, some y => let z := f x y; (some z.1 :: r.1, z.2 ||| r.2)
    | some x, none => (some x :: r.1, r.2)
    | none, y => (y :: r.1, r.2)
  | [a] => ([a], 0)
  | [] => ([], 0)

/-- The tree over `n` levels. -/
def redTree (f : Nat → Nat → Nat × Nat) : Nat → List (Option Nat) → Option Nat × Nat
  | 0, l => (l.head?.join, 0)
  | n + 1, l =>
    let r := redLevel f l
    let t := redTree f n r.1
    (t.1, r.2 ||| t.2)

/-- The combining operation of SUB. -/
def redOp (m : VMod) (rm : Rm) (a b : Nat) : Nat × Nat :=
  let w := tyWidth m.ty
  let f := fmtOf m.ty
  match m.sub with
  | 0 => ((a + b) % 2 ^ w, 0)
  | 1 => (if ival w m.u b < ival w m.u a then b else a, 0)
  | 2 => (if ival w m.u a < ival w m.u b then b else a, 0)
  | 3 => f.add rm (f.decode a) (f.decode b)
  | 4 => (f.minMax false a b, 0)
  | _ => (f.minMax true a b, 0)

/-- The result when no element is active: zero for sums, the identity of the operation otherwise. -/
def redEmpty (m : VMod) : Nat :=
  let w := tyWidth m.ty
  match m.sub with
  | 1 => if m.u then 2 ^ w - 1 else 2 ^ (w - 1) - 1
  | 2 => if m.u then 0 else 2 ^ (w - 1)
  | 4 => (fmtOf m.ty).inf false
  | 5 => (fmtOf m.ty).inf true
  | _ => 0

def execVred (c d a : Nat) (m : VMod) (s : State) := commit s (fun s =>
  let legal := vmodOk m { u := m.sub = 1 || m.sub = 2, rmo := m.sub = 3, sub := true } (if m.sub < 3 then tyInt else tyFp) &&
    decide (m.sub < 6) && !m.z
  s.instr c (legal && gOk [d, a]) { v := [d, a] } (fun s => s.update c (fun x =>
    let w := tyWidth m.ty
    let l := (List.range (lanesOf w)).map (fun i => if laneOn (x.rp m.pred) w i then some (elem (x.rv a) w i) else none)
    let r := redTree (redOp m (plainRm (x.rmCode m.rmo))) 7 l
    (x.setV d (BitVec.ofNat 1024 (r.1.getD (redEmpty m)))).raise r.2)))

/-! ### Conversions (R465, R466) -/

/-- The bits of a register from bit `o` on, as an element of width `w` at index `i`. -/
def chunkElem (v : BitVec 1024) (o w i : Nat) : Nat := v.toNat >>> (o + w * i) % 2 ^ w

def setChunkElem (v : BitVec 1024) (o w i x : Nat) : BitVec 1024 := BitVec.ofNat 1024 (setBits v.toNat (o + w * i) w x)

/-- A value of an element type. -/
def tyValue (ty : Nat) (u : Bool) (x : Nat) : FpVal := ((numFmt ty).getD .scale).value u x
/-- A value converted to an element type. -/
def tyConvert (ty : Nat) (rm : Rm) (sat u : Bool) (v : FpVal) : Nat × Nat := ((numFmt ty).getD .scale).convert rm sat u v

def execVcvt (c d a : Nat) (m : VMod) (s : State) := commit s (fun s =>
  let w := tyWidth m.ty
  let w2 := tyWidth m.ty2
  let n := 1024 / max (max w w2) 8
  let six := m.ty = 10 ∨ m.ty = 11 ∨ m.ty2 = 10 ∨ m.ty2 = 11
  let legal := vmodOk m { u := decide (m.ty < 5 ∨ m.ty2 < 5), rmo := true, ty2 := true, part := true } (List.range 13) &&
    decide (m.ty ≠ m.ty2) && decide ((m.part + 1) * n * min w w2 ≤ 1024) && (decide (w ≠ w2) || m.part = 0) &&
    (!decide six || (m.pred = 0 && !m.z))
  s.instr c (legal && gOk [d, a]) { v := [d, a] } (fun s => s.update c (fun x =>
    let src := if w2 < w then m.part * n * w2 else 0
    let dst := if w < w2 then m.part * n * w else 0
    let code := x.rmCode m.rmo
    let r := (List.range n).foldl (fun (acc : BitVec 1024 × Nat) i =>
      if laneOn (x.rp m.pred) (max w w2) i then
        let y := tyConvert m.ty (x.convRm code m.ty i) x.sat m.u (tyValue m.ty2 m.u (chunkElem (x.rv a) src w2 i))
        (setChunkElem acc.1 dst w i y.1, acc.2 ||| y.2)
      else if m.z then (setChunkElem acc.1 dst w i 0, acc.2) else acc) (x.rv d, 0)
    ((x.setV d r.1).raise r.2).countSr code m.ty)))

def tyMx : List Nat := [8, 9, 10, 11, 12, 13]

def execVmxscale (c d a : Nat) (m : VMod) (s : State) := commit s (fun s =>
  s.instr c (vmodOk m { pred := false } tyMx && gOk [d, a]) { g := [d], v := [a] } (fun s => s.update c (fun x =>
    x.setG d (BitVec.ofNat 64 (mxScale m.ty ((List.range 32).map (fun i => fp32.decode (elem (x.rv a) 32 i))))))))

/-- The sign of a value. -/
def FpVal.sign : FpVal → Bool
  | .nan n _ => n
  | .inf n => n
  | .fin n _ _ => n

def execVcvtmx (c d a b : Nat) (m : VMod) (s : State) := commit s (fun s =>
  let w := tyWidth m.ty
  let legal := vmodOk m { rmo := true, part := true, pred := false } tyMx && decide ((m.part + 1) * 32 * w ≤ 1024)
  s.instr c (legal && gOk [d, a, b]) { g := [b], v := [d, a] } (fun s => s.update c (fun x =>
    let scale := (x.rg b).toNat % 256
    let code := x.rmCode m.rmo
    let r := (List.range 32).foldl (fun (acc : BitVec 1024 × Nat) i =>
      let v := fp32.decode (elem (x.rv a) 32 i)
      let q := if scale = 255 then .nan v.sign false else v.scale (127 - (scale : Int))
      let y := tyConvert m.ty (x.convRm code m.ty i) true false q
      (setChunkElem acc.1 (m.part * 32 * w) w i y.1, acc.2 ||| y.2)) (x.rv d, 0)
    ((x.setV d r.1).raise r.2).countSr code m.ty)))

def execVmxdec (c d a b : Nat) (m : VMod) (s : State) := commit s (fun s =>
  let w := tyWidth m.ty
  let legal := vmodOk m { rmo := true, part := true, pred := false } tyMx && decide ((m.part + 1) * 32 * w ≤ 1024)
  s.instr c (legal && gOk [d, a, b]) { g := [b], v := [d, a] } (fun s => s.update c (fun x =>
    let scale := (x.rg b).toNat % 256
    let r := (List.range 32).foldl (fun (acc : BitVec 1024 × Nat) i =>
      let v := tyValue m.ty false (chunkElem (x.rv a) (m.part * 32 * w) w i)
      let q := if scale = 255 then .nan false false else v.scale ((scale : Int) - 127)
      let y := tyConvert 7 (plainRm (x.rmCode m.rmo)) x.sat false q
      (setElem acc.1 32 i y.1, acc.2 ||| y.2)) (x.rv d, 0)
    (x.setV d r.1).raise r.2)))

end Sys2Proof.Machine
end

