-- ==== Sys2Proof/Machine/Tile.lean ====
section
/-!
DEFINITION. The tile store and tile moves (R419 to R422, R482 to R485).
-/
namespace Sys2Proof.Machine

/-! ### The tile store -/

/-- The size of a tile store (R419). -/
def tileSize : Nat := 0x200000

/-- `n` bytes of a tile store from a TA. -/
def Core.tileBytes (x : Core) (ta n : Nat) : List Byte := (List.range n).map (fun i => SMap.get 0 x.tile (ta + i))

/-- The number that `n` bytes of a tile store hold. -/
def Core.tileNat (x : Core) (ta n : Nat) : Nat := leNat (x.tileBytes ta n)

/-- Bytes written from a TA on; a write of all of an 8 B clears its poison (R421). -/
def Core.tileWrite (x : Core) (ta : Nat) (bs : List Byte) : Core :=
  let n := bs.length
  { x with tile := SMap.setAll 0 x.tile ((List.range n).zip bs |>.map (fun p => (ta + p.1, p.2)))
           tilePoison := x.tilePoison.filter (fun q => !(decide (ta ≤ 8 * q) && decide (8 * q + 8 ≤ ta + n))) }

/-- Some of `n` bytes from a TA are poisoned. -/
def Core.tileBad (x : Core) (ta n : Nat) : Bool := x.tilePoison.any (fun q => decide (ta < 8 * q + 8) && decide (8 * q < ta + n))

/-- The bytes that a queued or executing MMA reads: A, B and, for MX formats, their scales (R478). -/
def MmaOp.extents (m : MmaOp) : List (Nat × Nat) :=
  let b := ceilDiv m.k 32
  [(m.ta, 8 * tyWidth m.fa * m.k), (m.tb, 4 * tyWidth m.fb * m.k)] ++ (if m.mx then [(m.tas, 64 * b), (m.tbs, 32 * b)] else [])

/-- A write of `n` bytes from a TA must wait for an MMA in flight that reads them (R422). -/
def Core.mmaReads (x : Core) (ta n : Nat) : Bool :=
  x.mma.any (fun m => m.extents.any (fun e => decide (ta < e.1 + e.2) && decide (e.1 < ta + n)))

/-- An extent of the tile store that lies outside it, from a 64-bit TA (R419, R483). -/
def taBad (ta n : Nat) : Bool := decide (tileSize ≤ ta) || decide (tileSize < ta + n)

/-- A deferred fault of the instruction at the PC for poisoned tile-store bytes (R421). -/
def State.tileFault (s : State) (c ta : Nat) : State :=
  (s.retire c).coreFault c { code := fcEcc, deferred := true, pc := (s.core c).pc, addr := ta }

/-! ### Tile moves (Table 14.4) -/

/-- The TA of TLD and TST: g[SRC1] plus a signed 21-bit offset, in 64-bit arithmetic. -/
def tileAddr (base : Word) (off : Nat) : Nat := (base + BitVec.ofInt 64 (toSigned 21 off)).toNat

/-- What the read of 128 B at a TA finds in the ECC of its first 8 B: 1 a corrected error, 2 an uncorrectable one (R421). -/
def State.tileEcc (s : State) (c ta ecc : Nat) : State :=
  if ecc = 1 then s.bump .CR_TILE_ECC_CE c 1
  else if ecc = 2 then
    (s.setCore c { s.core c with tilePoison := insertNat (ta / 8) (s.core c).tilePoison, tileUe := (s.core c).tileUe + 1 }).bump .CR_TILE_ECC_UE c 1
  else s

/-- TLD. -/
def State.tileLoad (s : State) (c d a off ecc : Nat) : State :=
  s.instr c (gOk [d, a] && decide (off < 2 ^ 21)) { g := [a], v := [d] } (fun s =>
    let ta := tileAddr ((s.core c).rg a) off
    if ta % 8 ≠ 0 then s.trap c fcAlign 0 ta
    else if taBad ta 128 then s.trap c fcPerm Cause.access.code ta
    else
      let s := s.tileEcc c ta ecc
      if (s.core c).tileBad ta 128 then s.tileFault c ta
      else s.update c (fun x => x.setV d (BitVec.ofNat 1024 (x.tileNat ta 128))))

def execTst (c d a off : Nat) (s : State) := commit s (fun s =>
  s.instr c (gOk [d, a] && decide (off < 2 ^ 21)) { g := [a], v := [d] } (fun s =>
    let x := s.core c
    let ta := tileAddr (x.rg a) off
    if ta % 8 ≠ 0 then s.trap c fcAlign 0 ta
    else if taBad ta 128 then s.trap c fcPerm Cause.access.code ta
    else if x.mmaReads ta 128 then s.hold c
    else s.update c (fun x => x.tileWrite ta (leBytes 128 (x.rv d).toNat))))

/-- TCPY copies g[b] bytes from TA g[a] to TA g[d], reading the whole source first; a length of zero accesses nothing (R485). -/
def execTcpy (c d a b : Nat) (s : State) := commit s (fun s =>
  s.instr c (gOk [d, a, b]) { g := [d, a, b] } (fun s =>
    let x := s.core c
    let src := (x.rg a).toNat
    let dst := (x.rg d).toNat
    let n := (x.rg b).toNat
    if n = 0 then s.retire c
    else if src % 8 ≠ 0 ∨ dst % 8 ≠ 0 ∨ n % 8 ≠ 0 then s.trap c fcAlign 0 (if src % 8 ≠ 0 then src else dst)
    else if taBad src n then s.trap c fcPerm Cause.access.code src
    else if taBad dst n then s.trap c fcPerm Cause.access.code dst
    else if x.tileBad src n then s.tileFault c src
    else if x.mmaReads dst n then s.hold c
    else s.update c (fun x => x.tileWrite dst (x.tileBytes src n))))

def execTzero (c a b : Nat) (s : State) := commit s (fun s =>
  s.instr c (gOk [a, b]) { g := [a, b] } (fun s =>
    let x := s.core c
    let ta := (x.rg a).toNat
    let n := (x.rg b).toNat
    if n = 0 then s.retire c
    else if ta % 8 ≠ 0 ∨ n % 8 ≠ 0 then s.trap c fcAlign 0 ta
    else if taBad ta n then s.trap c fcPerm Cause.access.code ta
    else if x.mmaReads ta n then s.hold c
    else s.update c (fun x => x.tileWrite ta (List.replicate n 0))))

/-- The bytes of a 32×32 block of `b`-byte elements transposed: element r, c goes to c, r (R484). -/
def transpose (b : Nat) (bs : List Byte) : List Byte :=
  (List.range (1024 * b)).map (fun i =>
    let e := i / b
    bs.getD ((32 * (e % 32) + e / 32) * b + i % b) 0)

def execTxp (c d a w : Nat) (s : State) := commit s (fun s =>
  s.instr c (gOk [d, a] && decide (w < 3)) { g := [d, a] } (fun s =>
    let x := s.core c
    let src := (x.rg a).toNat
    let dst := (x.rg d).toNat
    let b := 2 ^ w
    if src % 8 ≠ 0 ∨ dst % 8 ≠ 0 then s.trap c fcAlign 0 (if src % 8 ≠ 0 then src else dst)
    else if taBad src (1024 * b) then s.trap c fcPerm Cause.access.code src
    else if taBad dst (1024 * b) then s.trap c fcPerm Cause.access.code dst
    else if x.tileBad src (1024 * b) then s.tileFault c src
    else if x.mmaReads dst (1024 * b) then s.hold c
    else s.update c (fun x => x.tileWrite dst (transpose b (x.tileBytes src (1024 * b))))))

end Sys2Proof.Machine
end

