-- ==== Sys2Proof/Machine/Matrix.lean ====
section
/-!
DEFINITION. The matrix engine and accumulator moves (R423 to R427, R475 to R481).
-/
namespace Sys2Proof.Machine

/-! ### Encoding checks (R477, R478) -/

/-- The operand pairs that an MMA accepts. -/
def mmaPair (fa fb : Nat) (mx : Bool) : Bool :=
  if mx then ([8, 9, 10, 11, 12].contains fa && [8, 9, 10, 11, 12].contains fb) || (fa = 13 && fb = 13)
  else (fa = fb && [0, 1, 5, 6].contains fa) || ([8, 9].contains fa && [8, 9].contains fb)

/-- The dimension register is legal: M at most 64, N at most 32, every other bit clear. -/
def mmaDims (v : Nat) : Bool :=
  decide (bits v 6 0 ≤ 64) && decide (bits v 13 8 ≤ 32) && bits v 7 7 = 0 && bits v 15 14 = 0 && bits v 63 32 = 0

/-- The MMA that the registers describe (Table 14.2). -/
def Core.mmaOf (x : Core) (d a b e fa fb : Nat) (mx ovw : Bool) : MmaOp :=
  let va := (x.rg a).toNat
  let vb := (x.rg b).toNat
  let ve := (x.rg e).toNat
  { acc := d, ovw := ovw, mx := mx, fa := fa, fb := fb, ta := bits va 20 0, tas := bits va 52 32, tb := bits vb 20 0, tbs := bits vb 52 32,
    m := bits ve 6 0, n := bits ve 13 8, k := bits ve 31 16, pc := x.pc }

/-- CC_MSTAT written by a class 0x5 instruction that completes (R481). -/
def Core.setMstat (x : Core) (v : Nat) : Core := x.setCr ccMstat v

/-- MMA: its checks in the order of R478, then it joins the engine's queue of one executing and one waiting. -/
def execMma (c d a b e fa fb : Nat) (mx ovw : Bool) (s : State) := commit s (fun s =>
  let x := s.core c
  let legal := decide (d < 4) && gOk [a, b, e] && mmaPair fa fb mx && mmaDims (x.rg e).toNat &&
    (mx || (bits (x.rg a).toNat 52 32 = 0 && bits (x.rg b).toNat 52 32 = 0))
  s.instr c legal { g := [a, b, e] } (fun s =>
    let o := x.mmaOf d a b e fa fb mx ovw
    let high := fun (v : Nat) => bits v 31 21 ≠ 0 || bits v 63 53 ≠ 0
    if o.m = 0 ∨ o.n = 0 ∨ o.k = 0 then
      if x.mma.isEmpty then s.update c (fun x => x.setMstat 1) else s.hold c
    else if o.ta % 8 ≠ 0 ∨ o.tb % 8 ≠ 0 ∨ (mx ∧ (o.tas % 8 ≠ 0 ∨ o.tbs % 8 ≠ 0)) then s.trap c fcAlign 0 o.ta
    else if high (x.rg a).toNat || high (x.rg b).toNat || o.extents.any (fun t => taBad t.1 t.2) then
      s.trap c fcPerm Cause.access.code o.ta
    else if 2 ≤ x.mma.length then s.hold c
    else s.update c (fun x => { x with mma := x.mma ++ [o] })))

/-! ### The arithmetic of an MMA (R424, R425) -/

/-- Element `j` of width `w` of the panel that starts at byte `ta`: a little-endian bit string. -/
def Core.panelElem (x : Core) (ta w j : Nat) : Nat :=
  let o := w * j
  x.tileNat (ta + o / 8) 3 >>> (o % 8) % 2 ^ w

/-- An element as a value times its block scale. -/
def Core.mmaVal (x : Core) (ty ta w k j : Nat) (panel : Nat) (scale : Option Nat) : FpVal :=
  let v := tyValue ty false (x.panelElem (ta + k * panel * w / 8) w j)
  match scale with
  | none => v
  | some t =>
    let e := x.tileNat t 1
    if e = 255 then .nan false false else v.scale ((e : Int) - 127)

/-- The running exact sum of a group: a NaN, infinities, or an exact value, and whether every term so far is −0. -/
structure GroupSum where
  nan : Bool := false
  pinf : Bool := false
  ninf : Bool := false
  m : Int := 0
  e : Int := 0
  negz : Bool := true

/-- A term added exactly. -/
def GroupSum.add (g : GroupSum) (v : Option FpVal) : GroupSum :=
  match v with
  | none => { g with nan := true }
  | some (.nan _ _) => { g with nan := true }
  | some (.inf n) => if n then { g with ninf := true } else { g with pinf := true }
  | some (.fin n m e) =>
    let q := min g.e e
    { g with m := g.m * (2 : Int) ^ (g.e - q).toNat + signedMant n m * (2 : Int) ^ (e - q).toNat, e := q, negz := g.negz && n && m = 0 }

/-- The sum rounded once to FP32, nearest even, with the NAN and OVF bits of CC_MSTAT. -/
def GroupSum.round (g : GroupSum) : Nat × Nat :=
  if g.nan || (g.pinf && g.ninf) then (fp32.nan, 2)
  else if g.pinf then (fp32.inf false, 0)
  else if g.ninf then (fp32.inf true, 0)
  else if g.m = 0 then (fp32.signed g.negz 0, 0)
  else
    let r := fp32.round .rne .ieee (decide (g.m < 0)) g.m.natAbs g.e
    (r.1, if r.2 &&& flOverflow ≠ 0 then 4 else 0)

/-- The scale bytes of row `i` in block `j`: 64 rows or 32 columns a block. -/
def scaleAt (mx : Bool) (base width j i : Nat) : Option Nat := if mx then some (base + width * j + i) else none

/-- One group of at most 32 terms added to an accumulator element, and the status bits it sets. -/
def Core.mmaGroup (x : Core) (o : MmaOp) (m n j : Nat) (acc : Nat) : Nat × Nat :=
  let ks := span (32 * j) (min 32 (o.k - 32 * j))
  if o.fa < 2 then
    let w := tyWidth o.fa
    let t := ks.foldl (fun (t : Int) k =>
      t + toSigned w (x.panelElem (o.ta + k * 64 * w / 8) w m) * toSigned w (x.panelElem (o.tb + k * 32 * w / 8) w n)) (toSigned 32 acc)
    let r := satInt 32 false (decide (t < 0)) t.natAbs
    (r.1, if r.2 then 8 else 0)
  else
    let g := ks.foldl (fun (g : GroupSum) k =>
      let a := x.mmaVal o.fa o.ta (tyWidth o.fa) k m 64 (scaleAt o.mx o.tas 64 j m)
      let b := x.mmaVal o.fb o.tb (tyWidth o.fb) k n 32 (scaleAt o.mx o.tbs 32 j n)
      g.add (if a.isNan || b.isNan then none else mulVal a b)) (({} : GroupSum).add (some (fp32.decode acc)))
    g.round

/-- An accumulator element after the whole MMA. -/
def Core.mmaElem (x : Core) (o : MmaOp) (m n : Nat) : Nat × Nat :=
  (List.range (ceilDiv o.k 32)).foldl (fun (acc : Nat × Nat) j =>
    let r := x.mmaGroup o m n j acc.1
    (r.1, acc.2 ||| r.2)) (if o.ovw then 0 else (x.ra o.acc m n).toNat, 0)

/-- Half cycles that one k step takes at full rate (Table 12.4). -/
def mmaRate (fa fb : Nat) : Nat :=
  if fa = 5 ∨ fa = 6 then 4 else if fa = 0 ∨ (fa = 12 ∧ fb = 12) then 1 else 2

/-- The k steps whose A and B panels lie in the same half of the tile store (R427). -/
def MmaOp.slowSteps (o : MmaOp) : Nat :=
  ((List.range o.k).filter (fun k =>
    (o.ta + k * 8 * tyWidth o.fa) / 0x100000 = (o.tb + k * 4 * tyWidth o.fb) / 0x100000)).length

/-- The cycles that an MMA occupies the engine for. -/
def MmaOp.cycles (o : MmaOp) : Nat := ceilDiv (mmaRate o.fa o.fb * (o.k + o.slowSteps)) 2

/-- The accumulators and CC_MSTAT after an MMA. -/
def Core.mmaDone (x : Core) (o : MmaOp) : Core :=
  let r := (List.range o.m).foldl (fun (acc : Core × Nat) m =>
    (List.range o.n).foldl (fun (acc : Core × Nat) n =>
      let e := x.mmaElem o m n
      (acc.1.setA o.acc m n (BitVec.ofNat 32 e.1), acc.2 ||| e.2)) acc) (x, 0)
  r.1.setMstat (r.2 ||| (if o.slowSteps = 0 then 0 else 16))

/-- The matrix engine finishes the MMA at its head (R427); poisoned operands raise ECC_UNCORR, deferred, at the MMA's PC. -/
def execMmaComplete (c : Nat) (s : State) := commit s (fun s =>
  let x := s.core c
  match x.mma with
  | [] => s
  | o :: rest =>
    let s := (s.setCore c { x with mma := rest }).bump .CR_MMA_BUSY_CYCLES c o.cycles
    match o.extents.find? (fun t => x.tileBad t.1 t.2) with
    | some t => s.coreFault c { code := fcEcc, deferred := true, pc := o.pc, addr := t.1 }
    | none => s.setCore c ((s.core c).mmaDone o))

/-! ### Accumulator moves (Table 14.3) -/

/-- A class 0x5 instruction other than MMA waits until the engine is empty and clears CC_MSTAT (R427, R481). -/
def State.accMove (s : State) (c : Nat) (legal : Bool) (u : Uses) (f : State → State) : State :=
  s.instr c legal u (fun s => if (s.core c).mma.isEmpty then f s else s.hold c)

/-- The 8 KiB accumulator image and converted images at a TA: ALIGN, then PERM (R479). -/
def State.accImage (s : State) (c ta n : Nat) (f : State → State) : State :=
  if ta % 8 ≠ 0 then s.trap c fcAlign 0 ta
  else if taBad ta n then s.trap c fcPerm Cause.access.code ta
  else f s

def execAccz (c d : Nat) (s : State) := commit s (fun s =>
  s.accMove c (d < 4) { a := [d] } (fun s => s.update c (fun x =>
    { x with acc := SMap.dropIf x.acc (fun k _ => k / 2048 = d) }.setMstat 0)))

def execAccld (c d a : Nat) (s : State) := commit s (fun s =>
  s.accMove c (decide (d < 4) && gOk [a]) { g := [a], a := [d] } (fun s =>
    let ta := ((s.core c).rg a).toNat
    s.accImage c ta 8192 (fun s =>
      if (s.core c).tileBad ta 8192 then s.tileFault c ta
      else s.update c (fun x =>
        ((List.range 2048).foldl (fun (y : Core) i =>
          y.setA d (i / 32) (i % 32) (BitVec.ofNat 32 (x.tileNat (ta + 4 * i) 4))) x).setMstat 0))))

def execAccst (c a b : Nat) (s : State) := commit s (fun s =>
  s.accMove c (decide (b < 4) && gOk [a]) { g := [a], a := [b] } (fun s =>
    let ta := ((s.core c).rg a).toNat
    s.accImage c ta 8192 (fun s => s.update c (fun x =>
      (x.tileWrite ta ((List.range 2048).flatMap (fun i => leBytes 4 (x.ra b (i / 32) (i % 32)).toNat))).setMstat 0))))

/-- The legal target types of ACCCVT (R480). -/
def accTypes (int : Bool) : List Nat := if int then [1, 2] else [5, 6, 8, 9]

def execAcccvt (c a b ty rmo : Nat) (int : Bool) (s : State) := commit s (fun s =>
  s.accMove c (decide (b < 4) && gOk [a] && (accTypes int).contains ty && decide (rmo < 6)) { g := [a], a := [b] } (fun s =>
    let ta := ((s.core c).rg a).toNat
    let w := tyWidth ty
    s.accImage c ta (256 * w) (fun s => s.update c (fun x =>
      let code := x.rmCode rmo
      let r := (List.range 2048).map (fun i =>
        let v := (x.ra b (i / 32) (i % 32)).toNat
        tyConvert ty (x.convRm code ty i) x.sat false (if int then (NumFmt.int 32).value false v else fp32.decode v))
      let y := x.tileWrite ta (r.flatMap (fun e => leBytes (w / 8) e.1))
      ((y.raise (r.foldl (fun f e => f ||| e.2) 0)).countSr code ty).setMstat 0))))

def execAccrd (c d a b : Nat) (s : State) := commit s (fun s =>
  s.accMove c (decide (a < 4) && gOk [d, b]) { g := [b], v := [d], a := [a] } (fun s => s.update c (fun x =>
    let row := (x.rg b).toNat % 64
    (x.setV d (BitVec.ofNat 1024 ((List.range 32).foldl (fun t n => t + (x.ra a row n).toNat * 2 ^ (32 * n)) 0))).setMstat 0)))

def execAccwr (c d a b : Nat) (s : State) := commit s (fun s =>
  s.accMove c (decide (d < 4) && gOk [a, b]) { g := [b], v := [a], a := [d] } (fun s => s.update c (fun x =>
    let row := (x.rg b).toNat % 64
    ((List.range 32).foldl (fun (y : Core) n => y.setA d row n (BitVec.ofNat 32 (elem (x.rv a) 32 n))) x).setMstat 0)))

end Sys2Proof.Machine
end

