-- ==== Sys2Proof/Machine/CoreMem.lean ====
section
/-!
DEFINITION. Scalar and vector memory (classes 0x2 and 0x4): the checks of every element, loads through the L1D, the merging buffer, the NT
combining buffer, DEV accesses, and the drains (chapters 9, 11 and 13).
-/
namespace Sys2Proof.Machine

/-! ### Elements of an access (R448, R456, R470) -/

/-- An active element after translation. -/
structure El where
  elem : Nat
  dva : Nat
  wpa : Nat
  size : Nat
  region : Region
  leaf : Option Leaf
  deriving DecidableEq, Repr

/-- What the checks of an access's elements end in. -/
inductive Chk where
  | ok (l : List El) (s : State)
  | stop (s : State)

/-- ALIGN, TRANSLATION, then PERM for each active element in ascending order (R448) (DEDUCED, log entry 26). -/
def State.checkEls (s : State) (c space : Nat) (k : AccKind) (align : Bool) : List (Nat × Nat × Nat) → Chk
  | [] => .ok [] s
  | (i, e, n) :: rest =>
    if align && e % n ≠ 0 then .stop (s.trap c fcAlign 0 e)
    else match s.xlat c space e k with
    | .fault x => .stop (s.trapCause c x e)
    | .miss => .stop (s.stall c k e)
    | .ok w r l =>
      if r = .dev && (match placeOf w with
        | .regs _ => n ≠ 4 && n ≠ 8
        | _ => false) then .stop (s.trapCause c .access e)
      else match (s.keepLeaf c l false).checkEls c space k align rest with
      | .stop s => .stop s
      | .ok ls s => .ok ({ elem := i, dva := e, wpa := w, size := n, region := r, leaf := l } :: ls) s

/-! ### Destinations -/

/-- The value bound to a load's destination (R457, R469). -/
def Core.bind (x : Core) (d : Dest) (got : List (Nat × Nat)) : Core :=
  match d with
  | .none => x
  | .g n size sx =>
    match got with
    | (_, v) :: _ => x.setG n (if sx then BitVec.ofInt 64 (toSigned (8 * size) v) else BitVec.ofNat 64 v)
    | [] => x
  | .v n w bcast act =>
    if bcast then
      match got with
      | (_, v) :: _ => x.setV n ((List.range (128 / w)).foldl (fun r i => if laneOn act (8 * w) i then setElem r (8 * w) i v else r) (x.rv n))
      | [] => x
    else x.setV n (got.foldl (fun r g => setElem r (8 * w) g.1 g.2) (x.rv n))
  | .spawn ring n =>
    match x.wait with
    | .spawn _ _ _ => { x with wait := .spawn ring n ((List.range 16).map (fun i => ((got.find? (fun g => g.1 = i)).map (·.2)).getD 0)) }
    | _ => x

/-! ### Buffers (R305 to R307, R371, R388) -/

/-- The bytes of a merging-buffer entry at `o` to `o + n − 1` of its line. -/
def MbEntry.field (e : MbEntry) (o n : Nat) : Nat := lineField e.data o n

/-- Whether an entry holds all, or some, of `n` bytes of its line from `o`. -/
def MbEntry.all (e : MbEntry) (o n : Nat) : Bool := (List.range n).all (fun i => e.mask.getLsbD (o + i))
def MbEntry.some (e : MbEntry) (o n : Nat) : Bool := (List.range n).any (fun i => e.mask.getLsbD (o + i))

/-- An NT entry holds some of the bytes. -/
def NtEntry.some (e : NtEntry) (wpa n : Nat) : Bool := e.block = wpa / 256 && (List.range n).any (fun i => e.mask.getLsbD (wpa % 256 + i))

/-- The drain of an entry starts: ownership is requested for a COH line, a fill for a partly written STR line that is not held (R306,
R308). -/
def State.startDrain (s : State) (c line : Nat) : State :=
  let x := s.core c
  match x.mb.find? (fun e => e.line = line) with
  | none => s
  | some e =>
    let s := s.setCore c { x with mb := x.mb.map (fun z => if z.line = line then { z with draining := true } else z) }
    let y := plyOfCore c
    let full := e.mask = BitVec.allOnes 64
    match placeOf (64 * line) with
    | .scratch _ _ => s
    | _ =>
      let req : Option BayReq := match (s.ply y).copy line with
        | Option.some cl => if e.str ∨ cl.st = .e ∨ cl.st = .m then none else Option.some (.bown full)
        | none => if e.str then (if full then none else Option.some .bnc) else Option.some (if full then .bown true else .brdx)
      match req with
      | none => s
      | Option.some r => (s.present { ply := y, line := line, req := r, coil := x.coil, shared := e.shared }).getD s

/-- Every drain that `f` names starts. -/
def State.startDrains (s : State) (c : Nat) (f : MbEntry → Bool) : State :=
  ((s.core c).mb.filter (fun e => f e && !e.draining)).foldl (fun s e => s.startDrain c e.line) s

/-- NT entries that `f` names start to drain (Table 11.6). -/
def State.startNt (s : State) (c : Nat) (f : NtEntry → Bool) : State :=
  s.setCore c { s.core c with nt := (s.core c).nt.map (fun e => if f e then { e with draining := true } else e) }

/-! ### Loads (R301, R302, R307) -/

/-- What one element of a load finds: its value, a wait for the L1D or the target, a wait for a drain, or a fault. -/
inductive LoadRes where
  | val (v : Nat)
  | pend (s : State)
  | hold (s : State)
  | bad (code cause : Nat) (s : State)

/-- The 16 B piece of a line that an address lies in. -/
def pieceOf (wpa : Nat) : Nat := wpa % 64 / 16

/-- An address that a core's L1D may hold: cacheable memory, and the scratch of its own ply (R296, R319). -/
def cacheable (c wpa : Nat) (r : Region) : Bool :=
  r != .dev && (match placeOf wpa with
    | .scratch y _ => y = plyOfCore c
    | _ => true)

/-- One element of a load. -/
def State.loadEl (s : State) (c : Nat) (e : El) (strm : Bool) : LoadRes :=
  let x := s.core c
  let line := e.wpa / 64
  let o := e.wpa % 64
  if x.nt.any (fun z => z.some e.wpa e.size) then .hold (s.startNt c (fun z => z.some e.wpa e.size))
  else match x.mb.find? (fun z => z.line = line && z.all o e.size) with
  | Option.some z => .val (z.field o e.size)
  | none =>
    if x.mb.any (fun z => z.line = line && z.some o e.size) then .hold (s.startDrain c line)
    else if !cacheable c e.wpa e.region then .pend s
    else
      let y := plyOfCore c
      let mine := match placeOf e.wpa with
        | .scratch _ _ => true
        | _ => false
      if bit (s.l1dPieces c line) (pieceOf e.wpa) then
        if mine then
          if (s.ply y).scratchPoison.contains (e.wpa % 0x1000000 / 64) then .bad fcEcc 0 s else .val (s.load e.wpa e.size)
        else match (s.ply y).copy line with
        | Option.some cl => if cl.poison then .bad fcEcc 0 s else .val (lineField cl.data o e.size)
        | none => .pend s
      else if mine then .pend s
      else match s.obtain c line (e.region = .str) (leafShared e.leaf) .brd strm with
      | .have _ s => .pend s
      | .wait s => .pend s
      | .bad code cause s => .bad code cause s

/-- What the elements of a load find together. -/
inductive Gath where
  | done (got : List (Nat × Nat)) (pend : List El) (s : State)
  | hold (s : State)
  | bad (code cause addr : Nat) (s : State)

def State.gather (s : State) (c : Nat) (strm : Bool) : List El → Gath
  | [] => .done [] [] s
  | e :: rest =>
    let go := fun (s : State) (g : List (Nat × Nat)) (p : List El) =>
      match s.gather c strm rest with
      | .done got pend s => Gath.done (g ++ got) (p ++ pend) s
      | r => r
    match s.loadEl c e strm with
    | .val v => go s [(e.elem, v)] []
    | .pend s => go s [] [e]
    | .hold s => .hold s
    | .bad code cause s => .bad code cause e.dva s

/-- A new outstanding access of a core. -/
def State.addAccess (s : State) (c : Nat) (a : CoreAccess) : State :=
  let x := s.core c
  s.setCore c { x with accesses := x.accesses ++ [{ a with id := x.nextAcc }], nextAcc := x.nextAcc + 1 }

def El.part (e : El) (v : Nat := 0) : Part := { elem := e.elem, wpa := e.wpa, size := e.size, value := v }

/-- The elements of a load after their checks: bound at once, or outstanding; the instruction retires either way, and a
refusal is a deferred fault (R435). -/
def State.loadChecked (s : State) (c : Nat) (d : Dest) (els : List El) (strm : Bool) : State :=
  let pc := (s.core c).pc
  match s.gather c strm els with
  | .hold s => s.hold c
  | .bad code cause addr s =>
    (s.retire c).coreFault c { code := code, cause := cause, deferred := true, pc := pc, addr := addr }
  | .done got [] s => (s.setCore c ((s.core c).bind d got)).retire c
  | .done got (e :: pend) s =>
    (s.addAccess c { id := 0, op := .load d, kind := .read, dva := e.dva, pc := pc, leaf := e.leaf, parts := (e :: pend).map (·.part),
                     streaming := strm, got := got }).retire c

/-! ### DEV accesses (R385, R386, R472) -/

/-- The block of a DEV address: a host port, or one instance of a register block (R386). -/
def devBlock (wpa : Nat) : Nat :=
  match placeOf wpa with
  | .host p _ => p
  | .regs off => 100 + off / 0x10000
  | _ => 99

/-- A DEV access of the core to a block awaits its response. -/
def Core.devBusy (x : Core) (wpa : Nat) : Bool :=
  x.accesses.any (fun a => a.dev && a.parts.any (fun p => devBlock p.wpa = devBlock wpa))

/-- The function through which a coil's requests leave a port: its VF, or the PF (R130). -/
def State.fnOf (s : State) (p : Nat) (coil : Option Nat) : Nat :=
  match coil with
  | none => 0
  | Option.some k => ((List.range 32).find? (fun n => s.flag .HT_VF_BIND_VALID (32 * p + n) && s.fld .HT_VF_BIND_COIL (32 * p + n) = k)).elim 0 (· + 1)

/-- A non-posted read of a host on behalf of a source; the host line is first recalled from the device caches (R127). -/
def State.ioRead (s : State) (p : Nat) (src : Src) (coil : Option Nat) (addr len : Nat) : State :=
  let s := s.recallLine p (hostLine p addr)
  let pt := s.port p
  let t : IoTag := { tag := pt.nextTag, fn := s.fnOf p coil, src := src, addr := addr, len := len }
  (s.setPort p { pt with tags := pt.tags ++ [t], nextTag := pt.nextTag + 1 }).send (.ioRead p pt.nextTag addr len)

/-- The next read of a DEV load goes out. -/
def State.devNext (s : State) (c : Nat) (a : CoreAccess) : State :=
  match a.parts with
  | [] => s
  | p :: _ =>
    match placeOf p.wpa with
    | .host q addr => s.ioRead q (.core c a.id) (s.core c).coil addr p.size
    | _ => s

/-- A DEV access whose elements are checked. -/
def State.devAccess (s : State) (c : Nat) (op : AccOp) (kind : AccKind) (els : List (El × Nat)) : State :=
  match els with
  | [] => s.retire c
  | (e, _) :: _ =>
    if (s.core c).devBusy e.wpa then s.hold c
    else
      let a : CoreAccess := { id := (s.core c).nextAcc, op := op, kind := kind, dva := e.dva, pc := (s.core c).pc, dev := true, leaf := e.leaf,
                              parts := els.map (fun p => p.1.part p.2) }
      let s := (s.addAccess c a).retire c
      if kind = .read then s.devNext c a else s

/-- The shape of a DEV vector access that R472 allows: a contiguous one as whole 8 B groups, strided and indexed ones with 64-bit elements;
the elements regrouped into 8 B accesses where they are contiguous. -/
def devGroups (contiguous : Bool) (els : List (El × Nat)) : Option (List (El × Nat)) :=
  if contiguous then
    match els with
    | [] => Option.some []
    | _ =>
      let start := fun (e : El) => e.dva % 8 = 0
      let bytes := fun (a : Nat) => els.filter (fun z => z.1.dva / 8 = a)
      let heads := els.filter (fun z => start z.1)
      if els.all (fun z => ((bytes (z.1.dva / 8)).foldl (fun n y => n + y.1.size) 0) = 8) then
        Option.some (heads.map (fun h =>
          ({ h.1 with size := 8 }, (bytes (h.1.dva / 8)).foldl (fun v y => v + y.2 * 2 ^ (8 * (y.1.dva % 8))) 0)))
      else none
  else if els.all (fun z => z.1.size = 8) then Option.some els else none

/-! ### Stores (R303, R305) -/

/-- A store's own effect on the core's reservation (R394). -/
def Core.storeRsv (x : Core) (wpa : Nat) : Core :=
  match x.rsv with
  | Option.some r => if r.base ≤ wpa ∧ wpa < r.base + r.size then { x with rsv := none } else x
  | none => x

/-- An element merged into the entry of its line, or put into a free one; `none` when all 16 are in use. -/
def Core.mbPut (x : Core) (e : El) (v : Nat) : Option Core :=
  let line := e.wpa / 64
  let o := e.wpa % 64
  let x := x.storeRsv e.wpa
  if x.mb.any (fun z => z.line = line) then
    Option.some { x with mb := x.mb.map (fun z =>
      if z.line = line then { z with mask := z.mask ||| fieldMask o e.size, data := setLineField z.data o e.size v } else z) }
  else if x.mb.length < 16 then
    let z : MbEntry := { line := line, mask := fieldMask o e.size, data := setLineField 0 o e.size v, str := e.region = .str, dva := e.dva,
                         pc := x.pc, shared := leafShared e.leaf }
    Option.some { x with mb := x.mb ++ [z] }
  else none

/-- The elements of a store from element index `done` on enter the merging buffer; when it is full the oldest entry drains and
the store waits in issue (R305, R458, R471). -/
def State.storeEls (s : State) (c done : Nat) : List (El × Nat) → State
  | [] =>
    let s := s.startDrains c (fun z => z.mask = BitVec.allOnes 64)
    let s := if 12 ≤ (s.core c).mb.length then
        match (s.core c).mb with
        | z :: _ => s.startDrain c z.line
        | [] => s
      else s
    s.retire c
  | (e, v) :: rest =>
    if e.elem < done then s.storeEls c done rest
    else match (s.core c).mbPut e v with
    | Option.some x => (s.setCore c x).storeEls c done rest
    | none =>
      let s := match (s.core c).mb with
        | z :: _ => s.startDrain c z.line
        | [] => s
      (s.setCore c { s.core c with progress := e.elem }).hold c

/-- A store whose elements are checked: DEV stores go to their target in order, others into the merging buffer. -/
def State.storeChecked (s : State) (c : Nat) (els : List (El × Nat)) (contiguous vector : Bool) : State :=
  if els.any (fun z => z.1.region = .dev) then
    match (if vector then devGroups contiguous els else Option.some els) with
    | Option.some g => s.devAccess c .store .write g
    | none => s.trap c fcAlign 0 ((els.head?.map (·.1.dva)).getD 0)
  else s.storeEls c (s.core c).progress els

/-! ### Scalar memory (Table 13.8) -/

/-- The legality of a scalar memory MOD (Table 13.6). -/
def mmodOk (m : MMod) (load : Bool) : Bool :=
  decide (m.sz < 4) && decide (m.space < 3) && decide (m.off < 2 ^ 22) && (if load then !(m.sx && m.sz = 3) else !m.sx && !m.strm)

/-- base + (index << SZ) + OFF, in 64-bit arithmetic. -/
def effAddr (base index : Word) (off w : Nat) : Nat := (base + index + BitVec.ofInt 64 (toSigned w off)).toNat

/-- A scalar load. `ecc` is what the read of the ply-cache line finds: 0 nothing, 1 a corrected error, 2 an uncorrectable one (R311). -/
def State.scalarLoad (s : State) (c d e : Nat) (m : MMod) (ecc : Nat) : State :=
  match s.checkEls c m.space .read true [(0, e, 2 ^ m.sz)] with
  | .stop s => s
  | .ok [] s => s
  | .ok (el :: _) s =>
    let s := s.plyEcc (plyOfCore c) (el.wpa / 64) ecc
    if el.region = .dev then s.devAccess c (.load (.g d (2 ^ m.sz) m.sx)) .read [(el, 0)]
    else s.loadChecked c (.g d (2 ^ m.sz) m.sx) [el] m.strm

def execLd (c d a : Nat) (m : MMod) (ecc : Nat) (s : State) := commit s (fun s =>
  s.instr c (gOk [d, a] && mmodOk m true) { g := [d, a] } (fun s =>
    s.scalarLoad c d (effAddr ((s.core c).rg a) 0 m.off 22) m ecc))
def execLdx (c d a b : Nat) (m : MMod) (s : State) := commit s (fun s =>
  s.instr c (gOk [d, a, b] && mmodOk m true) { g := [d, a, b] } (fun s =>
    s.scalarLoad c d (effAddr ((s.core c).rg a) ((s.core c).rg b <<< m.sz) m.off 22) m 0))

def State.scalarStore (s : State) (c e v : Nat) (m : MMod) : State :=
  match s.checkEls c m.space .write true [(0, e, 2 ^ m.sz)] with
  | .stop s => s
  | .ok els s => s.storeChecked c (els.map (fun el => (el, v % 2 ^ (8 * 2 ^ m.sz)))) false false

def execSt (c a b : Nat) (m : MMod) (s : State) := commit s (fun s =>
  s.instr c (gOk [a, b] && mmodOk m false) { g := [a, b] } (fun s =>
    s.scalarStore c (effAddr ((s.core c).rg a) 0 m.off 22) ((s.core c).rg b).toNat m))
def execStx (c a b e : Nat) (m : MMod) (s : State) := commit s (fun s =>
  s.instr c (gOk [a, b, e] && mmodOk m false) { g := [a, b, e] } (fun s =>
    s.scalarStore c (effAddr ((s.core c).rg a) ((s.core c).rg b <<< m.sz) m.off 22) ((s.core c).rg e).toNat m))

/-! ### Vector memory (Table 13.13) -/

/-- The legality of a vector memory MOD (Table 13.12). -/
def vmmodOk (m : VMMod) (load : Bool) (types : List Nat) : Bool :=
  types.contains m.ty && decide (m.space < 3) && decide (m.off < 2 ^ 20) && decide (m.pred < 8) && (load || (!m.z && !m.strm))

def tyMem : List Nat := [0, 1, 2, 3, 4, 5, 6, 7, 8, 9, 12, 13, 14]
def tyByte : List Nat := [1, 2, 3, 4, 5, 6, 7, 8, 9, 13, 14]
def tyIndex : List Nat := [3, 4, 7]

/-- Bytes of an element in memory: the two 4-bit elements of a byte go together. -/
def memBytes (ty : Nat) : Nat := max 1 (tyWidth ty / 8)

/-- The active elements with their addresses. -/
def activeEls (p : BitVec 128) (n : Nat) (addr : Nat → Nat) : List (Nat × Nat × Nat) :=
  ((List.range (128 / n)).filter (laneOn p (8 * n))).map (fun i => (i, addr i, n))

/-- The elements of a vector access: its shape and the element addresses (Table 13.13). -/
def Core.vecAddrs (x : Core) (m : VMMod) (shape a b : Nat) : Nat → Nat :=
  let base := x.rg a + BitVec.ofInt 64 (toSigned 20 m.off)
  let n := memBytes m.ty
  match shape with
  | 0 => fun i => (base + BitVec.ofNat 64 (i * n)).toNat
  | 1 => fun i => (base + BitVec.ofNat 64 i * x.rg b).toNat
  | 2 => fun i => (base + BitVec.ofInt 64 (toSigned (8 * n) (elem (x.rv b) (8 * n) i))).toNat
  | _ => fun _ => base.toNat

/-- A vector load of shape 0 contiguous, 1 strided, 2 indexed: inactive elements are zeroed or kept, active ones loaded. -/
def State.vecLoad (s : State) (c d shape a b : Nat) (m : VMMod) : State :=
  let x := s.core c
  let n := memBytes m.ty
  let p := x.rp m.pred
  match s.checkEls c m.space .read (m.ty ≠ 0 ∧ m.ty ≠ 12) (activeEls p n (x.vecAddrs m shape a b)) with
  | .stop s => s
  | .ok els s =>
    let dev := els.any (fun e => e.region = .dev)
    let g := devGroups (shape = 0) (els.map (fun e => (e, 0)))
    if dev && g.isNone then s.trap c fcAlign 0 ((els.head?.map (·.dva)).getD 0)
    else
      let s := s.setCore c ((s.core c).setV d (mapLanes ((s.core c).rv d) (8 * n) (laneOn p (8 * n)) m.z (fun i =>
        (elem ((s.core c).rv d) (8 * n) i, 0))).1)
      if dev then s.devAccess c (.load (.v d n false p)) .read (els.map (fun e => (e, 0)))
      else s.loadChecked c (.v d n false p) els m.strm

def execVld (c d a : Nat) (m : VMMod) (s : State) := commit s (fun s =>
  s.instr c (gOk [d, a] && vmmodOk m true tyMem) { g := [a], v := [d] } (fun s => s.vecLoad c d 0 a 0 m))
def execVlds (c d a b : Nat) (m : VMMod) (s : State) := commit s (fun s =>
  s.instr c (gOk [d, a, b] && vmmodOk m true tyByte) { g := [a, b], v := [d] } (fun s => s.vecLoad c d 1 a b m))
def execVldx (c d a b : Nat) (m : VMMod) (s : State) := commit s (fun s =>
  s.instr c (gOk [d, a, b] && vmmodOk m true tyIndex) { g := [a], v := [d, b] } (fun s => s.vecLoad c d 2 a b m))

/-- VLDB loads one element and writes it to every active element; with none active it makes no access (R470). -/
def execVldb (c d a : Nat) (m : VMMod) (s : State) := commit s (fun s =>
  s.instr c (gOk [d, a] && vmmodOk m true tyMem) { g := [a], v := [d] } (fun s =>
    let x := s.core c
    let n := memBytes m.ty
    let p := x.rp m.pred
    let any := !(activeEls p n (fun _ => 0)).isEmpty
    match s.checkEls c m.space .read (m.ty ≠ 0 ∧ m.ty ≠ 12) (if any then [(0, x.vecAddrs m 3 a 0 0, n)] else []) with
    | .stop s => s
    | .ok els s =>
      let s := s.setCore c ((s.core c).setV d (mapLanes ((s.core c).rv d) (8 * n) (laneOn p (8 * n)) m.z (fun i =>
        (elem ((s.core c).rv d) (8 * n) i, 0))).1)
      if els.any (fun e => e.region = .dev) then s.devAccess c (.load (.v d n true p)) .read (els.map (fun e => (e, 0)))
      else s.loadChecked c (.v d n true p) els m.strm))

/-- A vector store of shape 0 contiguous, 1 strided, 2 indexed, in ascending element index (R471). -/
def State.vecStore (s : State) (c d shape a b : Nat) (m : VMMod) : State :=
  let x := s.core c
  let n := memBytes m.ty
  match s.checkEls c m.space .write (m.ty ≠ 0 ∧ m.ty ≠ 12) (activeEls (x.rp m.pred) n (x.vecAddrs m shape a b)) with
  | .stop s => s
  | .ok els s => s.storeChecked c (els.map (fun e => (e, elem (x.rv d) (8 * n) e.elem))) (shape = 0) true

def execVst (c d a : Nat) (m : VMMod) (s : State) := commit s (fun s =>
  s.instr c (gOk [d, a] && vmmodOk m false tyMem) { g := [a], v := [d] } (fun s => s.vecStore c d 0 a 0 m))
def execVsts (c d a b : Nat) (m : VMMod) (s : State) := commit s (fun s =>
  s.instr c (gOk [d, a, b] && vmmodOk m false tyByte) { g := [a, b], v := [d] } (fun s => s.vecStore c d 1 a b m))
def execVstx (c d a b : Nat) (m : VMMod) (s : State) := commit s (fun s =>
  s.instr c (gOk [d, a, b] && vmmodOk m false tyIndex) { g := [a], v := [d, b] } (fun s => s.vecStore c d 2 a b m))

/-! ### L1D fills (R302) -/

/-- A load whose last element has arrived binds its value. -/
def State.bindReady (s : State) (c : Nat) : State :=
  let x := s.core c
  let ready := x.accesses.filter (fun a => a.parts.isEmpty && (match a.op with
    | .load _ => true
    | _ => false))
  let x := ready.foldl (fun (x : Core) a => match a.op with
    | .load d => x.bind d a.got
    | _ => x) x
  s.setCore c { x with accesses := x.accesses.filter (fun a => !(a.parts.isEmpty && (match a.op with
    | .load _ => true
    | _ => false))) }

/-- The parts of a core's loads that a piece of a line serves take their values. -/
def CoreAccess.serve (a : CoreAccess) (line pieces : Nat) (value : Part → Nat) : CoreAccess :=
  match a.op with
  | .load _ =>
    let hit := fun (p : Part) => p.wpa / 64 = line && bit pieces (pieceOf p.wpa)
    if a.dev then a else { a with got := a.got ++ (a.parts.filter hit).map (fun p => (p.elem, value p)), parts := a.parts.filter (fun p => !hit p) }
  | _ => a

/-- The first piece wanted of a line: that of the oldest waiting load (critical word first). -/
def Core.criticalPiece (x : Core) (line : Nat) : Option Nat :=
  x.accesses.findSome? (fun a => match a.op with
    | .load _ => if a.dev then none else (a.parts.find? (fun p => p.wpa / 64 = line)).map (fun p => pieceOf p.wpa)
    | _ => none)

/-- A piece follows those that have arrived, in ascending order, wrapping at the line end. -/
def pieceNext (pieces q : Nat) : Bool := !bit pieces q && bit pieces ((q + 3) % 4)

/-- A 16 B piece of a line fill arrives from the ply cache or from own-ply scratch; poison is a deferred fault of the loads that wait. -/
def execL1dFillPiece (c line q : Nat) (s : State) := commit s (fun s =>
  let x := s.core c
  let have' := s.l1dPieces c line
  let ok := decide (q < 4) && (if have' = 0 then x.criticalPiece line = Option.some q else pieceNext have' q)
  if !ok then s
  else
    let y := plyOfCore c
    let src : Option (LineData × Bool × State) := match placeOf (64 * line) with
      | .scratch z off =>
        if z = y && s.scratchValid y off then
          Option.some (s.lineAt (64 * line), (s.ply y).scratchPoison.contains (off / 64), s)
        else none
      | _ => (s.touch y line).map (fun r => (r.1.data, r.1.poison, r.2))
    match src with
    | none => s
    | Option.some (d, poison, s) =>
      if poison then
        match (s.core c).accesses.find? (fun a => !a.dev && a.parts.any (fun p => p.wpa / 64 = line)) with
        | Option.some a =>
          (s.setCore c { s.core c with accesses := (s.core c).accesses.filter (fun z => z.id ≠ a.id) }).coreFault c
            { code := fcEcc, deferred := true, pc := a.pc, addr := a.dva }
        | none => s
      else
        let pieces := setBit have' q true
        let s := s.setL1d c line pieces
        let x := s.core c
        let s := s.setCore c { x with accesses := x.accesses.map (fun a => a.serve line pieces (fun p => lineField d (p.wpa % 64) p.size)) }
        s.bindReady c)

/-! ### Drains (R304, R306, R308, R309) -/

/-- Reservations of every core on a scratch line are cleared, except that of core `keep`. -/
def State.dropRsvAll (s : State) (line : Nat) (keep : Option Nat) : State :=
  s.cores.foldl (fun s e =>
    if keep = Option.some e.1 then s
    else match (s.core e.1).rsv with
    | Option.some r => if !r.atTarget && r.base / 64 = line then s.setCore e.1 { s.core e.1 with rsv := none } else s
    | none => s) s

/-- A masked write to ply scratch at its ply cache (R319, R387). -/
def State.scratchWrite (s : State) (line : Nat) (data : LineData) (mask : BitVec 64) (core : Option Nat) : State :=
  match placeOf (64 * line) with
  | .scratch y off =>
    let s := s.store (64 * line) 64 (mergeMask (s.lineAt (64 * line)) data mask).toNat
    let s := if mask = BitVec.allOnes 64 then
        s.setPly y { s.ply y with scratchPoison := (s.ply y).scratchPoison.filter (· ≠ off / 64) } else s
    (((s.dropL1d y line core).dropRsvAll line core).hitMonitors line core)
  | _ => s

/-- The line of a ply written by core `c` while it is held E or M, or in an STR copy: the other cores' L1D copies and reservations go
(R304, R394). -/
def State.writeCopy (s : State) (c line : Nat) (cl : CLine) (data : LineData) (mask : BitVec 64) : State :=
  let y := plyOfCore c
  let cl' := { cl with st := .m, data := mergeMask cl.data data mask, mask := if cl.str then cl.mask ||| mask else cl.mask, age := 0,
                       poison := cl.poison && mask != BitVec.allOnes 64 }
  (((s.setCopy y line cl').dropL1d y line (Option.some c)).dropRsv y line (Option.some c)).hitMonitors line (Option.some c)

/-- A merging-buffer entry is freed. -/
def State.freeMb (s : State) (c line : Nat) : State :=
  s.setCore c { s.core c with mb := (s.core c).mb.filter (fun e => !(e.line = line)) }

/-- A merging-buffer drain is acknowledged, or faulted, and its entry freed; while the line is not yet held as the drain needs, its
request stands on the bus. -/
def execMbDrainAck (c line : Nat) (s : State) := commit s (fun s =>
  let x := s.core c
  match x.mb.find? (fun e => e.line = line && e.draining) with
  | none => s
  | Option.some e =>
    let y := plyOfCore c
    let full := e.mask = BitVec.allOnes 64
    let fail := fun (s : State) (code cause : Nat) =>
      (s.freeMb c line).coreFault c { code := code, cause := cause, deferred := true, pc := e.pc, addr := e.dva }
    let st := s.targetCheck x.coil e.shared line
    if s.carveHolds (64 * line) then s
    else if st = spPerm then
      fail (match lineVault line with
        | Option.some v => s.permEvent v x.coil (64 * line)
        | none => s) fcPerm Cause.access.code
    else if st ≠ spOk then fail s fcFenced 0
    else match placeOf (64 * line) with
    | .scratch _ _ => (s.scratchWrite line e.data e.mask (Option.some c)).freeMb c line
    | _ =>
      if (s.ply y).poisonedMiss.contains line then
        fail (s.setPly y { s.ply y with poisonedMiss := (s.ply y).poisonedMiss.filter (· ≠ line) }) fcEcc 0
      else if s.refused y line ≠ 0 then
        fail (s.forgive y line) (if s.refused y line = spPerm then fcPerm else fcFenced) (if s.refused y line = spPerm then Cause.access.code else 0)
      else match s.touch y line with
      | Option.some (cl, s1) =>
        if cl.poison && !full then fail s1 fcEcc 0
        else if e.str || cl.st = .e || cl.st = .m then (s1.writeCopy c line cl e.data e.mask).freeMb c line
        else s1.startDrain c line
      | none =>
        if e.str && full then
          match s.fillPly y line { st := .m, data := e.data, mask := e.mask, str := true } with
          | Option.some s => (s.hitMonitors line (Option.some c)).freeMb c line
          | none => s
        else s.startDrain c line)

/-- An entry has gone 64 core cycles without a merge. -/
def execMbDrainTimeout (c line : Nat) (s : State) := commit s (fun s => s.startDrains c (fun e => e.line = line))

/-! ### The NT combining buffer (R388 to R390) -/

/-- The data and mask of line `i` of an NT entry. -/
def NtEntry.line (e : NtEntry) (i : Nat) : LineData × BitVec 64 :=
  (BitVec.ofNat 512 (e.data.toNat >>> (512 * i)), BitVec.ofNat 64 (e.mask.toNat >>> (64 * i)))

/-- An element into the NT entry of its block; `none` when all 8 are in use. -/
def Core.ntPut (x : Core) (e : El) (v : Nat) : Option Core :=
  let b := e.wpa / 256
  let o := e.wpa % 256
  let m := BitVec.ofNat 256 ((2 ^ e.size - 1) * 2 ^ o)
  let put := fun (d : BitVec 2048) => BitVec.ofNat 2048 (setBits d.toNat (8 * o) (8 * e.size) v)
  let x := { x.storeRsv e.wpa with l1d := x.l1d.filter (fun z => z.1 ≠ e.wpa / 64) }
  let fill := fun (z : NtEntry) => { z with mask := z.mask ||| m, data := put z.data, draining := z.draining || z.mask ||| m = BitVec.allOnes 256 }
  if x.nt.any (fun z => z.block = b) then Option.some { x with nt := x.nt.map (fun z => if z.block = b then fill z else z) }
  else if x.nt.length < 8 then
    let z : NtEntry := { block := b, mask := 0, data := 0, str := e.region = .str, dva := e.dva, pc := x.pc, shared := leafShared e.leaf }
    Option.some { x with nt := x.nt ++ [fill z] }
  else none

/-- A non-temporal store: DEV as an ordinary store, otherwise into the NT buffer, the oldest entry draining when it is full. -/
def State.ntStore (s : State) (c : Nat) (els : List (El × Nat)) (vector : Bool) : State :=
  if els.any (fun z => z.1.region = .dev) then s.storeChecked c els true vector
  else
    let r := els.foldl (fun (acc : Option Core) z => acc.bind (fun x => x.ntPut z.1 z.2)) (Option.some (s.core c))
    match r with
    | Option.some x => (s.setCore c x).retire c
    | none =>
      let s := match (s.core c).nt with
        | z :: _ => s.startNt c (fun e => e.block = z.block)
        | [] => s
      s.hold c

def execNtDrainTimeout (c block : Nat) (s : State) := commit s (fun s => s.startNt c (fun e => e.block = block))

/-- The core has posted a CXL.io write at an address of a port: a later fence needs a flush read (R404). -/
def Core.posted (x : Core) (p addr : Nat) : Core := { x with flush := SMap.put (SMap.erase x.flush p) p addr }

/-- One line of an NT entry performed at its target: WrNC for COH, a plain write for STR, a CXL.io write for a host window, the scratch's
ply cache for scratch (R390, Table 4.10); a splice window takes the whole entry as one write (R680); `none` while the line's home is busy. -/
def State.ntLine (s : State) (c : Nat) (e : NtEntry) (i : Nat) : Option (Nat × State) :=
  let line := 4 * e.block + i
  let d := e.line i
  let coil := (s.core c).coil
  match placeOf (256 * e.block) with
  | .splice b w o =>
    if i ≠ 0 then Option.some (0, s)
    else if s.targetCheck coil e.shared line ≠ spOk then Option.some (spFenced, s)
    else Option.some (0, s.toBend b { src := .cleat, op := .write, window := w, addr := o, data := e.data.toNat, mask := e.mask.toNat,
                                      coil := coil.getD 0, core := Option.some c })
  | _ =>
  if d.2 = 0 then Option.some (0, s)
  else match placeOf (64 * line) with
  | .spool _ _ =>
    if s.ncWaits line coil e.shared then none
    else if e.str then Option.some (s.writeTarget coil e.shared line d.1 d.2 false)
    else if s.quietLine line then Option.some (s.ncWrite line coil e.shared d.1 d.2 false (Option.some c))
    else none
  | .host p _ =>
    if s.targetCheck coil e.shared line ≠ spOk then Option.some (spFenced, s)
    else
      let s := (s.recallLine p line).postLine p line d.1 d.2 false (Option.some c)
      Option.some (0, s.setCore c ((s.core c).posted p (64 * line % 2 ^ 48)))
  | .scratch _ _ =>
    let st := s.targetCheck coil e.shared line
    if s.carveHolds (64 * line) then none
    else Option.some (if st = spOk then (0, s.scratchWrite line d.1 d.2 (Option.some c)) else (st, s))
  | _ => Option.some (s.writeTarget coil e.shared line d.1 d.2 false (Option.some c))

/-- Every write of an NT entry has been acknowledged, or answered with a fault, and the entry is freed. -/
def execNtDrainAck (c block : Nat) (s : State) := commit s (fun s =>
  match (s.core c).nt.find? (fun e => e.block = block && e.draining) with
  | none => s
  | Option.some e =>
    let r := (List.range 4).foldl (fun (acc : Option (Nat × State)) i =>
      acc.bind (fun a => (a.2.ntLine c e i).map (fun b => (if a.1 = 0 then b.1 else a.1, b.2)))) (Option.some (0, s))
    match r with
    | none => s
    | Option.some (st, s) =>
      let s := s.setCore c { s.core c with nt := (s.core c).nt.filter (fun z => z.block ≠ block) }
      if st = 0 then s
      else s.coreFault c { code := if st = spPerm then fcPerm else fcFenced, cause := if st = spPerm then Cause.access.code else 0,
                           deferred := true, pc := e.pc, addr := e.dva })

end Sys2Proof.Machine
end

