-- ==== Sys2Proof/Machine/Sync.lean ====
section
/-!
DEFINITION. Synchronisation, atomics and memory maintenance (class 0x7): fences, flush reads, reservations, atomics,
non-temporal stores, maintenance by address and the window fence (chapters 9, 11 and 14).
-/
namespace Sys2Proof.Machine

/-! ### Configuration of a function (chapter 4) -/

/-- What a configuration field of a function holds; unwritten fields are zero. -/
def State.cfgVal (s : State) (p fn : Nat) (f : CfgField) : Nat := SMap.get 0 (s.port p).cfg (64 * fn + f.ctorIdx)
def State.setCfg (s : State) (p fn : Nat) (f : CfgField) (v : Nat) : State :=
  s.setPort p { s.port p with cfg := SMap.set 0 (s.port p).cfg (64 * fn + f.ctorIdx) v }

/-! ### Answers to a core's accesses (R435, Table 5.2) -/

/-- The general register of an access takes a value, zero-extended. -/
def Core.bindAcc (x : Core) (a : CoreAccess) (v : Nat) : Core :=
  match a.op with
  | .amo _ _ _ d => x.setG d (BitVec.ofNat 64 v)
  | .ldrsv d => x.setG d (BitVec.ofNat 64 v)
  | .stcnd _ d => x.setG d (BitVec.ofNat 64 v)
  | _ => x

/-- An access of a core is no longer outstanding. -/
def State.dropAccess (s : State) (c id : Nat) : State :=
  s.setCore c { s.core c with accesses := (s.core c).accesses.filter (fun a => a.id ≠ id) }

/-- An access of a core ends in a deferred fault. -/
def State.failAccess (s : State) (c : Nat) (a : CoreAccess) (code cause : Nat) : State :=
  (s.dropAccess c a.id).coreFault c { code := code, cause := cause, deferred := true, pc := a.pc, addr := a.dva }

/-- The reservation of a core is cleared, at its target too. -/
def State.clearRsv (s : State) (c : Nat) : State :=
  { s.setCore c { s.core c with rsv := none } with strRsv := s.strRsv.filter (fun r => r.core ≠ c) }

/-- The target that holds the reservation of a 256 B granule: a vault controller, or a Hitch. -/
def rsvHolder (addr : Nat) : UnitRef := unitOf 0 (placeOf addr)

/-- A reservation held at its target (Table 11.7): the oldest one goes when the table of the controller or the Hitch is full (R394). -/
def State.holdAtTarget (s : State) (c wpa : Nat) : State :=
  let g := wpa / 256
  let u := rsvHolder wpa
  let cap := if u.kind = .vault then 64 else 1024
  let here := s.strRsv.filter (fun r => rsvHolder (256 * r.granule) = u)
  let old := if here.length < cap then none else here.head?
  let s : State := { s with strRsv := s.strRsv.filter (fun r => Option.some r ≠ old) ++ [{ core := c, granule := g }] }
  s.setCore c { s.core c with rsv := Option.some { base := 256 * g, size := 256, atTarget := true } }

/-- A host's or a Bend port's answer to access `id` of a core: the next read of a DEV load goes out, or the value is bound; data that
arrives during termination is discarded. -/
def State.answerAccess (s : State) (c id : Nat) (r : ReadResult) : State :=
  match (s.core c).accesses.find? (fun a => a.id = id) with
  | none => s
  | Option.some a =>
    match r with
    | .data bs =>
      if (s.core c).ending then s.dropAccess c id
      else match a.op with
      | .load _ =>
        match a.parts with
        | [] => s.bindReady c
        | p :: rest =>
          let a' := { a with parts := rest, got := a.got ++ [(p.elem, leNat (bs.take p.size))] }
          let s := s.setCore c { s.core c with accesses := (s.core c).accesses.map (fun z => if z.id = id then a' else z) }
          if rest.isEmpty then s.bindReady c else s.devNext c a'
      | .ldrsv _ => ((s.setCore c ((s.core c).bindAcc a (leNat bs))).dropAccess c id).holdAtTarget c (((a.parts.head?).map (·.wpa)).getD 0)
      | _ => (s.setCore c ((s.core c).bindAcc a (leNat bs))).dropAccess c id
    | .poison _ => s.failAccess c a fcEcc 0
    | .perm => s.failAccess c a fcPerm Cause.access.code
    | _ => s.failAccess c a fcFenced 0

/-! ### Flush reads (R404) -/

/-- A flush read of the function through which core `c` posted its last write at a port. -/
def State.flushRead (s : State) (c p addr : Nat) : State :=
  let pt := s.port p
  let t : IoTag := { tag := pt.nextTag, fn := s.fnOf p (s.core c).coil, src := .hitch p, addr := addr, len := 0 }
  let s := (s.setPort p { pt with tags := pt.tags ++ [t], nextTag := pt.nextTag + 1 }).send (.ioRead p pt.nextTag addr 0)
  s.setCore c { s.core c with flush := SMap.erase (s.core c).flush p, flushing := (s.core c).flushing ++ [(p, pt.nextTag)] }

/-- Every posted write of a core gets its flush read. -/
def State.flushReads (s : State) (c : Nat) : State :=
  (s.core c).flush.foldl (fun s e => s.flushRead c e.1 e.2) s

/-- A flush read ends, and whoever waits for it goes on; one that failed is FENCED_TARGET towards the cores that wait, and makes the
descriptor that waits for it BAD. -/
def State.flushDone (s : State) (p tag : Nat) (ok : Bool) : State :=
  let s := s.setPort p { s.port p with tags := (s.port p).tags.filter (fun t => t.tag ≠ tag) }
  let s := s.channels.foldl (fun (s : State) e =>
    if e.2.flushing.contains (p, tag) then
      { s with channels := SMap.set {} s.channels e.1 { e.2 with flushing := e.2.flushing.filter (· ≠ (p, tag)),
                                                                 bad := if ok ∨ e.2.cur = none then e.2.bad else Option.some (e.2.bad.getD { reason := 3 }) } }
    else s) s
  s.cores.foldl (fun s e =>
    if (s.core e.1).flushing.contains (p, tag) then
      let s := s.setCore e.1 { s.core e.1 with flushing := (s.core e.1).flushing.filter (· ≠ (p, tag)) }
      if ok then s else s.coreFault e.1 { code := fcFenced, deferred := true, pc := (s.core e.1).pc }
    else s) s

/-! ### Fences (R376 to R380, Table 11.2) -/

/-- The outstanding accesses that a fence's predecessor bits name: loads and the reads of atomics and LDRSV; stores, atomics, STCND and
maintenance, where a DEV store is performed at C once issued and a maintenance operation too. -/
def AccOp.isRead : AccOp → Bool
  | .load _ => true
  | .amo _ _ _ _ => true
  | .ldrsv _ => true
  | _ => false

def AccOp.isWrite (scope : Nat) : AccOp → Bool
  | .store => scope ≠ 0
  | .amo _ _ _ _ => true
  | .stcnd _ _ => true
  | .maint _ => scope ≠ 0
  | _ => false

/-- A fence of scope 0 C, 1 P or 2 S: it is held until its predecessors have been performed (DEDUCED, log entry 23). -/
def State.fence (s : State) (c scope mask : Nat) : State :=
  let pr := bit mask 0
  let pw := bit mask 1
  let pn := bit mask 2
  if !(pr || pw || pn) || !(bit mask 3 || bit mask 4) then s.retire c
  else
    let s := if pn then s.startNt c (fun _ => true) else s
    let s := if pw || (pr && scope = 2) then s.startDrains c (fun _ => true) else s
    let s := if scope = 2 && (pw || pn) then s.flushReads c else s
    let x := s.core c
    let waits := (pr && x.accesses.any (fun a => a.op.isRead)) || (pw && x.accesses.any (fun a => a.op.isWrite scope)) ||
      (decide (1 ≤ scope) && pw && !x.mb.isEmpty) || (scope = 2 && pr && !x.mb.isEmpty) || (decide (1 ≤ scope) && pn && !x.nt.isEmpty) ||
      (scope = 2 && (pw || pn) && !x.flushing.isEmpty)
    if waits then s.hold c else s.retire c

/-- A fence's mask is the field MOD[4:0]; the rest of MOD is reserved (R486). -/
def execFenceC (c mask : Nat) (s : State) := commit s (fun s => s.instr c (decide (mask < 32)) {} (fun s => s.fence c 0 mask))
def execFenceP (c mask : Nat) (s : State) := commit s (fun s => s.instr c (decide (mask < 32)) {} (fun s => s.fence c 1 mask))
def execFenceS (c mask : Nat) (s : State) := commit s (fun s => s.instr c (decide (mask < 32)) {} (fun s => s.fence c 2 mask))

/-- An address lies in a splice window. -/
def inWindow (b w wpa : Nat) : Bool :=
  match placeOf wpa with
  | .splice b' w' _ => b' = b && w' = w
  | _ => false

/-- The window fence (R491): earlier accesses to the window first reach the Bend port, then the window-fence transaction makes
them performed at the remote wafer; the instruction completes when it is answered (DEDUCED, log entry 24). -/
def State.windowFence (s : State) (c e mask : Nat) (wpa : Nat) : State :=
  match placeOf wpa with
  | .splice b w o =>
    let pr := bit mask 0
    let pw := bit mask 1
    let pn := bit mask 2
    if !(pr || pw || pn) || !(bit mask 3 || bit mask 4) then s.retire c
    else
      let x := s.core c
      if x.progress = 0 then
        let s := if pw then s.startDrains c (fun z => inWindow b w (64 * z.line)) else s
        let s := if pn then s.startNt c (fun z => inWindow b w (256 * z.block)) else s
        let x := s.core c
        let waits := (pw && x.mb.any (fun z => inWindow b w (64 * z.line))) || (pn && x.nt.any (fun z => inWindow b w (256 * z.block))) ||
          x.accesses.any (fun a => a.parts.any (fun p => inWindow b w p.wpa) && ((pr && a.op.isRead) || (pw && a.op.isWrite 2)))
        if waits then s.hold c
        else
          let id := x.nextAcc
          let s := s.addAccess c { id := id, op := .wfence, dva := e, pc := x.pc }
          let s := s.toBend b { src := .core c id, op := .fence, window := w, addr := o, coil := x.coil.getD 0 }
          (s.setCore c { s.core c with progress := 1 }).hold c
      else if x.accesses.any (fun a => a.op = .wfence) then s.hold c
      else s.retire c
  | _ => s.trap c fcPerm Cause.access.code e

def execBendWfence (c a mask : Nat) (s : State) := commit s (fun s =>
  s.instr c (gOk [a] && decide (mask < 32)) { g := [a] } (fun s =>
    let e := ((s.core c).rg a).toNat
    match s.xlat c 0 e .read with
    | .ok w _ l => (s.keepLeaf c l false).windowFence c e mask w
    | .miss => s.stall c .read e
    | .fault x =>
      match s.xlat c 0 e .write with
      | .ok w _ l => (s.keepLeaf c l false).windowFence c e mask w
      | .miss => s.stall c .write e
      | .fault _ => s.trapCause c x e))

/-! ### Reservations and atomics (R392 to R398, R487 to R490) -/

/-- The memory form: SZ, SPACE and OFF, with MOD[3:2] reserved (R486). -/
def memForm (m : MMod) (sizes : List Nat) : Bool :=
  sizes.contains m.sz && decide (m.space < 3) && decide (m.off < 2 ^ 22) && !m.sx && !m.strm

/-- The core's own buffered stores that overlap a line drain before an atomic or a reservation instruction on it. -/
def State.ownBuffers (s : State) (c wpa size : Nat) : Option State :=
  let x := s.core c
  let line := wpa / 64
  if x.nt.any (fun z => z.some wpa size) then Option.some (s.startNt c (fun z => z.some wpa size))
  else if x.mb.any (fun z => z.line = line) then Option.some (s.startDrain c line)
  else none

/-- The ply cache writes back and drops its copies of lines, with the L1D copies of the core's ply (R395, Table 14.6). -/
def State.dropStr (s : State) (y : Nat) (lines : List Nat) : State :=
  lines.foldl (fun s l => match (s.ply y).copy l with
    | Option.some cl => if cl.str then (s.forget y l).leavePly y l cl else s
    | none => s) s

/-- A class 0x7 access that is performed at its target: it stands outstanding until CORE_ACCESS_RESPONSE, or the host's or the Bend
port's answer. -/
def State.sendAccess (s : State) (c : Nat) (op : AccOp) (kind : AccKind) (el : El) (value : Nat) : State :=
  (s.addAccess c { id := 0, op := op, kind := kind, dva := el.dva, pc := (s.core c).pc, leaf := el.leaf, parts := [el.part value] }).retire c

/-- The line in the ply cache, with ownership where `own`: its copy, a wait, or a deferred fault. -/
inductive Owned where
  | have (x : CLine) (s : State)
  | stop (s : State)

def State.owned (s : State) (c : Nat) (el : El) (own : Bool) : Owned :=
  let pc := (s.core c).pc
  let line := el.wpa / 64
  match s.obtain c line false (leafShared el.leaf) (if own then .brdx else .brd) false with
  | .wait s => .stop (s.hold c)
  | .bad code cause s => .stop ((s.retire c).coreFault c { code := code, cause := cause, deferred := true, pc := pc, addr := el.dva })
  | .have x s =>
    if x.poison then .stop ((s.retire c).coreFault c { code := fcEcc, deferred := true, pc := pc, addr := el.dva })
    else if own && x.st != .e && x.st != .m then
      .stop (((s.present { ply := plyOfCore c, line := line, req := .bown false, coil := (s.core c).coil, shared := leafShared el.leaf }).getD s).hold c)
    else .have x s

/-- An address in the core's own ply scratch, at a carved offset: accesses to it are performed at once. -/
def State.ownScratch (s : State) (c wpa : Nat) : Bool :=
  match placeOf wpa with
  | .scratch y off => y = plyOfCore c && s.scratchValid y off
  | _ => false

/-- Ply scratch of a ply of another coil, splice windows and DEV hold no reservation (Table 11.7, R490). -/
def State.rsvDenied (s : State) (c : Nat) (el : El) : Bool :=
  el.region = .dev || (match placeOf el.wpa with
    | .scratch y _ => (s.core c).coil ≠ none && s.plyCoil y ≠ (s.core c).coil
    | .splice _ _ _ => true
    | .tile _ _ => true
    | .rig _ => true
    | _ => false)

/-- LDRSV: the value, and the reservation on its granule (R392, R393). A core whose STCND to the granule failed requests the
line for ownership (R398). -/
def State.loadReserve (s : State) (c d : Nat) (el : El) : State :=
  if s.rsvDenied c el then (s.clearRsv c).trap c fcPerm Cause.access.code el.dva
  else match s.ownBuffers c el.wpa el.size with
  | Option.some s => s.hold c
  | none =>
    let line := el.wpa / 64
    if s.ownScratch c el.wpa then
      let s := s.clearRsv c
      if (s.ply (plyOfCore c)).scratchPoison.contains (el.wpa % 0x1000000 / 64) then
        let pc := (s.core c).pc
        (s.retire c).coreFault c { code := fcEcc, deferred := true, pc := pc, addr := el.dva }
      else s.update c (fun x => { x.setG d (BitVec.ofNat 64 (s.load el.wpa el.size)) with rsv := Option.some { base := 64 * line, size := 64 } })
    else match placeOf el.wpa with
    | .scratch _ _ => (s.clearRsv c).sendAccess c (.ldrsv d) .read el 0
    | _ =>
      if el.region = .str then
        let id := (s.core c).nextAcc
        let s := ((s.clearRsv c).dropStr (plyOfCore c) (span (el.wpa / 256 * 4) 4)).sendAccess c (.ldrsv d) .read el 0
        match placeOf el.wpa with
        | .host p addr => s.ioRead p (.core c id) (s.core c).coil addr el.size
        | _ => s
      else
        let own := match (s.core c).stcFails with
          | Option.some (g, _) => g = line
          | none => false
        match s.owned c el own with
        | .stop s => s
        | .have cl s =>
          (s.clearRsv c).update c (fun x =>
            { x.setG d (BitVec.ofNat 64 (lineField cl.data (el.wpa % 64) el.size)) with rsv := Option.some { base := 64 * line, size := 64 } })

/-- The instruction's operand address after its checks. -/
def State.element (s : State) (c e : Nat) (m : MMod) (k : AccKind) (f : State → El → State) : State :=
  match s.checkEls c m.space k true [(0, e, 2 ^ m.sz)] with
  | .stop s => s
  | .ok [] s => s
  | .ok (el :: _) s => f s el

def execLdrsv (c d a : Nat) (m : MMod) (s : State) := commit s (fun s =>
  s.instr c (gOk [d, a] && memForm m [2, 3]) { g := [d, a] } (fun s =>
    s.element c (effAddr ((s.core c).rg a) 0 m.off 22) m .read (fun s el => s.loadReserve c d el)))

/-- The core counts a failed STCND on a granule, or starts afresh after a success (R398). -/
def Core.stcResult (x : Core) (granule : Nat) (ok : Bool) : Core :=
  { x with stcFails := if ok then none else match x.stcFails with
    | Option.some (g, n) => if g = granule then Option.some (g, min 10 (n + 1)) else Option.some (granule, 1)
    | none => Option.some (granule, 1) }

/-- STCND: the store, if the core still holds a reservation on the granule; every STCND clears the reservation (R392). -/
def State.storeCond (s : State) (c d b : Nat) (lost : Bool) (el : El) : State :=
  let line := el.wpa / 64
  if s.rsvDenied c el then (s.clearRsv c).trap c fcPerm Cause.access.code el.dva
  else match s.ownBuffers c el.wpa el.size with
  | Option.some s => s.hold c
  | none =>
    let held := match (s.core c).rsv with
      | Option.some r => decide (r.base ≤ el.wpa) && decide (el.wpa < r.base + r.size) && !lost
      | none => false
    let fail := fun (s : State) => (s.clearRsv c).update c (fun x => (x.setG d 1).stcResult line false)
    let done := fun (s : State) => (s.clearRsv c).update c (fun x => (x.setG d 0).stcResult line true)
    let v := ((s.core c).rg b).toNat % 2 ^ (8 * el.size)
    if !held then fail s
    else if s.ownScratch c el.wpa then
      done (s.scratchWrite line (setLineField 0 (el.wpa % 64) el.size v) (fieldMask (el.wpa % 64) el.size) (Option.some c))
    else match placeOf el.wpa with
    | .scratch _ _ => s.sendAccess c (.stcnd v d) .write el v
    | _ =>
      if el.region = .str then (s.dropStr (plyOfCore c) (span (el.wpa / 256 * 4) 4)).sendAccess c (.stcnd v d) .write el v
      else match s.owned c el true with
        | .stop s => s
        | .have cl s =>
          done (s.writeCopy c line cl (setLineField 0 (el.wpa % 64) el.size v) (fieldMask (el.wpa % 64) el.size))

/-- A precise fault of STCND clears the reservation (R490). -/
def execStcnd (c d a b : Nat) (m : MMod) (s : State) := commit s (fun s =>
  s.instr c (gOk [d, a, b] && memForm m [2, 3]) { g := [d, a, b] } (fun s =>
    let lost := Config.rsvLost s.fresh
    let t := ({ s with fresh := s.fresh + 1 } : State).element c (effAddr ((s.core c).rg a) 0 m.off 22) m .write (fun s el => s.storeCond c d b lost el)
    if (t.core c).ending then t.clearRsv c else t))

/-- Sizes and codes of a host's AtomicOps: FetchAdd, Swap, CAS (Table 14.6). -/
def hostAtomic (op : Nat) : Option Nat :=
  match op with
  | 0x11 => Option.some 0
  | 0x10 => Option.some 1
  | 0x19 => Option.some 2
  | _ => none

/-- An atomic on an element (Table 14.6). -/
def State.atomic (s : State) (c op d b cc : Nat) (el : El) : State :=
  let line := el.wpa / 64
  let o := el.wpa % 64
  let deny := s.trap c fcPerm Cause.access.code el.dva
  if el.region = .dev then deny
  else match s.ownBuffers c el.wpa el.size with
  | Option.some s => s.hold c
  | none =>
    let bind := fun (s : State) (m : Nat) => s.update c (fun x => x.setG d (BitVec.ofNat 64 m))
    let s := s.setCore c ((s.core c).storeRsv el.wpa)
    if s.ownScratch c el.wpa then
      if (s.ply (plyOfCore c)).scratchPoison.contains (el.wpa % 0x1000000 / 64) then
        let pc := (s.core c).pc
        (s.retire c).coreFault c { code := fcEcc, deferred := true, pc := pc, addr := el.dva }
      else
        let m := s.load el.wpa el.size
        bind (s.scratchWrite line (setLineField 0 o el.size (amoValue op el.size m b cc)) (fieldMask o el.size) (Option.some c)) m
    else if el.region = .str then
      match placeOf el.wpa with
      | .host p addr =>
        match hostAtomic op with
        | none => deny
        | Option.some h =>
          let fn := s.fnOf p (s.core c).coil
          if s.cfgVal p fn .atomicRequester = 0 then deny
          else
            let id := (s.core c).nextAcc
            let s := ((s.dropStr (plyOfCore c) [line]).sendAccess c (.amo op b cc d) .atomic el b).recallLine p line
            let s := (s.hitGranule el.wpa).hitMonitors line (Option.some c)
            let pt := s.port p
            let t : IoTag := { tag := pt.nextTag, fn := fn, src := .core c id, addr := addr, len := el.size }
            (s.setPort p { pt with tags := pt.tags ++ [t], nextTag := pt.nextTag + 1 }).send (.ioAtomic p pt.nextTag addr el.size h b cc)
      | .splice bp w off =>
        let id := (s.core c).nextAcc
        let s := (s.dropStr (plyOfCore c) [line]).sendAccess c (.amo op b cc d) .atomic el b
        s.toBend bp { src := .core c id, op := .atom op b cc, window := w, addr := off, size := el.size, coil := (s.core c).coil.getD 0 }
      | _ => (s.dropStr (plyOfCore c) [line]).sendAccess c (.amo op b cc d) .atomic el b
    else match placeOf el.wpa with
    | .scratch _ _ => s.sendAccess c (.amo op b cc d) .atomic el b
    | _ =>
      match s.owned c el true with
      | .stop s => s
      | .have cl s =>
        let m := lineField cl.data o el.size
        bind (s.writeCopy c line cl (setLineField 0 o el.size (amoValue op el.size m b cc)) (fieldMask o el.size)) m

/-- An atomic of opcode `op` with its legal sizes. -/
def State.amo (s : State) (c op d a b e : Nat) (m : MMod) (sizes : List Nat) : State :=
  s.instr c (gOk [d, a, b, e] && memForm m sizes) { g := [d, a, b, e] } (fun s =>
    let x := s.core c
    let w := 2 ^ (8 * 2 ^ m.sz)
    s.element c (effAddr (x.rg a) 0 m.off 22) m .atomic (fun s el => s.atomic c op d ((x.rg b).toNat % w) ((x.rg e).toNat % w) el))

def execAmoswap (c d a b : Nat) (m : MMod) (s : State) := commit s (fun s => s.amo c 0x10 d a b 0 m [2, 3])
def execAmoadd (c d a b : Nat) (m : MMod) (s : State) := commit s (fun s => s.amo c 0x11 d a b 0 m [2, 3])
def execAmoand (c d a b : Nat) (m : MMod) (s : State) := commit s (fun s => s.amo c 0x12 d a b 0 m [2, 3])
def execAmoor (c d a b : Nat) (m : MMod) (s : State) := commit s (fun s => s.amo c 0x13 d a b 0 m [2, 3])
def execAmoxor (c d a b : Nat) (m : MMod) (s : State) := commit s (fun s => s.amo c 0x14 d a b 0 m [2, 3])
def execAmomin (c d a b : Nat) (m : MMod) (s : State) := commit s (fun s => s.amo c 0x15 d a b 0 m [2, 3])
def execAmomax (c d a b : Nat) (m : MMod) (s : State) := commit s (fun s => s.amo c 0x16 d a b 0 m [2, 3])
def execAmominu (c d a b : Nat) (m : MMod) (s : State) := commit s (fun s => s.amo c 0x17 d a b 0 m [2, 3])
def execAmomaxu (c d a b : Nat) (m : MMod) (s : State) := commit s (fun s => s.amo c 0x18 d a b 0 m [2, 3])
def execAmocas (c d a b e : Nat) (m : MMod) (s : State) := commit s (fun s => s.amo c 0x19 d a b e m [2, 3])
def execAmofadd (c d a b : Nat) (m : MMod) (s : State) := commit s (fun s => s.amo c 0x1A d a b 0 m [1, 2])
def execAmofmin (c d a b : Nat) (m : MMod) (s : State) := commit s (fun s => s.amo c 0x1B d a b 0 m [1, 2])
def execAmofmax (c d a b : Nat) (m : MMod) (s : State) := commit s (fun s => s.amo c 0x1C d a b 0 m [1, 2])

/-! ### Non-temporal stores (R388, R487) -/

def execStNt (c a b : Nat) (m : MMod) (s : State) := commit s (fun s =>
  s.instr c (gOk [a, b] && memForm m [0, 1, 2, 3]) { g := [a, b] } (fun s =>
    let x := s.core c
    match s.checkEls c m.space .write true [(0, effAddr (x.rg a) 0 m.off 22, 2 ^ m.sz)] with
    | .stop s => s
    | .ok els s => s.ntStore c (els.map (fun el => (el, (x.rg b).toNat % 2 ^ (8 * 2 ^ m.sz)))) false))

/-- VST.NT is 16 elements of 8 B after the one 128 B alignment check. -/
def execVstNt (c d a : Nat) (m : MMod) (s : State) := commit s (fun s =>
  s.instr c (gOk [d, a] && memForm m [0]) { g := [a], v := [d] } (fun s =>
    let x := s.core c
    let e := effAddr (x.rg a) 0 m.off 22
    if e % 128 ≠ 0 then s.trap c fcAlign 0 e
    else match s.checkEls c m.space .write true ((List.range 16).map (fun i => (i, e + 8 * i, 8))) with
    | .stop s => s
    | .ok els s => s.ntStore c (els.map (fun el => (el, elem (x.rv d) 64 el.elem))) true))

/-! ### Maintenance by address (R322 to R324, Tables 9.7 and 10.2) -/

def opClean : Nat := 0x28
def opInvalidate : Nat := 0x29
def opCleanInv : Nat := 0x2A
def opZero : Nat := 0x2B

/-- A maintenance operation whose write-backs or request await their Ack stands outstanding until MAINT_DONE. -/
def State.maintPending (s : State) (c op : Nat) (el : El) : State :=
  s.sendAccess c (.maint op) .write { el with wpa := el.wpa / 64 * 64, size := 64 } 0

/-- A clean or a removal on a coherent line: Table 10.2. -/
def State.maintCoh (s : State) (c op : Nat) (el : El) : State :=
  let y := plyOfCore c
  let line := el.wpa / 64
  let ask := fun (s : State) (r : BayReq) =>
    match s.present { ply := y, line := line, req := r, coil := (s.core c).coil, shared := leafShared el.leaf } with
    | Option.some s => s.maintPending c op el
    | none => s.hold c
  if (s.bus (bayOfPly y)).reqs.any (fun r => r.ply = y && r.line = line) then s.hold c
  else if s.targetCheck (s.core c).coil (leafShared el.leaf) line ≠ spOk then
    let st := s.targetCheck (s.core c).coil (leafShared el.leaf) line
    let pc := (s.core c).pc
    (s.retire c).coreFault c { code := if st = spPerm then fcPerm else fcFenced, cause := if st = spPerm then Cause.access.code else 0,
                               deferred := true, pc := pc, addr := el.dva }
  else match (s.ply y).copy line with
  | none => ask s (if op = opClean then .bclr else .binv)
  | Option.some cl =>
    if op = opClean then
      if cl.st = .m then
        let k := bayOfPly y
        let s := s.setCopy y line { cl with st := .e }
        let s := s.setBus k { s.bus k with wbs := (s.bus k).wbs ++
          [{ ply := y, line := line, kind := .cln, data := Option.some cl.data, poison := cl.poison }] }
        (s.bump .PC_WRITEBACKS_COUNT y 1).maintPending c op el
      else s.retire c
    else
      let s := (s.forget y line).leavePly y line cl
      if cl.st = .s then ask s .binv else s.maintPending c op el

/-- The STR lines of Table 9.7: the copy in this ply cache only. -/
def State.maintStr (s : State) (c op : Nat) (el : El) : State :=
  let y := plyOfCore c
  let line := el.wpa / 64
  match (s.ply y).copy line with
  | none => s.retire c
  | Option.some cl =>
    let write := fun (s : State) =>
      let r := s.writeTarget (s.core c).coil (leafShared el.leaf) line cl.data cl.mask cl.poison (Option.some c)
      let s := match placeOf el.wpa with
        | .host p a => r.2.setCore c ((r.2.core c).posted p (a / 64 * 64))
        | _ => r.2
      (r.1, s.bump .PC_WRITEBACKS_COUNT y 1)
    let pc := (s.core c).pc
    let finish := fun (r : Nat × State) =>
      if r.1 = 0 then r.2.retire c
      else (r.2.retire c).coreFault c { code := if r.1 = spPerm then fcPerm else fcFenced, cause := if r.1 = spPerm then Cause.access.code else 0,
                                        deferred := true, pc := pc, addr := el.dva }
    if op = opClean then
      if cl.mask = 0 then s.retire c else finish (write (s.setCopy y line { cl with st := .s, mask := 0 }))
    else
      let s := ((s.forget y line).dropL1d y line).dropRsv y line
      if op = opInvalidate ∨ cl.mask = 0 then s.retire c else finish (write s)

/-- ZERO: the line allocated modified with zero data; scratch takes zeros. -/
def State.maintZero (s : State) (c : Nat) (el : El) : State :=
  let y := plyOfCore c
  let line := el.wpa / 64
  let s := s.setCore c ((s.core c).storeRsv el.wpa)
  match placeOf el.wpa with
  | .scratch _ _ =>
    if s.ownScratch c el.wpa then (s.scratchWrite line 0 (BitVec.allOnes 64) (Option.some c)).retire c
    else s.maintPending c opZero el
  | _ =>
    if el.region = .str then
      match (s.ply y).copy line with
      | Option.some cl => (s.writeCopy c line { cl with poison := false } 0 (BitVec.allOnes 64)).retire c
      | none =>
        match s.fillPly y line { st := .m, data := 0, mask := BitVec.allOnes 64, str := true } with
        | Option.some s => (s.hitMonitors line (Option.some c)).retire c
        | none => s.hold c
    else match s.obtain c line false (leafShared el.leaf) (.bown true) false with
    | .wait s => s.hold c
    | .bad code cause s =>
      let pc := (s.core c).pc
      (s.retire c).coreFault c { code := code, cause := cause, deferred := true, pc := pc, addr := el.dva }
    | .have cl s =>
      if cl.st = .e ∨ cl.st = .m then (s.writeCopy c line { cl with poison := false } 0 (BitVec.allOnes 64)).retire c
      else ((s.present { ply := y, line := line, req := .bown true, coil := (s.core c).coil, shared := leafShared el.leaf }).getD s).hold c

/-- A maintenance instruction; the core's own buffered stores to the line drain first (Table 9.3). -/
def State.maintain (s : State) (c op a : Nat) (m : MMod) : State :=
  s.instr c (gOk [a] && memForm m [0]) { g := [a] } (fun s =>
    s.element c (effAddr ((s.core c).rg a) 0 m.off 22) m (if op = opClean then .read else .write) (fun s el =>
      if el.region = .dev then (if op = opZero then s.trap c fcPerm Cause.access.code el.dva else s.retire c)
      else if (match placeOf el.wpa with
        | .rig _ => true
        | _ => false) then s.trap c fcPerm Cause.access.code el.dva
      else match s.ownBuffers c (el.wpa / 64 * 64) 64 with
      | Option.some s => s.hold c
      | none =>
        if op = opZero then s.maintZero c el
        else match placeOf el.wpa with
        | .scratch _ _ => s.retire c
        | _ => if el.region = .str then s.maintStr c op el else s.maintCoh c op el))

def execClean (c a : Nat) (m : MMod) (s : State) := commit s (fun s => s.maintain c opClean a m)
def execInvalidate (c a : Nat) (m : MMod) (s : State) := commit s (fun s => s.maintain c opInvalidate a m)
def execCleanInv (c a : Nat) (m : MMod) (s : State) := commit s (fun s => s.maintain c opCleanInv a m)
def execZero (c a : Nat) (m : MMod) (s : State) := commit s (fun s => s.maintain c opZero a m)

/-- The write-backs that a maintenance operation of a ply on a line caused, and its request, are answered. -/
def State.maintQuiet (s : State) (y line : Nat) : Bool :=
  let b := s.bus (bayOfPly y)
  !b.wbs.any (fun w => w.ply = y && w.line = line) && !b.reqs.any (fun r => r.ply = y && r.line = line) &&
    (match s.hitchOf line with
    | Option.some p => !(s.port p).d2h.any (fun d => d.line = line)
    | none => true)

/-- A maintenance operation completes: access `id` of a core, or the operation by way in progress at the ply (R324). -/
def execMaintDone (y : Nat) (who : Option (Nat × Nat)) (s : State) := commit s (fun s =>
  match who with
  | Option.some (c, id) =>
    match (s.core c).accesses.find? (fun a => a.id = id) with
    | none => s
    | Option.some a =>
      match a.op with
      | .maint op =>
        let wpa := ((a.parts.head?).map (·.wpa)).getD 0
        if op = opZero then
          match placeOf wpa with
          | .scratch _ _ =>
            let st := s.targetCheck (s.core c).coil (leafShared a.leaf) (wpa / 64)
            if s.carveHolds wpa then s
            else if st = spOk then (s.scratchWrite (wpa / 64) 0 (BitVec.allOnes 64) (Option.some c)).dropAccess c id
            else s.failAccess c a (if st = spPerm then fcPerm else fcFenced) (if st = spPerm then Cause.access.code else 0)
          | _ => s
        else if plyOfCore c = y && s.maintQuiet y (wpa / 64) then s.dropAccess c id else s
      | _ => s
  | none =>
    match (s.ply y).maint with
    | none => s
    | Option.some m =>
      if m.waits.all (s.maintQuiet y) then (s.setPly y { s.ply y with maint := none }).setFld .PC_STATUS_MAINT_BUSY y 0 else s)

end Sys2Proof.Machine
end

