-- ==== Sys2Proof/Machine/Capstan.lean ====
section
/-!
DEFINITION. The Capstan head (chapter 17): rings and doorbells, tickets and their checks, knots, cancellation, completion records and
their interrupts, and the re-dispatch of lost tasks.
-/
namespace Sys2Proof.Machine

/-! ### Tasks (R572) -/

/-- The record of a task in flight. -/
def State.task (s : State) (t : Nat) : Task := SMap.get {} s.cap.tasks t
def State.setTask (s : State) (t : Nat) (v : Task) : State := { s with cap := { s.cap with tasks := SMap.put (SMap.erase s.cap.tasks t) t v } }
def State.dropTask (s : State) (t : Nat) : State := { s with cap := { s.cap with tasks := SMap.erase s.cap.tasks t } }

/-- Tasks in flight that `f` names. -/
def State.tasksOf (s : State) (f : Task → Bool) : List Nat := (s.cap.tasks.filter (fun e => f e.2)).map (·.1)

/-- The tasks of a list in the order of their sequence numbers. -/
def State.bySeq (s : State) (l : List Nat) : List Nat := sortBy (fun a b => decide ((s.task a).seq ≤ (s.task b).seq)) l

/-- A coil's tasks in flight. -/
def State.coilInFlight (s : State) (coil : Nat) : Nat := (s.tasksOf (fun t => t.coil = coil)).length

/-- The next place in the order of readiness or of ending. -/
def State.stamp (s : State) (t : Nat) (st : TaskState) : State :=
  let s := s.setTask t { s.task t with state := st, seq := s.cap.nextSeq }
  { s with cap := { s.cap with nextSeq := s.cap.nextSeq + 1 } }

/-- The coil may run (R623): OPEN or SEALED. -/
def State.coilUp (s : State) (coil : Nat) : Bool :=
  s.fld .CP_COIL_ADMIN_STATE coil = 1 || s.fld .CP_COIL_ADMIN_STATE coil = 2

/-! ### The head's memory accesses (R563, R570, R582) -/

/-- What an address of the head's becomes in a coil's context: COH memory in Spool or in a host window, or a failure. -/
inductive HeadAddr where
  | spool (wpa : Nat) (shared : Option Nat)
  | host (port wpa : Nat)
  | bad (s : State)

/-- A ring, table or directory address translated in its coil's context; a translation fault is recorded with SOURCE 3 (R290). -/
def State.headXlat (s : State) (coil dva : Nat) (k : AccKind) : HeadAddr :=
  let fault := fun (c : Cause) (level : Nat) => HeadAddr.bad (s.recordFault coil dva c k 3 0 level)
  match s.walk coil dva with
  | .inr (c, level) => fault c level
  | .inl l =>
    match l.denies k with
    | some c => fault c 0
    | none =>
      if l.region ≠ .coh ∨ l.target = .splice then .bad s
      else match s.leafWpa l dva with
      | .inr c => fault c 0
      | .inl w => match placeOf w with
        | .spool _ _ => .spool w l.shared
        | .host p _ => if s.hostUp p then .host p w else .bad s
        | _ => .bad s

/-- A coherent read of `n` bytes, at most two lines, as a number: the home's answer, or what the host returned. -/
def State.headRead (s : State) (coil dva n : Nat) (host : Option (List Byte)) : Option Nat × State :=
  match s.headXlat coil dva .read with
  | .bad s => (none, s)
  | .host _ _ => (host.map (fun b => leNat (b.take n)), s)
  | .spool w sh =>
    let a := s.ncRead (w / 64) (some coil) sh
    if a.1 ≠ spOk ∨ a.2.2.1 then (none, a.2.2.2)
    else if n ≤ 64 then (some (lineField a.2.1 (w % 64) n), a.2.2.2)
    else
      let b := a.2.2.2.ncRead (w / 64 + 1) (some coil) sh
      if b.1 ≠ spOk ∨ b.2.2.1 then (none, b.2.2.2) else (some (a.2.1.toNat + b.2.1.toNat * 2 ^ 512), b.2.2.2)

/-- Offsets of a coil's block, for REG_WRITE_DENIED. -/
def cpOff (coil x : Nat) : Nat := 0x1100000 + 0x4000 * coil + x

/-! ### Knots (R573 to R578) -/

/-- A knot table entry. -/
structure Knot where
  value : Int := 0
  armed : Bool := false
  mark : Bool := false
  deriving DecidableEq, Repr

def Knot.decode (e : Nat) : Knot := { value := toSigned 32 e, armed := bit e 32, mark := bit e 33 }
def Knot.encode (k : Knot) : Nat := ofSigned 32 k.value + 2 ^ 32 * b2n k.armed + 2 ^ 33 * b2n k.mark

/-- A coil's knot count. -/
def State.knotCount (s : State) (coil : Nat) : Nat := 2 ^ s.fld .CP_COIL_KNOTS_LOG2 coil

/-- The table entry of a knot. -/
def State.knotDva (s : State) (coil i : Nat) : Nat := s.fld .CP_COIL_KNOTS_BASE coil * 0x1000000 + 8 * i

/-- What a knot holds; an entry that the head cannot reach reads as an idle knot (DEDUCED, log entry 73). -/
def State.knot (s : State) (coil i : Nat) : Knot :=
  match s.headXlat coil (s.knotDva coil i) .write with
  | .spool w _ => Knot.decode (s.cohLoad w 8)
  | _ => {}

/-- A knot's entry written at its home. -/
def State.setKnot (s : State) (coil i : Nat) (k : Knot) : State :=
  match s.headXlat coil (s.knotDva coil i) .write with
  | .spool w sh => (s.ncWrite (w / 64) (some coil) sh (setLineField 0 (w % 64) 8 k.encode) (fieldMask (w % 64) 8) false).2
  | .bad s => s
  | .host _ _ => s

/-- VALUE saturates at 32 signed bits; the second part tells. -/
def knotSat (x : Int) : Int × Bool :=
  if x < -2147483648 then (-2147483648, true) else if 2147483647 < x then (2147483647, true) else (x, false)

/-- What a change of a coil's knots or tasks still has to do: a knot operation, a task that becomes ready, or the record of a
task that ended. -/
inductive CapWork where
  | dec (coil knot n : Nat) (marked : Bool)
  | arm (coil knot n : Nat)
  | ready (t : Nat)
  | record (t : Nat)
  deriving DecidableEq, Repr

/-- A task ends: its release knots are decremented, marked unless it is DONE, before its record is written (R577). -/
def endWork (t : Nat) (k : Task) (e : EndMsg) : List CapWork :=
  k.ticket.release.map (fun r => .dec k.coil r 1 (e.status ≠ 1)) ++ [.record t]

/-- The record's content fixed and the task's end set in the order of ends. -/
def State.markEnd (s : State) (t : Nat) (e : EndMsg) : State := (s.setTask t { s.task t with ended := some e, msg := none }).stamp t .held

/-! ### Completion records (R581 to R584) -/

/-- The words of a record (Table 17.5), as one number of 32 bytes. -/
def recordBytes (k : Task) (e : EndMsg) (phase : Bool) : Nat :=
  let w1 := b2n phase + 2 * e.status + 2 ^ 4 * (if e.status = 2 then e.fault else 0) + 2 ^ 8 * (if e.status = 2 then e.cause else 0) +
    2 ^ 16 * b2n e.overrun + 2 ^ 17 * b2n (decide (0 < k.runs)) + 2 ^ 32 * (if e.status = 1 then e.result % 2 ^ 32 else 0)
  let w2 := if e.status = 2 then e.pc % 2 ^ 48 else 0
  let w3 := e.energy % 2 ^ 32 + 2 ^ 32 * (k.lastCore.getD 0xFFF)
  k.ticket.taskId + 2 ^ 64 * w1 + 2 ^ 128 * w2 + 2 ^ 192 * w3

/-- The VF of a coil on its home port. -/
def State.coilFn (s : State) (coil : Nat) : Option (Nat × Nat) := (s.homeOf coil).map (fun p => (p, s.fnOf p (some coil)))

/-- A record of a coil is lost: discarded and counted. -/
def State.discardRecord (s : State) (t : Nat) : State := (s.bump .CP_COIL_DROPS_DISCARDED (s.task t).coil 1).dropTask t

/-- The completion ring of a task lies in a host window. -/
def State.hostRing (s : State) (t : Nat) : Bool :=
  let k := s.task t
  let i := 64 * k.coil + k.ticket.cring
  match s.walk k.coil (s.fld .CP_CRING_CFG_BASE i * 32 + 32 * (s.fld .CP_CRING_PTR_WRITE i % 2 ^ s.fld .CP_CRING_CFG_LOG2 i)) with
  | .inl l => l.target = .host
  | .inr _ => false

/-- Records of a quiesced coil for rings in a host window are discarded, and their count is logged (R167, R168) (DEDUCED, log entry 37). -/
def State.loseRecords (s : State) (coil : Nat) (ts : List Nat) : State :=
  if ts.isEmpty then s
  else (ts.foldl State.discardRecord s).event .completionLost ⟨.hostPort, s.fld .CP_COIL_ADMIN_HOME coil⟩ (some coil) 0 ts.length

/-- The record of an ended task is written if nothing holds it: into slot WRITE at its home, or as a WOWrInv of its host. `none` while
it is held (R583): behind an earlier record of its ring, a full ring, a sleeping or held port, or no VF. -/
def State.writeRecord (s : State) (t : Nat) : Option State :=
  let k := s.task t
  match k.ended with
  | none => some s
  | some e =>
    let c := k.coil
    let i := 64 * c + k.ticket.cring
    let idx := s.fld .CP_CRING_PTR_WRITE i
    let log2 := s.fld .CP_CRING_CFG_LOG2 i
    if !s.flag .CP_CRING_CFG_ENABLE i then some (s.discardRecord t)
    else if s.flag .CP_COIL_CTL_QUIESCED c && s.hostRing t then some (s.loseRecords c [t])
    else if !s.flag .CP_COIL_ADMIN_HOME_VALID c ∨ (idx + 2 ^ 32 - s.fld .CP_CRING_PTR_HEAD i) % 2 ^ 32 = 2 ^ log2 then none
    else
      let home := s.fld .CP_COIL_ADMIN_HOME c
      let dva := s.fld .CP_CRING_CFG_BASE i * 32 + 32 * (idx % 2 ^ log2)
      if s.hostRing t && !s.hostUp home then none
      else
        let data := recordBytes k e (idx / 2 ^ log2 % 2 = 0)
        match s.headXlat c dva .write with
        | .bad s => some (s.discardRecord t)
        | .spool _ _ => some ((s.setTask t { k with state := .writing idx none }).setFld .CP_CRING_PTR_WRITE i (idx + 1))
        | .host p w =>
          let s := s.recallLine p (w / 64)
          let id := (s.port p).nextD2h
          let s := s.issueD2h p { id := 0, op := .woWrInv, line := w / 64, data := setLineField 0 (w % 64) 32 data, mask := fieldMask (w % 64) 32,
                                  ring := some (c, k.ticket.cring) }
          some ((s.setTask t { k with state := .writing idx (some (p, id)) }).setFld .CP_CRING_PTR_WRITE i (idx + 1))

/-- The ended tasks of a ring whose records are held, in the order in which they ended. -/
def State.heldOf (s : State) (coil cring : Nat) : List Nat :=
  s.bySeq (s.tasksOf (fun t => t.coil = coil && t.ticket.cring = cring && t.state = .held))

/-- The held records of a ring are written, in order, until one must stay held. -/
def State.drainRing (s : State) : List Nat → State
  | [] => s
  | t :: rest => match s.writeRecord t with
    | some s => s.drainRing rest
    | none => s

/-- Whatever the records of a ring wait for has gone. -/
def State.releaseRing (s : State) (coil cring : Nat) : State := s.drainRing (s.heldOf coil cring)

/-- The records of every ring of a coil, or of every coil homed on a port, are written where nothing holds them. -/
def State.releaseCoil (s : State) (coil : Nat) : State := (List.range 64).foldl (fun s i => s.releaseRing coil i) s
def State.writeHeld (s : State) (p : Nat) : State :=
  ((List.range 32).filter (fun c => s.homeOf c = some p)).foldl State.releaseCoil s

/-- The vector of a completion ring is raised once every record issued to it is visible, at most once in a moderation period (R584). -/
def State.ringVector (s : State) (coil cring : Nat) : State :=
  let i := 64 * coil + cring
  let busy := !(s.tasksOf (fun t => t.coil = coil && t.ticket.cring = cring && (match t.state with
    | .writing _ _ => true
    | _ => false))).isEmpty
  let r := SMap.get {} s.cap.rings i
  if !s.flag .CP_CRING_CFG_IRQ_EN i ∨ s.flag .CP_COIL_CTL_QUIESCED coil ∨ busy then s
  else if r.moderating then { s with cap := { s.cap with rings := SMap.set {} s.cap.rings i { r with due := true } } }
  else
    let s : State := if s.fld .CP_CRING_MOD_MODERATE_US i = 0 then s else
      { s with cap := { s.cap with rings := SMap.set {} s.cap.rings i { moderating := true, due := false } } }
    match s.coilFn coil with
    | some (p, fn) => s.raiseMsix p fn (s.fld .CP_CRING_CFG_VEC i)
    | none => s

/-- A record has become visible: its task has left the table. -/
def State.recordVisible (s : State) (t : Nat) : State :=
  let k := s.task t
  (s.dropTask t).ringVector k.coil k.ticket.cring

/-- The home acknowledges, or fails, the write of a record into a ring in Spool (R582). -/
def execRecordWriteAck (t : Nat) (s : State) := commit s (fun s =>
  let k := s.task t
  match k.state, k.ended with
  | .writing idx none, some e =>
    let i := 64 * k.coil + k.ticket.cring
    let log2 := s.fld .CP_CRING_CFG_LOG2 i
    match s.headXlat k.coil (s.fld .CP_CRING_CFG_BASE i * 32 + 32 * (idx % 2 ^ log2)) .write with
    | .spool w sh =>
      let r := s.ncWrite (w / 64) (some k.coil) sh (setLineField 0 (w % 64) 32 (recordBytes k e (idx / 2 ^ log2 % 2 = 0))) (fieldMask (w % 64) 32) false
      if r.1 = spOk then r.2.recordVisible t else r.2.discardRecord t
    | .host _ _ => s.discardRecord t
    | .bad s => s.discardRecord t
  | _, _ => s)

/-- ExtCmp of a WOWrInv: the record is visible to the host (R356). -/
def execExtcmp (p id : Nat) (s : State) := commit s (fun s =>
  if (s.port p).d2h.any (fun d => d.id = id && d.op = .woWrInv) then
    let s := s.endD2h p id
    match s.tasksOf (fun t => match t.state with
      | .writing _ (some x) => x = (p, id)
      | _ => false) with
    | t :: _ => s.recordVisible t
    | [] => s
  else s)

def execHeldRecordRelease (coil cring : Nat) (s : State) := commit s (fun s => s.releaseRing coil cring)

def execModerationExpiry (coil cring : Nat) (s : State) := commit s (fun s =>
  let i := 64 * coil + cring
  let r := SMap.get {} s.cap.rings i
  if r.moderating then
    let s : State := { s with cap := { s.cap with rings := SMap.set {} s.cap.rings i {} } }
    if r.due then s.ringVector coil cring else s
  else s)

/-! ### Applying knot operations -/

/-- A task of the head becomes ready: a STRICT one whose affinity core is fenced completes with TASK_LOST instead (R637). -/
def State.makeReady (s : State) (t : Nat) : List CapWork × State :=
  let k := s.task t
  if k.ticket.aff && k.ticket.strict && s.fences.cores.contains k.ticket.core then
    let e : EndMsg := { status := 5 }
    (endWork t k e, ((s.markEnd t e).bump .CP_LOSS_LOST 0 1).event .taskLost ⟨.core, k.ticket.core⟩ (some k.coil) k.ticket.taskId)
  else ([], s.stamp t .ready)

/-- A knot fires (Table 17.4): the tasks that wait on it become ready, or skip if it is marked (R576). -/
def State.fire (s : State) (coil i : Nat) (mark : Bool) : List CapWork × State :=
  let ts := s.bySeq (s.tasksOf (fun t => t.coil = coil && t.state = .waiting && t.ticket.tie = i))
  ts.foldl (fun acc t =>
    let k := acc.2.task t
    if mark && k.ticket.skip then
      let e : EndMsg := { status := 4 }
      (acc.1 ++ endWork t k e, acc.2.markEnd t e)
    else (acc.1 ++ [.ready t], acc.2)) ([], s)

/-- A knot after an operation: saturation and underflow are logged; an armed knot at or below zero fires and is idle again. -/
def State.knotAfter (s : State) (coil i : Nat) (k : Knot) : List CapWork × State :=
  let v := knotSat k.value
  let s := if v.2 then s.event .knotSaturated ⟨.none, 0⟩ (some coil) i else s
  if k.armed && decide (v.1 ≤ 0) then
    let r := s.fire coil i k.mark
    let s := r.2.setKnot coil i {}
    (r.1, if v.1 < 0 then s.event .knotUnderflow ⟨.none, 0⟩ (some coil) i else s)
  else ([], s.setKnot coil i { k with value := v.1 })

/-- One piece of work, and what it adds. -/
def State.capStep (s : State) : CapWork → List CapWork × State
  | .dec coil i n marked =>
    if n = 0 then ([], s)
    else let k := s.knot coil i; s.knotAfter coil i { k with value := k.value - n, mark := k.mark || marked }
  | .arm coil i n => let k := s.knot coil i; s.knotAfter coil i { k with value := k.value + n, armed := true }
  | .ready t => s.makeReady t
  | .record t =>
    let k := s.task t
    match s.heldOf k.coil k.ticket.cring with
    | h :: _ => if h = t then ([], (s.writeRecord t).getD s) else ([], s)
    | [] => ([], s)

/-- Work done until none is left; every task adds at most six pieces in its life. -/
def State.capRun (s : State) (work : List CapWork) : Nat → State
  | 0 => s
  | n + 1 => match work with
    | [] => s
    | w :: rest =>
      let r := s.capStep w
      r.2.capRun (r.1 ++ rest) n

def State.capDo (s : State) (work : List CapWork) : State := s.capRun work (work.length + 6 * s.cap.tasks.length + 1)

/-- A task ends. -/
def State.endTask (s : State) (t : Nat) (e : EndMsg) : State :=
  let k := s.task t
  (s.markEnd t e).capDo (endWork t k e)

/-- Several tasks end, in order. -/
def State.endTasks (s : State) (ts : List Nat) (e : EndMsg) : State := ts.foldl (fun s t => s.endTask t e) s

/-! ### Cancellation (R579, R580) -/

/-- A task that no core has been given. -/
def TaskState.undispatched : TaskState → Bool
  | .checking => true
  | .waiting => true
  | .ready => true
  | .queued _ => true
  | _ => false

/-- Every undispatched task of a coil with a task ID is cancelled: 0 CANCELLED, 1 TOO_LATE, 2 NOT_FOUND. -/
def State.cancel (s : State) (coil id : Nat) : Nat × State :=
  let all := s.tasksOf (fun t => t.coil = coil && t.ticket.taskId = id)
  let hit := s.bySeq (all.filter (fun t => (s.task t).state.undispatched))
  if !hit.isEmpty then (0, s.endTasks hit { status := 3 })
  else if all.isEmpty then (2, s) else (1, s)

def execCancel (p coil id : Nat) (s : State) := commit s (fun s => s.coilScoped p coil (cpOff coil 0x30) (fun s =>
  let r := s.cancel coil id
  r.2.setFld .CP_CMD_STATUS_CANCEL_STATUS coil r.1))

/-! ### Host knot commands (Table 17.9) -/

/-- CP_KNOT_CMD on a knot of the coil; an index past the count is RANGE. -/
def State.knotCommand (s : State) (p coil i : Nat) (f : State → State) : State :=
  s.coilScoped p coil (cpOff coil 0x28) (fun s =>
    if s.knotCount coil ≤ i then s.setFld .CP_CMD_STATUS_KNOT_STATUS coil 1 else (f s).setFld .CP_CMD_STATUS_KNOT_STATUS coil 0)

def execKnotRead (p coil i : Nat) (s : State) := commit s (fun s => s.knotCommand p coil i (fun s =>
  let k := s.knot coil i
  s.setFld .CP_CMD_STATUS_ARMED coil (b2n k.armed) |>.setFld .CP_CMD_STATUS_MARK coil (b2n k.mark)
    |>.setFld .CP_CMD_STATUS_VALUE coil (ofSigned 32 k.value)))
def execKnotArm (p coil i n : Nat) (s : State) := commit s (fun s => s.knotCommand p coil i (fun s => s.capDo [.arm coil i (n % 2 ^ 32)]))
def execKnotDec (p coil i n : Nat) (s : State) := commit s (fun s => s.knotCommand p coil i (fun s => s.capDo [.dec coil i (n % 2 ^ 32) false]))
def execKnotMarkedDec (p coil i n : Nat) (s : State) := commit s (fun s => s.knotCommand p coil i (fun s =>
  s.capDo [.dec coil i (n % 2 ^ 32) true]))
def execKnotReset (p coil i : Nat) (s : State) := commit s (fun s => s.knotCommand p coil i (fun s => s.setKnot coil i {}))

/-! ### Rings and doorbells (R563 to R566, R570, R600) -/

/-- Doorbell page `coil` of PF BAR2 on port `p`, or the VF's page: live on the home port only, dead in Port Hold. -/
def State.doorbell (s : State) (p coil : Nat) (f : State → State) : State :=
  if s.homeOf coil ≠ some p ∨ 32 ≤ coil then s
  else if s.flag .HT_HOLD_STATUS_HOLD p then s.bump .HT_HOLD_COUNT_POSTED_DROPPED p 1
  else f s

/-- The legal forms of a doorbell write: 4 B to the low half, or 8 B with bits [63:32] zero. `form` is 0 for 4 B low, 1 for 8 B, 2 for 4 B
high. -/
def doorbellForm (form value : Nat) : Bool := (form = 0 && decide (value < 2 ^ 32)) || (form = 1 && decide (value < 2 ^ 32))

def execSubmissionDoorbell (p coil i form value : Nat) (s : State) := commit s (fun s => s.doorbell p coil (fun s =>
  let r := 64 * coil + i
  if 64 ≤ i then s
  else
    let size := 2 ^ s.fld .CP_SRING_CFG_LOG2 r
    let tail := s.fld .CP_SRING_PTR_TAIL r
    let refuse := fun (s : State) => s.bump .CP_SRING_FAULT_IGNORED r 1
    if !doorbellForm form value ∨ !s.flag .CP_SRING_CFG_ENABLE r ∨ s.flag .CP_SRING_CFG_SPAWN r ∨ s.fld .CP_COIL_ADMIN_STATE coil = 3 then refuse s
    else if size < (value + 2 ^ 32 - s.fld .CP_SRING_PTR_HEAD r) % 2 ^ 32 ∨ size < (value + 2 ^ 32 - tail) % 2 ^ 32 then
      (refuse s).setFld .CP_SRING_FAULT_REASON r 2
    else s.setFld .CP_SRING_PTR_TAIL r value))

def execCompletionHeadDoorbell (p coil i form value : Nat) (s : State) := commit s (fun s => s.doorbell p coil (fun s =>
  let r := 64 * coil + i
  if 64 ≤ i then s
  else
    let old := s.fld .CP_CRING_PTR_HEAD r
    if !doorbellForm form value ∨ !s.flag .CP_CRING_CFG_ENABLE r ∨ s.fld .CP_COIL_ADMIN_STATE coil = 3 ∨
        (s.fld .CP_CRING_PTR_WRITE r + 2 ^ 32 - old) % 2 ^ 32 < (value + 2 ^ 32 - old) % 2 ^ 32 then s.bump .CP_CRING_MOD_IGNORED r 1
    else (s.setFld .CP_CRING_PTR_HEAD r value).releaseRing coil i))

/-- Setting ENABLE of a submission ring: a base not aligned to the ring's size is refused; pointers start at zero unless the ring is
halted, which keeps them and clears the halt. -/
def execSubmissionRingEnable (p coil i : Nat) (s : State) := commit s (fun s => s.coilScoped p coil (cpOff coil (0x1000 + 0x20 * i)) (fun s =>
  let r := 64 * coil + i
  if 64 ≤ i ∨ s.flag .CP_SRING_CFG_ENABLE r then s
  else if s.fld .CP_SRING_CFG_BASE r * 128 % (128 * 2 ^ s.fld .CP_SRING_CFG_LOG2 r) ≠ 0 then s.setFld .CP_SRING_CFG_STATUS r 1
  else
    let s := if s.flag .CP_SRING_FAULT_HALTED r then s else (s.setFld .CP_SRING_PTR_TAIL r 0).setFld .CP_SRING_PTR_HEAD r 0
    s.setFld .CP_SRING_FAULT_HALTED r 0 |>.setFld .CP_SRING_FAULT_REASON r 0 |>.setFld .CP_SRING_CFG_ENABLE r 1 |>.setFld .CP_SRING_CFG_STATUS r 0))

/-- Clearing ENABLE keeps the pointers and the fault state. -/
def execSubmissionRingDisable (p coil i : Nat) (s : State) := commit s (fun s => s.coilScoped p coil (cpOff coil (0x1000 + 0x20 * i)) (fun s =>
  if 64 ≤ i then s else (s.setFld .CP_SRING_CFG_ENABLE (64 * coil + i) 0).setFld .CP_SRING_CFG_STATUS (64 * coil + i) 0))

def execCompletionRingEnable (p coil i : Nat) (s : State) := commit s (fun s => s.coilScoped p coil (cpOff coil (0x2000 + 0x20 * i)) (fun s =>
  let r := 64 * coil + i
  if 64 ≤ i ∨ s.flag .CP_CRING_CFG_ENABLE r then s
  else if s.fld .CP_CRING_CFG_BASE r * 32 % (32 * 2 ^ s.fld .CP_CRING_CFG_LOG2 r) ≠ 0 then s.setFld .CP_CRING_MOD_STATUS r 1
  else s.setFld .CP_CRING_PTR_WRITE r 0 |>.setFld .CP_CRING_PTR_HEAD r 0 |>.setFld .CP_CRING_CFG_ENABLE r 1 |>.setFld .CP_CRING_MOD_STATUS r 0))

/-- Records that waited for the ring, and later ones, are discarded. -/
def execCompletionRingDisable (p coil i : Nat) (s : State) := commit s (fun s => s.coilScoped p coil (cpOff coil (0x2000 + 0x20 * i)) (fun s =>
  if 64 ≤ i then s
  else ((s.setFld .CP_CRING_CFG_ENABLE (64 * coil + i) 0).setFld .CP_CRING_MOD_STATUS (64 * coil + i) 0).releaseRing coil i))

/-- SKFLUSH drops the cached directory and dispatch entries of the coil. -/
def execSkflush (p coil : Nat) (s : State) := commit s (fun s => s.coilScoped p coil (cpOff coil 0) (fun s =>
  { s with cap := { s.cap with skdir := s.cap.skdir.filter (fun e => e.coil ≠ coil), skent := s.cap.skent.filter (fun e => e.coil ≠ coil) } }))

/-! ### Admission (R568 to R572) -/

/-- Bits `hi` to `lo` of word `w` of a ticket. -/
def tbits (x w hi lo : Nat) : Nat := bits (x >>> (64 * w) % 2 ^ 64) hi lo

/-- The fields of a ticket. -/
def ticketOf (x : Nat) : Ticket :=
  let rel := [(tbits x 3 31 31, tbits x 3 19 0), (tbits x 3 63 63, tbits x 3 51 32), (tbits x 4 31 31, tbits x 4 19 0), (tbits x 4 63 63, tbits x 4 51 32)]
  { taskId := tbits x 0 63 0, skein := tbits x 1 7 0, template := tbits x 1 23 8, eclass := tbits x 1 26 24, idempotent := tbits x 1 27 27 = 1,
    skip := tbits x 1 28 28 = 1, cring := tbits x 1 34 29, opmax := tbits x 1 37 35, tie := tbits x 2 19 0, tieValid := tbits x 2 20 20 = 1,
    arm := tbits x 2 21 21 = 1, armCount := tbits x 2 63 32, release := (rel.filter (fun r => r.1 = 1)).map (·.2), limit := tbits x 5 31 0,
    core := tbits x 5 43 32, aff := tbits x 5 44 44 = 1, strict := tbits x 5 45 45 = 1, seed := tbits x 6 63 0,
    args := (List.range 8).map (fun i => tbits x (8 + i) 63 0) }

/-- Check 1 of Table 17.3: reserved bits zero, OPMAX not 5 or 6, CORE and STRICT zero when AFF is clear. -/
def ticketReserved (x : Nat) : Bool :=
  let k := ticketOf x
  tbits x 1 63 38 ≠ 0 || tbits x 2 31 22 ≠ 0 || tbits x 3 30 20 ≠ 0 || tbits x 3 62 52 ≠ 0 || tbits x 4 30 20 ≠ 0 || tbits x 4 62 52 ≠ 0 ||
    tbits x 5 63 46 ≠ 0 || tbits x 7 63 0 ≠ 0 || k.opmax = 5 || k.opmax = 6 || (!k.aff && (k.core ≠ 0 || k.strict))

/-- A rejected ticket (R571): FAULTED with ILLEGAL and the cause of its check; its release knots within range are decremented with the mark. -/
def State.reject (s : State) (t cause : Nat) : State :=
  let k := s.task t
  let e : EndMsg := { status := 2, fault := fcIllegal, cause := cause }
  let n := s.knotCount k.coil
  let s := s.event .ticketRejected ⟨.none, 0⟩ (some k.coil) k.ticket.taskId 0 cause
  let s := s.setTask t { k with ticket := { k.ticket with release := k.ticket.release.filter (· < n) } }
  let s := if s.flag .CP_CRING_CFG_ENABLE (64 * k.coil + k.ticket.cring) then s.endTask t e
    else
      let work := ((s.task t).ticket.release).map (fun r => CapWork.dec k.coil r 1 true)
      ((s.capDo work).bump .CP_COIL_DROPS_REJECTED k.coil 1).dropTask t
  s

/-- Checks 3 to 5, and the entry of the task on its tie knot or as ready (R575). -/
def State.accept (s : State) (t : Nat) : State :=
  let k := s.task t
  let n := s.knotCount k.coil
  let c := k.ticket.core
  if ((k.ticket.tieValid || k.ticket.arm) && decide (n ≤ k.ticket.tie)) || k.ticket.release.any (n ≤ ·) then s.reject t 0x43
  else if !s.flag .CP_CRING_CFG_ENABLE (64 * k.coil + k.ticket.cring) then s.reject t 0x44
  else if k.ticket.aff && !(decide (c < Config.cores) && s.plyCoil (plyOfCore c) = some k.coil) then s.reject t 0x45
  else
    let arm := if k.ticket.arm then [CapWork.arm k.coil k.ticket.tie k.ticket.armCount] else []
    if k.ticket.tieValid then (s.stamp t .waiting).capDo arm else s.capDo (.ready t :: arm)

/-- Check 2 against the cached entries: rejected, passed, or waiting for SKEIN_ENTRY_READ. -/
def State.checkSkein (s : State) (t : Nat) : State :=
  let k := s.task t
  if !s.flag .CP_COIL_SKDIR_VALID k.coil then s.reject t 0x41
  else match s.cap.skdir.find? (fun e => e.coil = k.coil && e.skein = k.ticket.skein) with
  | none => s
  | some d =>
    match d.entry with
    | none => s.reject t 0x41
    | some (_, count) =>
      if count ≤ k.ticket.template then s.reject t 0x42
      else match s.cap.skent.find? (fun e => e.coil = k.coil && e.skein = k.ticket.skein && e.template = k.ticket.template) with
      | none => s
      | some e =>
        match e.entry with
        | none => s.reject t 0x42
        | some pc => (s.setTask t { k with entry := pc }).accept t

/-- A skein-directory entry or, after it, a dispatch entry returns to the head (R569): from memory, or with the host's data. An entry with a
reserved bit set, or a read that fails, counts as not VALID; a failed read is not kept (DESIGN CHOICE, log entry 94). -/
def execSkeinEntryRead (t : Nat) (host : Option (List Byte)) (s : State) := commit s (fun s =>
  let k := s.task t
  if k.state ≠ .checking ∨ !s.cap.tasks.any (fun e => e.1 = t) then s
  else match s.cap.skdir.find? (fun e => e.coil = k.coil && e.skein = k.ticket.skein) with
  | none =>
    let r := s.headRead k.coil (s.fld .CP_COIL_SKDIR_BASE k.coil * 4096 + 16 * k.ticket.skein) 16 host
    match r.1 with
    | none => r.2.reject t 0x41
    | some x =>
      let ok := x / 2 ^ 64 = 1 && bits x 2 0 = 0
      let e : SkDir := { coil := k.coil, skein := k.ticket.skein, entry := if ok then some (bits x 47 3 * 8, bits x 63 48) else none }
      ({ r.2 with cap := { r.2.cap with skdir := r.2.cap.skdir ++ [e] } } : State).checkSkein t
  | some d =>
    match d.entry with
    | none => s.reject t 0x41
    | some (base, count) =>
      if count ≤ k.ticket.template then s.reject t 0x42
      else if s.cap.skent.any (fun e => e.coil = k.coil && e.skein = k.ticket.skein && e.template = k.ticket.template) then s.checkSkein t
      else
        let r := s.headRead k.coil (base + 8 * k.ticket.template) 8 host
        match r.1 with
        | none => r.2.reject t 0x42
        | some x =>
          let ok := bits x 2 0 = 1 && bits x 63 48 = 0
          let e : SkEntry := { coil := k.coil, skein := k.ticket.skein, template := k.ticket.template, entry := if ok then some (bits x 47 3 * 8) else none }
          ({ r.2 with cap := { r.2.cap with skent := r.2.cap.skent ++ [e] } } : State).checkSkein t)

/-- The in-flight limits of R572 leave room for a task of the coil. -/
def State.roomFor (s : State) (coil : Nat) : Bool :=
  decide (s.cap.tasks.length < 65536) && decide (s.coilInFlight coil < s.fld .CP_COIL_CTL_INFLIGHT_MAX coil)

/-- The head may read tickets of a coil: it is up, neither quiesced nor in reset, and below its limits (R570). -/
def State.mayAdmit (s : State) (coil : Nat) : Bool :=
  s.module.railsOn && s.coilUp coil && !s.flag .CP_COIL_CTL_QUIESCED coil && !s.flag .CP_COIL_RUN_RESETTING coil && s.roomFor coil

/-- A submission ring halts. -/
def State.haltRing (s : State) (coil i reason : Nat) : State :=
  let r := 64 * coil + i
  (s.setFld .CP_SRING_FAULT_HALTED r 1 |>.setFld .CP_SRING_FAULT_REASON r reason).event .ringFault ⟨.none, 0⟩ (some coil) (s.fld .CP_SRING_CFG_BASE r * 128) 0 reason i

/-- A ticket read by the head completes: the ticket is admitted, HEAD advances and its checks begin; a fault halts the ring. -/
def execTicketRead (coil i : Nat) (host : Option (List Byte)) (s : State) := commit s (fun s =>
  let r := 64 * coil + i
  let head := s.fld .CP_SRING_PTR_HEAD r
  if 32 ≤ coil ∨ 64 ≤ i ∨ !s.mayAdmit coil ∨ !s.flag .CP_SRING_CFG_ENABLE r ∨ s.flag .CP_SRING_FAULT_HALTED r ∨ head = s.fld .CP_SRING_PTR_TAIL r then s
  else
    let d := s.headRead coil (s.fld .CP_SRING_CFG_BASE r * 128 + 128 * (head % 2 ^ s.fld .CP_SRING_CFG_LOG2 r)) 128 host
    match d.1 with
    | none => d.2.haltRing coil i 1
    | some x =>
      let t := s.cap.nextTask
      let s := d.2.setFld .CP_SRING_PTR_HEAD r (head + 1)
      let s := ({ s with cap := { s.cap with nextTask := t + 1 } } : State).setTask t { coil := coil, ticket := ticketOf x }
      if ticketReserved x then s.reject t 0x40 else s.checkSkein t)

/-! ### Lost tasks (R594, R595, R636) -/

/-- A task whose core was lost before its end reached the head: it is ready again, or completes with TASK_LOST. The energy metered up to the
loss is a free value. -/
def State.loseTask (s : State) (t : Nat) : State :=
  let k := s.task t
  let c := k.coil
  if k.ticket.idempotent && decide (k.runs < s.fld .CP_COIL_CTL_REDISPATCH_MAX c) && !k.ticket.strict &&
      !s.flag .CP_COIL_RUN_RESETTING c && !s.flag .CP_COIL_CTL_QUIESCED c then
    ((s.setTask t { k with runs := k.runs + 1, msg := none }).bump .CP_LOSS_REDISPATCHED 0 1).capDo [.ready t]
  else
    let e := s.freshWord
    let s := (e.2.bump .CP_LOSS_LOST 0 1).event .taskLost ⟨.core, k.lastCore.getD 0⟩ (some c) k.ticket.taskId
    s.endTask t { status := 5, energy := e.1.toNat % 2 ^ 32 }

/-- Queued tasks that `f` names return to their coil's ready queue at the head, in their order (R637). -/
def State.unqueue (s : State) (f : Nat → Task → Bool) : State :=
  (s.bySeq (s.tasksOf (fun t => match t.state with
    | .queued k => f k t
    | _ => false))).foldl (fun s t =>
      let k := s.task t
      if k.ticket.strict && k.ticket.aff && s.fences.cores.contains k.ticket.core then s.capDo [.ready t]
      else s.setTask t { k with state := .ready }) s

end Sys2Proof.Machine
end

