-- ==== Sys2Proof/Machine/Tackle.lean ====
section
/-!
DEFINITION. Tackle (chapter 15): the channels of the ply and port engines, their descriptors beat by beat, pause, errors and stops. Channel
`j` of ply `y` is number 32 y + j; channel `j` of port `p` is number 12288 + 64 p + j.
-/
namespace Sys2Proof.Machine

/-! ### Channels, engines, owners (R502, R503) -/

def State.chan (s : State) (i : Nat) : Channel := SMap.get {} s.channels i
def State.setChan (s : State) (i : Nat) (v : Channel) : State := { s with channels := SMap.set {} s.channels i v }

/-- The ply of a ply channel, the port of a port channel. -/
def chPly (i : Nat) : Option Nat := if i < 12288 then some (i / 32) else none
def chPort (i : Nat) : Nat := (i - 12288) / 64
def isChannel (i : Nat) : Bool := decide (i < 12800)

/-- The engine of a channel: a ply, or 384 + port. -/
def engineOf (i : Nat) : Nat := if i < 12288 then i / 32 else 384 + chPort i
def State.engine (s : State) (e : Nat) : Engine := SMap.get {} s.engines e
def State.setEngine (s : State) (e : Nat) (v : Engine) : State := { s with engines := SMap.set {} s.engines e v }

/-- The working coil of a channel. -/
def State.chCoil (s : State) (i : Nat) : Option Nat :=
  match chPly i with
  | some y => s.plyCoil y
  | none =>
    let o := i - 12288
    if !s.flag .HT_TK_OWNER_VALID o then none
    else if s.fld .HT_TK_OWNER_FUNC o = 0 then some (s.fld .HT_TK_OWNER_COIL o)
    else
      let b := 32 * chPort i + (s.fld .HT_TK_OWNER_FUNC o - 1)
      if s.flag .HT_VF_BIND_VALID b then some (s.fld .HT_VF_BIND_COIL b) else none

/-- A write to a channel register: of a ply channel by the scope of the ply's coil, of a port channel through its port's PF; those of an unowned
ply are discarded (R530, R532). -/
def State.chScoped (s : State) (p i : Nat) (f : State → State) : State :=
  match chPly i with
  | some y =>
    match s.plyCoil y with
    | none => s
    | some c => s.coilScoped p c (0x10400000 + bayOfPly y * 0x1000000 + y % 4 * 0x10000 + 0x1000 + i % 32 * 0x400) f
  | none => if isChannel i && p = chPort i then f s else s

def State.chState (s : State) (i : Nat) : Nat := s.fld .TK_CH_STATUS_STATE i
def stDisabled : Nat := 0
def stIdle : Nat := 1
def stActive : Nat := 2
def stPausing : Nat := 3
def stPaused : Nat := 4
def stHalted : Nat := 5
def stStopping : Nat := 6
def State.setChState (s : State) (i v : Nat) : State := s.setFld .TK_CH_STATUS_STATE i v

/-- A class R channel joins its engine's R queue, or leaves it (R519). -/
def State.joinR (s : State) (i : Nat) : State :=
  let e := s.engine (engineOf i)
  if s.fld .TK_CH_CTL_CLASS i = 1 && !e.queue.contains i then s.setEngine (engineOf i) { e with queue := e.queue ++ [i] } else s
def State.leaveR (s : State) (i : Nat) : State :=
  let e := s.engine (engineOf i)
  s.setEngine (engineOf i) { e with queue := e.queue.filter (· ≠ i) }

/-- IDLE or ACTIVE by DONE and TAIL, and PAUSING or PAUSED from there while PAUSE is set (Table 15.2). -/
def State.refreshCh (s : State) (i : Nat) : State :=
  let busy := s.fld .TK_CH_DONE_DONE i ≠ s.fld .TK_CH_TAIL_TAIL i
  let st := s.chState i
  if st = stIdle ∨ st = stActive then
    if s.flag .TK_CH_CTL_PAUSE i then s.setChState i (if busy && (s.chan i).cur.isSome then stPausing else stPaused)
    else if busy then (s.setChState i stActive).joinR i else s.setChState i stIdle
  else s

/-! ### Addresses (Table 15.5) -/

/-- What a side's address reaches: a WPA with its leaf, a tile store, or an error. -/
inductive Reach where
  | mem (wpa : Nat) (leaf : Option Leaf)
  | tile (core ta : Nat)
  | bad (reason cause : Nat)

/-- A bay has a walker that works. -/
def State.canWalk (s : State) (k : Nat) : Bool :=
  decide ((s.bay k).dead.length < 8) && !s.fencedUnit ⟨.bay, k⟩ && !(SMap.get {} s.pawls k).resetting

/-- The bay whose cache the translations go through: the ply's own; for a port, its attachment bay, or, while that one cannot walk, the
other bay of Table 1.2, or the nearest bay that can (R274). -/
def State.tackleBay (s : State) (i : Nat) : Nat :=
  match chPly i with
  | some y => bayOfPly y
  | none =>
    let a := s.fld .HT_ID_BAY (chPort i)
    let x := (hostBays[chPort i]?).getD (0, 0)
    let b := if a = x.1 then x.2 else x.1
    let d := fun (k : Nat) => (max (k / 12) (a / 12) - min (k / 12) (a / 12)) + (max (k % 12) (a % 12) - min (k % 12) (a % 12))
    if s.canWalk a then a
    else if s.canWalk b then b
    else ((List.range 96).filter s.canWalk).foldl (fun best k => if !s.canWalk best || decide (d k < d best) then k else best) a

/-- The channel translation buffer and its size (Table 8.5). -/
def State.chBuffer (s : State) (i : Nat) : List Leaf :=
  match chPly i with
  | some y => (s.ply y).ctb
  | none => (s.port (chPort i)).ctb
def State.keepCh (s : State) (i : Nat) (l : Leaf) : State :=
  match chPly i with
  | some y => s.setPly y { s.ply y with ctb := addLeaf 32 (s.ply y).ctb l }
  | none => s.setPort (chPort i) { s.port (chPort i) with ctb := addLeaf 64 (s.port (chPort i)).ctb l }

/-- A DVA translated for a channel: the buffer, the bay cache, else a walk, whose leaf both keep. A fault is recorded with SOURCE 1 or 2 (DEDUCED, log entry 42). -/
def State.xlatCh (s : State) (i coil dva : Nat) (k : AccKind) : Reach × State :=
  let fault := fun (s : State) (c : Cause) (level : Nat) =>
    (Reach.bad c.kind c.code,
     s.recordFault coil dva c k (if i < 12288 then 1 else 2) (if i < 12288 then i / 32 else chPort i) level)
  match s.preFault coil dva with
  | some c => fault s c 6
  | none =>
    let k' := s.tackleBay i
    let use := fun (s : State) (l : Leaf) =>
      match l.denies k with
      | some c => fault s c 0
      | none =>
        if l.region = .dev then fault s .access 0
        else match s.leafWpa l dva with
        | .inr c => fault s c 0
        | .inl w => match s.spliceDenies coil w k with
          | some c => fault s c 0
          | none => (.mem w (some l), s.keepCh i l)
    match (s.chBuffer i).find? (fun l => l.serves coil dva) with
    | some l => use s l
    | none => match (s.bay k').cache.find? (fun l => l.serves coil dva) with
      | some l => use (s.bump .DTW_HITS_COUNT k' 1) l
      | none =>
        let s := (s.bump .DTW_MISSES_COUNT k' 1).bump .DTW_WALKS_COUNT k' 1
        match s.walk coil dva with
        | .inr (c, level) => fault (s.bump .DTW_FAULTS_COUNT k' 1) c level
        | .inl l => use (s.setBay k' { s.bay k' with cache := addLeaf 2048 (s.bay k').cache l }) l

/-- A byte's address in its space. -/
def State.reach (s : State) (i coil space a : Nat) (k : AccKind) : Reach × State :=
  match space with
  | 0 => s.xlatCh i coil a k
  | 1 =>
    let c := a / 0x200000
    if Config.cores ≤ c then (.bad 1 Cause.range.code, s)
    else if s.plyCoil (plyOfCore c) ≠ some coil then (.bad 2 Cause.access.code, s)
    else if s.fences.cores.contains c then (.bad 3 0, s)
    else (.tile c (a % 0x200000), s)
  | _ => if 2 ^ 33 ≤ a ∨ 384 ≤ a / 2 ^ 24 then (.bad 1 Cause.range.code, s) else (.mem (scratchBase + a) none, s)

/-! ### One access of a channel, inside one line -/

/-- What an access finds: its value, a wait for a line or a rail, a request to a host or a Bend port, or an error. -/
inductive TkRes where
  | done (v : Nat) (poison : Bool) (s : State)
  | wait (s : State)
  | sent (s : State)
  | fail (reason cause : Nat) (s : State)

/-- The errors of a target's answer (Table 15.6). -/
def tkFail (st : Nat) (s : State) : TkRes := if st = spPerm then .fail 2 Cause.access.code s else .fail 3 0 s

/-- The line is asked for in the ply cache. -/
def State.tkAsk (s : State) (y line coil : Nat) (leaf : Option Leaf) (req : BayReq) (hint : Bool) : State :=
  let str := leaf.any (fun l => l.region = .str)
  let fresh := !(s.bus (bayOfPly y)).reqs.any (fun z => z.ply = y && z.line = line)
  match s.present { ply := y, line := line, req := req, coil := some coil, shared := leafShared leaf, streaming := hint } with
  | none => s
  | some s => if fresh then (s.bump .PC_MISSES_COUNT y 1).prefetchNext y line str (some coil) (leafShared leaf) else s

/-- The coil whose function carries a channel's host requests; `none` for the PF. -/
def State.tkRequester (s : State) (i coil : Nat) : Option Nat :=
  if (chPly i).isNone && s.fld .HT_TK_OWNER_FUNC (i - 12288) = 0 then none else some coil

/-- A request to a Bend port for a channel. -/
def State.tkBend (s : State) (b : Nat) (r : BendReq) : TkRes := if s.bendUp b then .sent (s.toBend b r) else .fail 3 0 s

/-- A read of `n` bytes at a WPA. `cached` is set for accesses that allocate in the ply cache: rings, tail words, status, and data with HINT. -/
def State.tkRead (s : State) (i coil id wpa n : Nat) (leaf : Option Leaf) (cached hint : Bool) : TkRes :=
  let line := wpa / 64
  let o := wpa % 64
  let str := leaf.any (fun l => l.region = .str)
  match placeOf wpa with
  | .scratch y off =>
    if s.carveHolds wpa then .wait s
    else
      let st := s.targetCheck (some coil) none line
      if st = spOk then .done (s.load wpa n) ((s.ply y).scratchPoison.contains (off / 64)) s else tkFail st s
  | place =>
    let mine : Option (Nat × CLine × State) := match chPly i with
      | some y => (s.touch y line).map (fun (x : CLine × State) => (y, x.1, x.2))
      | none => none
    match mine with
    | some (_, cl, s) => .done (lineField cl.data o n) cl.poison s
    | none =>
      match cached, chPly i with
      | true, some y =>
        if (s.ply y).poisonedMiss.contains line then
          .done 0 true (s.setPly y { s.ply y with poisonedMiss := (s.ply y).poisonedMiss.filter (· ≠ line) })
        else if s.refused y line ≠ 0 then tkFail (s.refused y line) (s.forgive y line)
        else
          let st := s.targetCheck (some coil) (leafShared leaf) line
          if st = spOk then .wait (s.tkAsk y line coil leaf (if str then .bnc else .brd) hint) else tkFail st s
      | _, _ =>
        match place with
        | .spool v _ =>
          if s.ncWaits line (some coil) (leafShared leaf) then .wait s
          else if str then
            let st := s.vaultCheck v (some coil) (leafShared leaf)
            if st = spOk then let r := s.readLine line v; .done (lineField r.1 o n) r.2.1 r.2.2
            else tkFail st (if st = spPerm then s.permEvent v (some coil) wpa else s)
          else
            let r := s.ncRead line (some coil) (leafShared leaf)
            if r.1 = spOk then .done (lineField r.2.1 o n) r.2.2.1 r.2.2.2 else tkFail r.1 r.2.2.2
        | .host p a =>
          if s.hostUp p then .sent (s.ioRead p (.tackle i id) (s.tkRequester i coil) a n) else .fail 3 0 s
        | .splice b w off => s.tkBend b { src := .tackle i id, window := w, addr := off, size := n, coil := coil }
        | _ => .fail 2 Cause.access.code s

/-- A copy in a ply cache takes bytes from the ply's Tackle. -/
def State.tkMerge (s : State) (y line : Nat) (cl : CLine) (data : LineData) (mask : BitVec 64) (poison : Bool) : State :=
  let cl' := { cl with st := .m, data := mergeMask cl.data data mask, mask := if cl.str then cl.mask ||| mask else cl.mask, age := 0,
                       streaming := false, poison := poison || (cl.poison && mask != BitVec.allOnes 64) }
  (((s.setCopy y line cl').dropL1d y line).dropRsv y line).hitMonitors line none

/-- A write of `n` bytes at a WPA. -/
def State.tkWrite (s : State) (i coil id wpa n v : Nat) (poison : Bool) (leaf : Option Leaf) (cached hint : Bool) : TkRes :=
  let line := wpa / 64
  let data := setLineField 0 (wpa % 64) n v
  let mask := fieldMask (wpa % 64) n
  let str := leaf.any (fun l => l.region = .str)
  match placeOf wpa with
  | .scratch y off =>
    if s.carveHolds wpa then .wait s
    else
      let st := s.targetCheck (some coil) none line
      if st = spOk then
        let s := s.scratchWrite line data mask none
        .done 0 false (if poison then s.setPly y { s.ply y with scratchPoison := insertNat (off / 64) (s.ply y).scratchPoison } else s)
      else tkFail st s
  | place =>
    let away := match place with
      | .spool v _ =>
        if s.ncWaits line (some coil) (leafShared leaf) then .wait s
        else if str then
          let r := s.writeTarget (some coil) (leafShared leaf) line data mask poison
          if r.1 = spOk then .done 0 false r.2 else tkFail (s.vaultCheck v (some coil) (leafShared leaf)) r.2
        else
          let r := s.ncWrite line (some coil) (leafShared leaf) data mask poison
          if r.1 = spOk then .done 0 false r.2 else tkFail r.1 r.2
      | .host p a =>
        if s.hostUp p then
          let s := (s.recallLine p line).postLine p line data mask poison
          .done 0 false (s.setChan i { s.chan i with flush := SMap.put (SMap.erase (s.chan i).flush p) p (a / 64 * 64) })
        else .fail 3 0 s
      | .splice b w off => s.tkBend b { src := .tackle i id, op := .write, window := w, addr := off / 64 * 64, data := data.toNat,
                                        mask := mask.toNat, coil := coil }
      | _ => .fail 2 Cause.access.code s
    match chPly i with
    | none => away
    | some y =>
      let ask := fun (r : BayReq) =>
        if (s.ply y).poisonedMiss.contains line then
          TkRes.fail 4 0 (s.setPly y { s.ply y with poisonedMiss := (s.ply y).poisonedMiss.filter (· ≠ line) })
        else if s.refused y line ≠ 0 then tkFail (s.refused y line) (s.forgive y line)
        else
          let st := s.targetCheck (some coil) (leafShared leaf) line
          if st = spOk then .wait (s.tkAsk y line coil leaf r hint) else tkFail st s
      match (s.ply y).copy line with
      | some cl =>
        if cl.str || decide (cl.st = .e) || decide (cl.st = .m) then .done 0 false (s.tkMerge y line cl data mask poison)
        else if cached then ask (.bown false) else away
      | none =>
        if !cached then away
        else if str && mask = BitVec.allOnes 64 then
          match s.fillPly y line { st := .m, data := data, mask := mask, str := true, age := 3, streaming := true, poison := poison } with
          | some s => .done 0 false (s.hitMonitors line none)
          | none => .wait s
        else ask (if str then .bnc else .brdx)

/-- A read or write of a core's tile store; a core in DARK first needs its tile-store rail (R510, R539). -/
def State.tileRead (s : State) (c ta n : Nat) : TkRes :=
  if s.fld .CR_STATUS_PSTATE c = 4 then .wait s
  else .done ((s.core c).tileNat ta n) ((s.core c).tileBad ta n) s
def State.tilePut (s : State) (c ta n v : Nat) (poison : Bool) : TkRes :=
  if s.fld .CR_STATUS_PSTATE c = 4 then .wait s
  else
    let x := (s.core c).tileWrite ta (leBytes n v)
    .done 0 false (s.setCore c (if poison then { x with tilePoison := unionNat (span (ta / 8) (n / 8)) x.tilePoison } else x))

/-! ### End-of-count and halts (R518, R525) -/

/-- The task on a core belongs to a REPEATABLE coil (R433). -/
def State.repeatable (s : State) (c : Nat) : Bool :=
  match (s.core c).coil with
  | some k => s.flag .CP_COIL_ADMIN_REPEATABLE k
  | none => false

/-- A wait of a core ends with a value for its destination, and the instruction retires (R493); EVWAIT writes zero in a REPEATABLE coil
(R496). -/
def State.endWait (s : State) (c v : Nat) : State :=
  match (s.core c).wait with
  | .kwait _ d => (s.setCore c { s.core c with wait := .none }).update c (fun x => x.setG d (BitVec.ofNat 64 v))
  | .evwait _ _ d => (s.setCore c { s.core c with wait := .none, mon := none }).update c (fun x =>
      x.setG d (BitVec.ofNat 64 (if s.repeatable c then 0 else v)))
  | _ => s

/-- The end-of-count signal: EOC, the owner's vector, and the EVWAITs of the ply's cores that enable TACKLE. -/
def State.signalEoc (s : State) (i : Nat) : State :=
  let s := s.setFld .TK_CH_STATUS_EOC i 1
  let s := if !s.flag .TK_CH_CTL_IRQ_EN i then s
    else match chPly i with
    | some _ => match (s.chCoil i).bind s.coilFn with
      | some (p, fn) => s.raiseMsix p fn (s.fld .TK_CH_CTL_IRQ_VEC i)
      | none => s
    | none => s.raiseMsix (chPort i) (s.fld .HT_TK_OWNER_FUNC (i - 12288)) (s.fld .TK_CH_CTL_IRQ_VEC i)
  match chPly i with
  | none => s
  | some y => (coresOf y).foldl (fun s c =>
      match (s.core c).wait with
      | .evwait _ true _ => if (s.core c).coil = s.chCoil i then s.endWait c 2 else s
      | _ => s) s

/-- A flush read for each host port with posted writes of the channel that none covers. -/
def State.tkFlush (s : State) (i : Nat) : State :=
  (s.chan i).flush.foldl (fun s e =>
    let pt := s.port e.1
    let fn := s.fnOf e.1 (match s.chCoil i with
      | some c => s.tkRequester i c
      | none => none)
    let t : IoTag := { tag := pt.nextTag, fn := fn, src := .hitch e.1, addr := e.2, len := 0 }
    let s := (s.setPort e.1 { pt with tags := pt.tags ++ [t], nextTag := pt.nextTag + 1 }).send (.ioRead e.1 pt.nextTag e.2 0)
    s.setChan i { s.chan i with flush := SMap.erase (s.chan i).flush e.1, flushing := (s.chan i).flushing ++ [(e.1, pt.nextTag)] }) s

/-- Every write of the channel is performed at S. -/
def Channel.quiet (x : Channel) : Bool := x.beats.isEmpty && x.flush.isEmpty && x.flushing.isEmpty

/-- End-of-count, once it is due and every write is performed. -/
def State.tryEoc (s : State) (i : Nat) : State :=
  let x := s.chan i
  if !x.eocDue ∨ s.fld .TK_CH_DONE_DONE i ≠ s.fld .TK_CH_TAIL_TAIL i then s
  else if !x.beats.isEmpty then s
  else if !x.flush.isEmpty then s.tkFlush i
  else if !x.flushing.isEmpty then s
  else (s.setChan i { x with eocDue := false }).signalEoc i

/-- A flush read ends; channels whose end-of-count waited for it go on (DEDUCED, log entry 43). -/
def State.flushEnd (s : State) (p tag : Nat) (ok : Bool) : State :=
  let s := s.flushDone p tag ok
  (s.channels.filter (fun e => e.2.eocDue)).foldl (fun s e => s.tryEoc e.1) s

def execFlushReadDone (p tag : Nat) (ok : Bool) (s : State) := commit s (fun s =>
  if (s.port p).tags.any (fun t => t.tag = tag && t.len = 0) then s.flushEnd p tag ok else s)

/-- A ring-level error halts the channel. -/
def State.haltCh (s : State) (i reason addr : Nat) : State :=
  let s := s.setChan i { s.chan i with cur := none, row := 0, off := 0, beats := [], bad := none, status := false, eocDue := false }
  let s := (s.leaveR i).setChState i stHalted |>.setFld .TK_CH_STATUS_HALT_REASON i reason |>.setFld .TK_CH_FAULT_ADDR i addr
  s.signalEoc i

/-! ### Tail (R506, R507) -/

/-- More descriptors than the ring holds. -/
def State.tailBeyond (s : State) (i tail : Nat) : Bool :=
  decide (2 ^ s.fld .TK_CH_RING_LOG2 i < (tail + 2 ^ 32 - s.fld .TK_CH_DONE_DONE i) % 2 ^ 32)

def execTailWrite (p ch tail : Nat) (s : State) := commit s (fun s => s.chScoped p ch (fun s =>
  if !s.flag .TK_CH_CTL_ENABLE ch ∨ s.chCoil ch = none then s.setFld .TK_CH_TAIL_STATUS ch 1
  else if s.flag .TK_CH_CTL_WATCH ch then s.setFld .TK_CH_TAIL_STATUS ch 3
  else if s.tailBeyond ch (tail % 2 ^ 32) then s.setFld .TK_CH_TAIL_STATUS ch 2
  else ((s.setFld .TK_CH_TAIL_TAIL ch tail).setFld .TK_CH_TAIL_STATUS ch 0).refreshCh ch))

/-- The tail word lies in COH Spool memory or in the ply's own scratch. -/
def State.watchable (s : State) (y wpa : Nat) (leaf : Option Leaf) : Bool :=
  leaf.any (fun l => l.region = .coh) && (match placeOf wpa with
    | .spool _ _ => true
    | .scratch z _ => z = y
    | _ => false) && s.module.railsOn

def execTailWordChange (ch : Nat) (s : State) := commit s (fun s =>
  match chPly ch, s.chCoil ch with
  | some y, some coil =>
    let st := s.chState ch
    if !s.flag .TK_CH_CTL_WATCH ch ∨ st = stDisabled ∨ st = stHalted ∨ st = stStopping then s
    else
      let a := s.fld .TK_CH_WATCH_ADDR ch * 8
      let r := s.xlatCh ch coil a .read
      match r.1 with
      | .mem w leaf =>
        if !r.2.watchable y w leaf then r.2.haltCh ch 3 a
        else match r.2.tkRead ch coil 0 w 8 leaf true false with
        | .done v poison s =>
          if poison then s.haltCh ch 3 a
          else if s.tailBeyond ch (v % 2 ^ 32) then s.haltCh ch 4 a
          else (s.setFld .TK_CH_TAIL_TAIL ch v).refreshCh ch
        | .wait s => s
        | .sent s => s
        | .fail _ _ s => s.haltCh ch 3 a
      | _ => r.2.haltCh ch 3 a
  | _, _ => s)

/-! ### Descriptors (R509 to R513) -/

def TackleDesc.op (d : TackleDesc) : Nat := bits d.ctl 1 0
def TackleDesc.srcSpace (d : TackleDesc) : Nat := bits d.ctl 3 2
def TackleDesc.dstSpace (d : TackleDesc) : Nat := bits d.ctl 5 4
def TackleDesc.srcWrap (d : TackleDesc) : Nat := bits d.ctl 11 6
def TackleDesc.dstWrap (d : TackleDesc) : Nat := bits d.ctl 17 12
def TackleDesc.barrier (d : TackleDesc) : Bool := bit d.ctl 18
def TackleDesc.hint (d : TackleDesc) : Bool := bit d.ctl 19

/-- The fields of the 512 bits of a descriptor. -/
def descOf (idx x : Nat) : TackleDesc :=
  let w := fun (i : Nat) => x >>> (64 * i) % 2 ^ 64
  { idx := idx, src := w 0, dst := w 1, length := w 2 % 2 ^ 32, rows := w 2 / 2 ^ 32, srcStride := w 3 % 2 ^ 32, dstStride := w 3 / 2 ^ 32, ctl := w 4 }

/-- A reserved WRAP of a side. -/
def wrapReserved (wrap space : Nat) : Bool :=
  (decide (1 ≤ wrap) && decide (wrap ≤ 5)) || decide (41 ≤ wrap) || (space = 1 && decide (21 < wrap)) || (space = 2 && decide (24 < wrap))

/-- The reason that a descriptor fails R513 with. -/
def TackleDesc.check (d : TackleDesc) (portEngine : Bool) : Option Nat :=
  if 2 ≤ d.op ∨ d.srcSpace = 3 ∨ d.dstSpace = 3 ∨ (d.op = 1 ∧ (d.srcSpace ≠ 0 ∨ d.srcWrap ≠ 0)) ∨ wrapReserved d.srcWrap d.srcSpace ∨
      wrapReserved d.dstWrap d.dstSpace ∨ (portEngine && d.hint) ∨ bits d.ctl 63 20 ≠ 0 then some 6
  else if (d.srcSpace = 1 ∧ (d.src % 8 ≠ 0 ∨ d.length % 8 ≠ 0 ∨ d.srcStride % 8 ≠ 0)) ∨
      (d.dstSpace = 1 ∧ (d.dst % 8 ≠ 0 ∨ d.length % 8 ≠ 0 ∨ d.dstStride % 8 ≠ 0)) then some 7
  else none

/-- R511. -/
def tkAddr (base wrap stride row x : Nat) : Nat :=
  let a := ((Int.ofNat (base + x) + Int.ofNat row * toSigned 32 stride) % (2 ^ 64 : Int)).toNat
  if wrap = 0 then a else base / 2 ^ wrap * 2 ^ wrap + a % 2 ^ wrap
def TackleDesc.srcAt (d : TackleDesc) (row x : Nat) : Nat := tkAddr d.src d.srcWrap d.srcStride row x
def TackleDesc.dstAt (d : TackleDesc) (row x : Nat) : Nat := tkAddr d.dst d.dstWrap d.dstStride row x

/-- Row `row` of a side has the address `a`. -/
def tkInRow (base wrap stride len row a : Nat) : Bool :=
  let m := if wrap = 0 then 64 else wrap
  (wrap = 0 || decide (a / 2 ^ wrap = base / 2 ^ wrap)) &&
    decide ((Int.ofNat a - (Int.ofNat base + Int.ofNat row * toSigned 32 stride)) % (2 ^ m : Int) < Int.ofNat len)

/-- A source byte of a COPY is one of its destination bytes too: what R511 then calls not defined is a free value. Rows without a wrap are compared as
wholes, others byte by byte (DEDUCED, log entry 29). -/
def TackleDesc.overlaps (d : TackleDesc) : Bool :=
  decide (d.op = 0) && decide (d.srcSpace = d.dstSpace) && (List.range d.rows).any (fun r => (List.range d.rows).any (fun q =>
    if d.srcWrap = 0 ∧ d.dstWrap = 0 then
      let far := (Int.ofNat (d.dstAt q 0) - Int.ofNat (d.srcAt r 0)) % (2 ^ 64 : Int)
      decide (far < Int.ofNat d.length) || decide (-far % (2 ^ 64 : Int) < Int.ofNat d.length)
    else (List.range d.length).any (fun x => tkInRow d.dst d.dstWrap d.dstStride d.length q (d.srcAt r x))))

/-- Slot address of a descriptor index. -/
def State.slotDva (s : State) (i idx : Nat) : Nat :=
  s.fld .TK_CH_RING_BASE i * 64 + 64 * (idx % 2 ^ s.fld .TK_CH_RING_LOG2 i)

/-- The read of the next descriptor returns; a ring slot in a host window read by a port Tackle returns the host's data. -/
def execDescriptorFetched (ch : Nat) (host : Option (List Byte)) (s : State) := commit s (fun s =>
  match s.chCoil ch with
  | none => s
  | some coil =>
    let x := s.chan ch
    if s.chState ch ≠ stActive ∨ x.cur.isSome then s
    else
      let idx := s.fld .TK_CH_DONE_DONE ch
      let a := s.slotDva ch idx
      let take := fun (s : State) (v : Nat) =>
        let d := descOf idx v
        s.setChan ch { s.chan ch with cur := some d, row := 0, off := 0, bad := (d.check (chPly ch).isNone).map (fun r => { reason := r, stop := true }) }
      let r := s.xlatCh ch coil a .read
      match r.1 with
      | .mem w leaf =>
        if !leaf.any (fun l => l.region = .coh) then r.2.haltCh ch 1 a
        else
          match placeOf w, chPly ch with
          | .host p _, none =>
            match (if r.2.hostUp p then host else none) with
            | some b => take r.2 (leNat (b.take 64))
            | none => r.2.haltCh ch 1 a
          | _, _ =>
            match r.2.tkRead ch coil 0 w 64 leaf true false with
            | .done v poison s => if poison then s.haltCh ch 1 a else take s v
            | .wait s => s
            | .sent s => s
            | .fail _ _ s => s.haltCh ch 1 a
      | _ => r.2.haltCh ch 1 a)

/-! ### Beats (R515, R520, R521, Table 15.7) -/

/-- The logical position of byte `off` of a row. -/
def TackleDesc.pos (d : TackleDesc) (row off : Nat) : Nat := row * d.length + off

/-- The error of the first failing byte is kept; `stop` once any error ends the beats. -/
def mergeBad (old : Option DescBad) (b : DescBad) : DescBad :=
  match old with
  | none => b
  | some o => if b.pos < o.pos then { b with stop := b.stop || o.stop } else { o with stop := b.stop || o.stop }

/-- An error of a beat: no further beat is issued, staged data is discarded, reads in flight land. -/
def State.beatError (s : State) (i : Nat) (b : DescBad) : State :=
  let x := s.chan i
  let bad := mergeBad x.bad b
  s.setChan i { x with bad := some bad, beats := if bad.stop then x.beats.filter (fun t => t.stage = .issued || (t.stage = .reading && t.sent)) else x.beats }

/-- A beat of the channel replaced. -/
def State.setBeat (s : State) (i : Nat) (b : Beat) : State :=
  s.setChan i { s.chan i with beats := (s.chan i).beats.map (fun t => if t.id = b.id then b else t) }

/-- The source pieces of `n` bytes from byte `off` of a row: at most two, split where the source passes a 64 B boundary. -/
def TackleDesc.pieces (d : TackleDesc) (row off n : Nat) : List (Nat × Nat) :=
  let a := d.srcAt row off
  let k := min n (64 - a % 64)
  if k = n then [(a, n)] else [(a, k), (d.srcAt row (off + k), n - k)]

/-- A beat takes `n` bytes of a source piece. -/
def State.landPiece (s : State) (i : Nat) (b : Beat) (v n addr : Nat) (poison : Bool) : State :=
  let b := { b with todo := b.todo.tail, got := b.got + n, data := b.data + v % 2 ^ (8 * n) * 2 ^ (8 * b.got), poison := b.poison || poison, sent := false,
                    stage := if b.todo.tail.isEmpty then .staged else .reading }
  let s := s.setBeat i b
  if poison then s.beatError i { reason := 4, addr := addr, pos := b.desc.pos b.row (b.off + b.got - n) } else s

/-- The pieces of a beat are read, until one has to wait. -/
def State.readPieces (s : State) (i coil id : Nat) : Nat → State
  | 0 => s
  | fuel + 1 =>
    match (s.chan i).beats.find? (fun b => b.id = id) with
    | none => s
    | some b =>
      match b.todo with
      | [] => s
      | (a, n) :: _ =>
        let fail := fun (s : State) (reason cause : Nat) =>
          let s := s.setChan i { s.chan i with beats := (s.chan i).beats.filter (fun t => t.id ≠ id) }
          s.beatError i { reason := reason, cause := cause, addr := a, pos := b.desc.pos b.row (b.off + b.got), stop := true }
        let r := s.reach i coil b.desc.srcSpace a .read
        let res := match r.1 with
          | .mem w leaf => r.2.tkRead i coil id w n leaf b.desc.hint b.desc.hint
          | .tile c ta => r.2.tileRead c ta n
          | .bad reason cause => .fail reason cause r.2
        match res with
        | .done v poison s => (s.landPiece i b v n a poison).readPieces i coil id fuel
        | .wait s => s
        | .sent s => s.setBeat i { b with sent := true }
        | .fail reason cause s => fail s reason cause

/-- Bytes staged and in flight. -/
def Channel.staged (x : Channel) : Nat := (x.beats.filter (fun b => b.stage = .staged)).foldl (fun n b => n + b.len) 0
def Channel.inFlight (x : Channel) : Nat := (x.beats.filter (fun b => b.stage = .reading)).foldl (fun n b => n + b.len) 0

/-- The channel may issue a beat: class P, or the head of the R queue. -/
def State.mayBeat (s : State) (i : Nat) : Bool := s.fld .TK_CH_CTL_CLASS i = 0 || (s.engine (engineOf i)).queue.head? = some i

/-- The descriptor still has bytes to read. -/
def Channel.unread (x : Channel) : Bool :=
  match x.cur with
  | none => false
  | some d => decide (0 < d.length) && decide (x.row < d.rows) && !(x.bad.any (·.stop))

/-- A channel takes its engine's slot; a slot taken from one that was ready is counted. -/
def State.takeSlot (s : State) (i : Nat) : State :=
  let e := engineOf i
  let g := s.engine e
  let s := s.setEngine e { g with last := some i }
  match g.last with
  | some j => if j ≠ i ∧ e < 384 ∧ s.chState j = stActive ∧ (s.chan j).unread ∧ s.mayBeat j then s.bump .TK_ENG_PREEMPTS_COUNT e 1 else s
  | none => s

/-- The next beat of the descriptor: the row's bytes that fall in one 64 B destination block. A FILL beat needs no read. -/
def State.newBeat (s : State) (i coil : Nat) (d : TackleDesc) : State :=
  let x := s.chan i
  let n := min (d.length - x.off) (64 - d.dstAt x.row x.off % 64)
  if 4096 < x.staged + x.inFlight + n then s
  else
    let fill := leNat ((List.range n).map (fun k => BitVec.ofNat 8 (d.src >>> (8 * ((x.off + k) % 8)))))
    let b : Beat := { id := x.nextBeat, row := x.row, off := x.off, len := n, desc := d }
    let b := if d.op = 1 then { b with stage := .staged, data := fill, got := n } else { b with todo := d.pieces x.row x.off n }
    let next := if x.off + n < d.length then (x.row, x.off + n) else (x.row + 1, 0)
    let s := s.setChan i { x with beats := x.beats ++ [b], nextBeat := x.nextBeat + 1, row := next.1, off := next.2 }
    (s.takeSlot i).readPieces i coil b.id 3

/-- The next read of the channel: one that waits goes on, else the next beat is read. A read of a host or splice window lands when its
answer comes. -/
def execBeatReadData (ch : Nat) (s : State) := commit s (fun s =>
  match s.chCoil ch, (s.chan ch).cur with
  | some coil, some d =>
    let st := s.chState ch
    let x := s.chan ch
    if (st ≠ stActive ∧ st ≠ stPausing) ∨ !s.mayBeat ch then s
    else match x.beats.find? (fun b => b.stage = .reading && !b.sent) with
    | some b => s.readPieces ch coil b.id 3
    | none => if st = stActive && x.unread then s.newBeat ch coil d else s
  | _, _ => s)

/-- A beat has been written. -/
def State.beatDone (s : State) (i : Nat) (b : Beat) : State :=
  let s := s.setChan i { s.chan i with beats := (s.chan i).beats.filter (fun t => t.id ≠ b.id) }
  let s := s.bump .TK_CH_BYTES_COUNT i b.len
  (if engineOf i < 384 then s.bump .TK_ENG_BEATS_COUNT (engineOf i) 1 else s).tryEoc i

/-- A beat's write fails. -/
def State.beatLost (s : State) (i : Nat) (b : Beat) (reason cause : Nat) : State :=
  let s := s.setChan i { s.chan i with beats := (s.chan i).beats.filter (fun t => t.id ≠ b.id) }
  match (s.chan i).cur with
  | some d =>
    if d.idx = b.desc.idx then
      s.beatError i { reason := reason, cause := cause, addr := b.desc.dstAt b.row b.off, pos := b.desc.pos b.row b.off, stop := true }
    else s.tryEoc i
  | none => s.tryEoc i

/-- An earlier beat of the descriptor is not yet written to bytes that beat `b` writes: where destination bytes overlap, the latest in logical order
wins (R511). -/
def Channel.behind (x : Channel) (b : Beat) : Bool :=
  let a := b.desc.dstAt b.row b.off
  x.beats.any (fun z =>
    let e := z.desc.dstAt z.row z.off
    decide (z.id < b.id) && decide (z.desc.idx = b.desc.idx) && decide (e < a + b.len) && decide (a < e + z.len))

/-- The oldest staged beat is written: acknowledged, failed, or on its way through a Bend port. -/
def execBeatWriteAck (ch : Nat) (s : State) := commit s (fun s =>
  match s.chCoil ch, (s.chan ch).beats.find? (fun b => b.stage = .staged) with
  | some coil, some b =>
    let st := s.chState ch
    if (st ≠ stActive ∧ st ≠ stPausing) ∨ !s.mayBeat ch ∨ (s.chan ch).behind b then s
    else
      let free := b.desc.overlaps
      let b := if free then { b with data := (Config.freeLine s.fresh).toNat % 2 ^ (8 * b.len) } else b
      let s := if free then { s with fresh := s.fresh + 1 } else s
      let a := b.desc.dstAt b.row b.off
      let r := s.reach ch coil b.desc.dstSpace a .write
      let res := match r.1 with
        | .mem w leaf => r.2.tkWrite ch coil b.id w b.len b.data b.poison leaf b.desc.hint b.desc.hint
        | .tile c ta => r.2.tilePut c ta b.len b.data b.poison
        | .bad reason cause => .fail reason cause r.2
      match res with
      | .done _ _ s => (s.takeSlot ch).beatDone ch b
      | .wait s => s
      | .sent s => (s.takeSlot ch).setBeat ch { b with stage := .issued }
      | .fail reason cause s => s.beatLost ch b reason cause
  | _, _ => s)

/-- The error of an answer from outside the wafer. -/
def tkReason : ReadResult → Nat × Nat
  | .perm => (2, Cause.access.code)
  | .timeout => (5, 0)
  | _ => (3, 0)

/-- A host's or a Bend port's answer to beat `id` of a channel. -/
def State.answerTackle (s : State) (i id : Nat) (r : ReadResult) : State :=
  match (s.chan i).beats.find? (fun b => b.id = id) with
  | none => s
  | some b =>
    let stopped := (s.chan i).bad.any (·.stop)
    match b.stage with
    | .issued =>
      match r with
      | .data _ => s.beatDone i b
      | .poison _ => s.beatDone i b
      | e => s.beatLost i b (tkReason e).1 (tkReason e).2
    | _ =>
      match b.todo with
      | [] => s
      | (a, n) :: _ =>
        let drop := s.setChan i { s.chan i with beats := (s.chan i).beats.filter (fun t => t.id ≠ id) }
        let land := fun (bs : List Byte) (po : Bool) =>
          if stopped then (if po then drop.beatError i { reason := 4, addr := a, pos := b.desc.pos b.row (b.off + b.got) } else drop)
          else s.landPiece i b (leNat (bs.take n)) n a po
        match r with
        | .data bs => land bs false
        | .poison bs => land bs true
        | e => drop.beatError i { reason := (tkReason e).1, cause := (tkReason e).2, addr := a, pos := b.desc.pos b.row (b.off + b.got), stop := true }

/-! ### Completion (R514, R516, R518) -/

/-- Every read has returned and every write is issued, or performed under BARRIER: the status write is issued. -/
def execDescriptorComplete (ch : Nat) (s : State) := commit s (fun s =>
  let x := s.chan ch
  let st := s.chState ch
  match x.cur with
  | none => s
  | some d =>
    if (st ≠ stActive ∧ st ≠ stPausing) ∨ x.status ∨ x.unread ∨ x.beats.any (fun b => b.stage ≠ .issued) then s
    else if d.barrier && !x.beats.isEmpty then s
    else if d.barrier && !x.flush.isEmpty then s.tkFlush ch
    else if d.barrier && !x.flushing.isEmpty then s
    else s.setChan ch { x with status := true })

/-- The STATUS word and FAULT_ADDR, 16 B (Table 15.6). -/
def statusWords (d : TackleDesc) (bad : Option DescBad) : Nat :=
  match bad with
  | none => 1 + 2 ^ 32 * d.idx
  | some b => 2 + 2 ^ 4 * b.reason + 2 ^ 8 * b.cause + 2 ^ 32 * d.idx + 2 ^ 64 * b.addr

/-- The status is written and DONE advances, or the channel halts. -/
def execStatusWriteAck (ch : Nat) (s : State) := commit s (fun s =>
  let x := s.chan ch
  match x.cur, s.chCoil ch with
  | some d, some coil =>
    if !x.status then s
    else
      let a := s.slotDva ch d.idx + 0x30
      let r := s.xlatCh ch coil a .write
      let res := match r.1 with
        | .mem w leaf => r.2.tkWrite ch coil 0 w 16 (statusWords d x.bad) false leaf true false
        | .tile _ _ => .fail 2 0 r.2
        | .bad reason cause => .fail reason cause r.2
      match res with
      | .wait s => s
      | .fail _ _ s => s.haltCh ch 2 a
      | .sent s => s.haltCh ch 2 a
      | .done _ _ s =>
        let s := s.bump .TK_CH_DONE_DONE ch 1
        let s := if x.bad.isSome then s.bump .TK_CH_BAD_COUNT ch 1 else s
        let last := s.fld .TK_CH_DONE_DONE ch = s.fld .TK_CH_TAIL_TAIL ch
        let s := s.setChan ch { s.chan ch with cur := none, row := 0, off := 0, bad := none, status := false, eocDue := (s.chan ch).eocDue || last }
        let s := s.leaveR ch
        let s := if s.chState ch = stPausing then s.setChState ch stPaused else s.refreshCh ch
        s.tryEoc ch
  | _, _ => s)

/-! ### Enable, disable, pause, stops (R505, R522, R527) -/

def execChannelEnable (p ch : Nat) (s : State) := commit s (fun s => s.chScoped p ch (fun s =>
  if s.flag .TK_CH_CTL_ENABLE ch ∨ s.chState ch = stStopping then s
  else if (chPly ch).isNone && !s.flag .HT_TK_OWNER_VALID (ch - 12288) then s.setFld .TK_CH_CTL_STATUS ch 2
  else if s.fld .TK_CH_RING_BASE ch % 2 ^ s.fld .TK_CH_RING_LOG2 ch ≠ 0 then s.setFld .TK_CH_CTL_STATUS ch 1
  else (s.setFld .TK_CH_CTL_ENABLE ch 1 |>.setFld .TK_CH_CTL_STATUS ch 0 |>.setChState ch stIdle).refreshCh ch))

/-- Responses of the channel's requests are still outstanding. -/
def State.chOutstanding (s : State) (i : Nat) : Bool :=
  let mine := fun (x : Src) => match x with
    | .tackle j _ => j = i
    | _ => false
  s.ports.any (fun e => e.2.tags.any (fun t => mine t.src)) || s.bends.any (fun e => e.2.waiting.any (fun r => mine r.src) || e.2.tags.any (fun t => mine t.req.src)) ||
    !(s.chan i).flushing.isEmpty

/-- A channel stops (Table 15.8): no status for the current descriptor or a later one, TAIL set to DONE. -/
def State.stopChannel (s : State) (i : Nat) : State :=
  let s := s.setChan i { flushing := (s.chan i).flushing, nextBeat := (s.chan i).nextBeat }
  (s.leaveR i).setFld .TK_CH_TAIL_TAIL i (s.fld .TK_CH_DONE_DONE i) |>.setChState i stStopping |>.setFld .TK_CH_STATUS_HALT_REASON i 0

/-- Every register of a channel at its reset value; responses still outstanding are discarded. -/
def State.resetChannel (s : State) (i : Nat) : State :=
  let s := (s.setChan i { flushing := (s.chan i).flushing, nextBeat := (s.chan i).nextBeat }).leaveR i
  s.resetFlds (fun n k => k = i && inBlock .TK_CH_CTL_ENABLE .TK_CH_BYTES_COUNT n)

def execChannelDisable (p ch : Nat) (s : State) := commit s (fun s => s.chScoped p ch (fun s =>
  if s.flag .TK_CH_CTL_ENABLE ch then (s.setFld .TK_CH_CTL_ENABLE ch 0).stopChannel ch else s))

def execPause (p ch : Nat) (s : State) := commit s (fun s => s.chScoped p ch (fun s =>
  let s := s.setFld .TK_CH_CTL_PAUSE ch 1
  if s.chState ch = stActive then s.setChState ch stPausing else s.refreshCh ch))

/-- The channel continues from TK_CH_PROGRESS. -/
def execPauseClear (p ch : Nat) (s : State) := commit s (fun s => s.chScoped p ch (fun s =>
  let s := s.setFld .TK_CH_CTL_PAUSE ch 0
  if s.chState ch = stPausing ∨ s.chState ch = stPaused then (s.setChState ch stIdle).refreshCh ch else s))

def execPaused (ch : Nat) (s : State) := commit s (fun s =>
  let x := s.chan ch
  if s.chState ch = stPausing && x.beats.isEmpty && !x.status then s.setChState ch stPaused else s)

def execChannelStopped (ch : Nat) (s : State) := commit s (fun s =>
  if s.chState ch = stStopping && !s.chOutstanding ch then
    let s := s.setChan ch {}
    (s.setChState ch (if s.flag .TK_CH_CTL_ENABLE ch then stIdle else stDisabled)).refreshCh ch
  else s)

/-- A channel runs nothing and awaits nothing. -/
def State.channelIdle (s : State) (i : Nat) : Bool :=
  (s.chState i = stDisabled || s.chState i = stIdle) && (s.chan i).quiet && !s.chOutstanding i

/-- Every channel of a port, or of a ply, at its reset values. -/
def State.stopPortChannels (s : State) (p : Nat) : State :=
  (span (12288 + 64 * p) 64).foldl State.resetChannel s
def State.stopPlyChannels (s : State) (y : Nat) : State :=
  ((span (32 * y) 32).foldl State.resetChannel s).setEngine y {}

/-- The channels that a function of a port owns. -/
def State.channelsOf (s : State) (p fn : Nat) : List Nat :=
  (span (12288 + 64 * p) 64).filter (fun i => s.flag .HT_TK_OWNER_VALID (i - 12288) && s.fld .HT_TK_OWNER_FUNC (i - 12288) = fn)

/-- The PF-owned channels of a port that move data for a coil stop as by ENABLE, and lose their owner (R503). -/
def State.dropTkCoil (s : State) (p coil : Nat) : State :=
  (s.channelsOf p 0).foldl (fun s i =>
    if s.fld .HT_TK_OWNER_COIL (i - 12288) = coil then
      ((if s.flag .TK_CH_CTL_ENABLE i then (s.setFld .TK_CH_CTL_ENABLE i 0).stopChannel i else s).setFld .HT_TK_OWNER_VALID (i - 12288) 0)
    else s) s

/-- Some channel's descriptor has a side in the tile store of core `c`. -/
def State.wantsTile (s : State) (c : Nat) : Bool :=
  s.channels.any (fun e => match e.2.cur with
    | some d => (d.op = 0 && d.srcSpace = 1 && d.src / 0x200000 = c) || (d.dstSpace = 1 && d.dst / 0x200000 = c)
    | none => false)

/-- The tile-store switch of a core in DARK closes for a TILE access; the store reads zero and the core stands in RETAIN (R539). -/
def execTileStorePowerUp (c : Nat) (s : State) := commit s (fun s =>
  if c < Config.cores && s.fld .CR_STATUS_PSTATE c = 4 && s.wantsTile c && !(s.core c).resetting && !(s.core c).waking then
    (s.setCore c { s.core c with tile := [], tilePoison := [] }).setFld .CR_STATUS_PSTATE c 3
  else s)

/-- PROGRESS: the first byte not yet written of the current descriptor, as its row and offset (R522). -/
def Channel.progress (x : Channel) : Nat × Nat :=
  match x.cur, x.beats.find? (fun b => b.stage ≠ .issued) with
  | some _, some b => (b.row, b.off)
  | some _, none => (x.row, x.off)
  | none, _ => (0, 0)

end Sys2Proof.Machine
end

