-- ==== Sys2Proof/Machine/Walk.lean ====
section
/-!
DEFINITION. Translation misses of cores, the walkers of each bay, and the completion of invalidations (R262, R273, R274, R286).
-/
namespace Sys2Proof.Machine

/-! ### Misses (R273) -/

/-- Two misses that are merged into one walk: the same coil and the same fathom. -/
def Miss.same (m : Miss) (coil dva : Nat) : Bool := m.coil = coil && m.dva / 0x1000000 = dva / 0x1000000

/-- A walker of a bay that is neither disabled nor walking. -/
def State.freeWalker (s : State) (k : Nat) : Option Nat :=
  let b := s.bay k
  (List.range 8).find? (fun w => !b.dead.contains w && !b.walks.any (fun x => x.walker = w))

/-- Where the walk of a miss begins: below the deepest pointer that the walk cache holds, else at the root. -/
def State.walkStart (s : State) (k coil dva : Nat) : Nat × Nat :=
  let ptr := fun (level size : Nat) => (s.bay k).ptrs.find? (fun w => w.coil = coil && w.level = level && w.index = dva / size)
  match ptr 1 (2 ^ 30) with
  | some w => (2, entryAddr w.next 2 dva)
  | none => match ptr 0 (2 ^ 39) with
    | some w => (1, entryAddr w.next 1 dva)
    | none => (0, entryAddr (s.fld .DT_CTX_ROOT_ROOT coil * 4096) 0 dva)

/-- A miss takes a walker, or waits in the queue of 64, or is not taken. -/
def State.takeMiss (s : State) (k : Nat) (m : Miss) : State :=
  let b := s.bay k
  match s.freeWalker k with
  | some w =>
    let st := s.walkStart k m.coil m.dva
    (s.setBay k { b with walks := b.walks ++ [{ walker := w, miss := m, level := st.1, entry := st.2 }] }).bump .DTW_WALKS_COUNT k 1
  | none => if b.queue.length < 64 then s.setBay k { b with queue := b.queue ++ [m] } else s

/-- A stalled core goes on. -/
def State.unstall (s : State) (c : Nat) : State := (s.setCore c { s.core c with stalled := none }).setFld .CR_STATUS_PSTATE c 0

/-- The miss of a stalled core at its bay cache: found there after all, merged, taken by a walker, or queued. -/
def execTranslationMiss (c : Nat) (s : State) := commit s (fun s =>
  let k := bayOfCore c
  let b := s.bay k
  match (s.core c).stalled, (s.core c).coil with
  | some (kind, dva), some coil =>
    if s.fences.cores.contains c then s
    else match b.cache.find? (fun l => l.serves coil dva) with
    | some l => (s.keepLeaf c (some l) (kind = .fetch)).unstall c
    | none =>
      let s := s.bump .DTW_MISSES_COUNT k 1
      let src := Src.core c 0
      let add := fun (m : Miss) => if m.same coil dva && !m.srcs.contains src then { m with srcs := m.srcs ++ [src] } else m
      if b.walks.any (fun w => w.miss.same coil dva && !w.stale) ∨ b.queue.any (fun m => m.same coil dva) then
        s.setBay k { b with walks := b.walks.map (fun w => if w.stale then w else { w with miss := add w.miss }), queue := b.queue.map add }
      else s.takeMiss k { coil := coil, dva := dva, srcs := [src] }
  | _, _ => s)

/-- A walker is free: the oldest queued miss takes it. -/
def State.nextMiss (s : State) (k : Nat) : State :=
  match (s.bay k).queue with
  | [] => s
  | m :: rest =>
    if (s.freeWalker k).isNone then s else (s.setBay k { s.bay k with queue := rest }).takeMiss k m

/-- A walk ends, and `f` settles each core that waits for it. -/
def State.endWalk (s : State) (k : Nat) (w : Walk) (f : State → Nat → AccKind → Nat → State) : State :=
  let s := s.setBay k { s.bay k with walks := (s.bay k).walks.filter (fun x => x.walker ≠ w.walker) }
  let s := w.miss.srcs.foldl (fun s src =>
    match src with
    | .core c _ => match (s.core c).stalled with
      | some (kind, dva) => if (s.core c).coil = some w.miss.coil && w.miss.same w.miss.coil dva then f s c kind dva else s
      | none => s
    | _ => s) s
  s.nextMiss k

/-- A walk ends in a fault, delivered precisely to each source and recorded with SOURCE 0 (R290, Table 8.7). -/
def State.walkFault (s : State) (k : Nat) (w : Walk) (e : Cause) : State :=
  (s.bump .DTW_FAULTS_COUNT k 1).endWalk k w (fun s c kind dva =>
    ((s.recordFault w.miss.coil dva e kind 0 c w.level).setCore c { s.core c with stalled := none }).trapCause c e dva)

/-- A table entry returns to a walker. A result that an invalidation marked is discarded, and its sources ask again. -/
def execWalkEntryRead (k walker : Nat) (s : State) := commit s (fun s =>
  match (s.bay k).walks.find? (fun x => x.walker = walker) with
  | none => s
  | some w =>
    if w.stale then s.endWalk k w (fun s _ _ _ => s)
    else match s.preFault w.miss.coil w.miss.dva with
    | some e => s.walkFault k w e
    | none =>
      match s.readEntry w.miss.coil w.level w.miss.dva w.entry with
      | .next t =>
        let p : WalkPtr := { coil := w.miss.coil, level := w.level, index := w.miss.dva / (if w.level = 0 then 2 ^ 39 else 2 ^ 30), next := t }
        let b := s.bay k
        let w' := { w with level := w.level + 1, entry := entryAddr t (w.level + 1) w.miss.dva }
        s.setBay k { b with ptrs := keepLast 64 (b.ptrs.filter (· ≠ p) ++ [p]), walks := b.walks.map (fun x => if x.walker = walker then w' else x) }
      | .leaf l =>
        let s := s.setBay k { s.bay k with cache := addLeaf 2048 (s.bay k).cache l }
        s.endWalk k w (fun s c kind _ => (s.putLeaf c (some l) (kind = .fetch)).unstall c)
      | .fault e => s.walkFault k w e)

/-! ### Completion of invalidations (Table 8.6) -/

/-- An access at a DVA of the coil lies in the range. -/
def inRange (range : Option (Nat × Nat)) (dva : Nat) : Bool :=
  match range with
  | none => true
  | some (b, n) => decide (b ≤ dva / 0x1000000) && decide (dva / 0x1000000 < b + n)

/-- No access of the coil translated through a part of the range is outstanding, and no marked walk of the coil runs (Table 8.6
steps 2 and 3). -/
def State.invDrained (s : State) (coil : Nat) (range : Option (Nat × Nat)) : Bool :=
  s.bays.all (fun e => e.2.walks.all (fun w => !(w.stale && w.miss.coil = coil))) &&
    s.cores.all (fun e =>
      e.2.accesses.all (fun a => match a.leaf with
        | some l => !(l.hit coil range)
        | none => true) &&
      (e.2.coil ≠ some coil || (e.2.mb.all (fun z => !(inRange range z.dva)) && e.2.nt.all (fun z => !(inRange range z.dva))))) &&
    s.channels.all (fun e => s.chCoil e.1 ≠ some coil || e.2.beats.all (fun b =>
      let src := b.stage = .reading && b.sent && b.desc.srcSpace = 0 && inRange range ((b.todo.head?.map (·.1)).getD 0)
      let dst := b.stage = .issued && b.desc.dstSpace = 0 && inRange range (b.desc.dstAt b.row b.off)
      !src && !dst))

/-- The command at the head of a coil's queue is complete: DONE advances, the interrupt is raised, the next one starts. -/
def execInvalidationDone (coil : Nat) (s : State) := commit s (fun s =>
  match SMap.get [] s.invs coil with
  | [] => s
  | c :: rest =>
    if !s.invDrained coil c.range then s
    else
      let s : State := { s with invs := SMap.set [] s.invs coil rest }
      let s := s.setFld .DT_INV_STATUS_DONE coil c.seq |>.setFld .DT_INV_STATUS_PENDING coil rest.length
      let s := if !s.flag .DT_CTX_CTL_IRQ_EN coil then s
        else match s.homeOf coil with
        | some p => s.raiseMsix p 0 (s.fld .DT_CTX_CTL_IRQ_VEC coil)
        | none => s
      match rest with
      | n :: _ => s.startInv coil n
      | [] => s)

end Sys2Proof.Machine
end

