-- ==== Sys2Proof/Machine/Route.lean ====
section
/-!
DEFINITION. The mesh of the Net and its route tables (chapter 6): neighbours, live links, the routes and the escape tree that Cleat computes,
and the in-service route change.
-/
namespace Sys2Proof.Machine

/-! ### The mesh (Table 6.1) -/

/-- The router at mesh port `q` (0 N, 1 E, 2 S, 3 W) of router `k`: bays lie in 8 rows of 12. -/
def neighbour (k q : Nat) : Option Nat :=
  match q with
  | 0 => if 12 ≤ k then some (k - 12) else none
  | 1 => if k % 12 < 11 then some (k + 1) else none
  | 2 => if k + 12 < 96 then some (k + 12) else none
  | 3 => if 0 < k % 12 then some (k - 1) else none
  | _ => none

/-- The port of the neighbour that a mesh port leads to. -/
def opposite (q : Nat) : Nat := (q + 2) % 4

/-- What a set of tables avoids: fenced routers, and down links as (router, port). -/
abbrev Lost := List Nat × List (Nat × Nat)

/-- A link that tables may use: both ends live, neither direction down (R185). -/
def linkLive (l : Lost) (k q : Nat) : Bool :=
  match neighbour k q with
  | some n => !l.1.contains k && !l.1.contains n && !l.2.contains (k, q) && !l.2.contains (n, opposite q)
  | none => false

/-- The live neighbours of a router. -/
def liveNext (l : Lost) (k : Nat) : List Nat :=
  (List.range 4).filterMap (fun q => if linkLive l k q then neighbour k q else none)

/-- The hop count of every router that live links connect to `frontier`, found layer by layer. -/
def layers (l : Lost) : Nat → Nat → List Nat → List (Nat × Nat) → List (Nat × Nat)
  | 0, _, _, seen => seen
  | fuel + 1, d, frontier, seen =>
    let next := (frontier.flatMap (liveNext l)).foldl (fun a n =>
      if a.contains n || seen.any (fun e => e.1 = n) then a else a ++ [n]) []
    if next.isEmpty then seen else layers l fuel (d + 1) next (seen ++ next.map (fun n => (n, d + 1)))

/-- The distances to router `dst`. -/
def hops (l : Lost) (dst : Nat) : List (Nat × Nat) :=
  if l.1.contains dst then [] else layers l 96 0 [dst] [(dst, 0)]

/-- The lowest port whose live neighbour is one hop nearer. -/
def nearer (l : Lost) (h : List (Nat × Nat)) (k : Nat) : Option Nat :=
  match h.lookup k with
  | none => none
  | some d => (List.range 4).find? (fun q => linkLive l k q && (match (neighbour k q).bind (fun n => h.lookup n) with
      | some e => decide (e < d)
      | none => false))

/-- The first port of the dimension-ordered route (R189). -/
def orderedPort (k dst : Nat) : Nat :=
  if k % 12 < dst % 12 then 1 else if dst % 12 < k % 12 then 3 else if k / 12 < dst / 12 then 2 else 0

/-- The dimension-ordered route crosses nothing that is lost. -/
def orderedLive (l : Lost) (dst : Nat) : Nat → Nat → Bool
  | 0, _ => false
  | fuel + 1, k =>
    if k = dst then true
    else linkLive l k (orderedPort k dst) && (match neighbour k (orderedPort k dst) with
      | some n => orderedLive l dst fuel n
      | none => false)

/-- The VC0 port of router `k` for `dst` (R189, R207): 7 eject, 0xF unreachable. -/
def vc0Port (l : Lost) (k dst : Nat) : Nat :=
  if l.1.contains k || l.1.contains dst then 0xF
  else if k = dst then 7
  else if orderedLive l dst 20 k then orderedPort k dst
  else (nearer l (hops l dst) k).getD 0xF

/-- The root of the escape tree: the live router closest to bay 54, the lowest on a tie (R190). -/
def escRoot (l : Lost) : Nat :=
  let d := fun (k : Nat) => (max (k / 12) 4 - min (k / 12) 4) + (max (k % 12) 6 - min (k % 12) 6)
  (List.range 96).foldl (fun best k => if l.1.contains k then best else if l.1.contains best ∨ d k < d best then k else best) 54

/-- The routers on the tree path from `k` up to the root. -/
def toRoot (l : Lost) (h : List (Nat × Nat)) : Nat → Nat → List Nat
  | 0, _ => []
  | fuel + 1, k => match (nearer l h k).bind (neighbour k) with
    | some n => k :: toRoot l h fuel n
    | none => [k]

/-- The ESC port of router `k` for `dst`: down towards a destination below it, else up (R190). -/
def escPort (l : Lost) (k dst : Nat) : Nat :=
  if l.1.contains k || l.1.contains dst then 0xF
  else if k = dst then 7
  else
    let h := hops l (escRoot l)
    let path := toRoot l h 96 dst
    if (h.lookup k).isNone || (h.lookup dst).isNone then 0xF
    else match path.findIdx? (· = k) with
    | some i => ((List.range 4).find? (fun q => neighbour k q = path[i - 1]?)).getD 0xF
    | none => (nearer l h k).getD 0xF

/-! ### Tables in force -/

/-- The number of a route-table entry: bank, router, destination, and whether it is the ESC port. -/
def routeKey (bank k dst : Nat) (esc : Bool) : Nat := 2 * (96 * (96 * bank + k) + dst) + b2n esc

/-- A route-table entry of NT_ROUTE: what a register write put there, else what Cleat built. -/
def State.routeEntry (s : State) (bank k dst : Nat) (esc : Bool) : Nat :=
  let l := (s.net.lost[bank]?).getD ([], [])
  match SMap.get 0 s.net.routes (routeKey bank k dst esc) with
  | 0 => if esc then escPort l k dst else vc0Port l k dst
  | c + 1 => c

/-- What new tables must avoid: every fenced router and every link declared down (R192). -/
def State.lostNow (s : State) : Lost :=
  (s.fences.routers, s.routers.flatMap (fun e => e.2.down.map (fun q => (e.1, q))))

/-- Whether the route in force from router `k` to `dst` crosses a part lost since its tables were built. -/
def State.routeCut (s : State) (dst : Nat) : Nat → Nat → Bool
  | 0, _ => true
  | fuel + 1, k =>
    let q := s.routeEntry (s.fld .NT_CTL_BANK 0) k dst false
    if q = 7 then false
    else !linkLive s.lostNow k q || (match neighbour k q with
      | some n => s.routeCut dst fuel n
      | none => true)

/-- The router of a unit. -/
def State.routerOf (s : State) (u : UnitRef) : Option Nat :=
  match u.kind with
  | .core => some (u.id / 32)
  | .vault => some (u.id / 32)
  | .ply => some (u.id / 4)
  | .bay => some u.id
  | .router => some u.id
  | .hostPort => some (s.fld .HT_ID_BAY u.id)
  | .central => some (if u.id = 1 then (if s.fences.routers.contains 0 then 11 else 0) else if s.fences.routers.contains 54 then 53 else 54)
  | _ => none

/-- A route change starts, or, once PAUSE is set, a new one follows it (R192, R193). -/
def State.startRoute (s : State) : State :=
  match s.net.step with
  | 0 => { s with net := { s.net with step := 3 } }
  | 3 => s
  | _ => { s with net := { s.net with again := true } }

/-- Cleat has written the new tables, with their escape tree, into every inactive bank, and sets PAUSE (Table 6.5 steps 3 and 4). -/
def execRouteTablesLoaded (s : State) := commit s (fun s =>
  if s.net.step = 3 then
    let l := s.lostNow
    let b := 1 - s.fld .NT_CTL_BANK 0
    let banks := if b = 0 then [l, (s.net.lost[1]?).getD ([], [])] else [(s.net.lost[0]?).getD ([], []), l]
    ({ s with net := { s.net with step := 5, lost := banks, routes := s.net.routes.filter (fun e => decide (e.1 / 18432 ≠ b)) } } : State).setFld .NT_ESC_ROOT_ROOT 0 (escRoot l) |>.setFld .NT_CTL_PAUSE 0 1
  else s)

/-- No flit has moved for 1,024 NCLK under PAUSE: Cleat flips BANK and clears PAUSE, and held packets go on (Table 6.5 steps 5 to 7). -/
def execNetQuiet (s : State) := commit s (fun s =>
  if s.net.step = 5 then
    let s : State := { s with net := { s.net with step := if s.net.again then 3 else 0, again := false } }
    let s := s.routers.foldl (fun s e => s.setRouter e.1 { e.2 with packets := e.2.packets.map (fun p => { p with held := false }) }) s
    (s.setFld .NT_CTL_BANK 0 (1 - s.fld .NT_CTL_BANK 0) |>.setFld .NT_CTL_PAUSE 0 0).event .netRouteChange
  else s)

end Sys2Proof.Machine
end

