-- ==== Sys2Proof/Machine/Fence.lean ====
section
/-!
DEFINITION. Resets and fences of cores, plies, bays, vaults and routers (Table 3.5, R96 to R104, chapter 19): what each clears, the fate of
tasks, the fence journal and the capacity counters.
-/
namespace Sys2Proof.Machine

/-! ### Edge attachment (Table 1.2, R26) -/

/-- The router through which a port attaches, and whether it is the alternate (R26). -/
def State.attach (s : State) (x : Nat × Nat) : Option (Nat × Bool) :=
  if !s.fences.routers.contains x.1 then some (x.1, false)
  else if !s.fences.routers.contains x.2 then some (x.2, true)
  else none

/-! ### Stopper maps (R639, R640) -/

def StopMap.union (a b : StopMap) : StopMap :=
  { cores := unionNat a.cores b.cores, vaults := unionNat a.vaults b.vaults, routers := unionNat a.routers b.routers }

/-- A fenced router costs its bay's 32 cores and 32 vaults (R30). -/
def StopMap.close (m : StopMap) : StopMap :=
  { m with cores := m.routers.foldl (fun a r => unionNat a (span (32 * r) 32)) m.cores
           vaults := m.routers.foldl (fun a r => unionNat a (span (32 * r) 32)) m.vaults }

/-- Cause records (R640): at most 1,024, the oldest dropped. -/
def addCauses (l new : List CauseRec) : List CauseRec :=
  let all := l ++ new
  all.drop (all.length - 1024)

/-- Usable counts (R643): they always equal the live stopper map. -/
def State.setCapacity (s : State) : State :=
  let c := Config.cores - s.fences.cores.length
  let v := Config.vaults - s.fences.vaults.length
  s.setFld .CL_CAPACITY_CORES 0 c |>.setFld .CL_CAPACITY_VAULTS 0 v
    |>.setFld .CL_CAPACITY_ROUTERS 0 (Config.bays - s.fences.routers.length)
    |>.setFld .CL_CAPACITY_BELOW_RATED 0 (b2n (decide (c < Config.rated) || decide (v < Config.rated)))
    |>.setFld .SP_STATUS_USABLE 0 v

/-! ### Notices (R201, R202) -/

/-- The record of a pawl. -/
def State.pawl (s : State) (k : Nat) : Pawl := SMap.get {} s.pawls k
def State.setPawl (s : State) (k : Nat) (v : Pawl) : State := { s with pawls := SMap.set {} s.pawls k v }

/-- A unit that is fenced, or resets: requests to it are answered FENCED (R102) (DEDUCED, log entry 52). -/
def State.unitDown (s : State) (u : UnitRef) : Bool :=
  s.fencedUnit u || (match u.kind with
    | .core => (s.core u.id).resetting
    | .ply => (s.ply u.id).resetting
    | .bay => (s.pawl u.id).resetting || (s.pawl u.id).tripped
    | .vault => (s.vault u.id).resetting
    | .hostPort => (s.port u.id).resetting || s.portCut u.id
    | _ => false)

/-- A unit's router sends its fence notice, or the clearing notice. -/
def State.notice (s : State) (u : UnitRef) : State := (s.bump .NT_NOTICE_SEQ_SEQ 0 1).send (.notice u false)
def State.clearNotice (s : State) (u : UnitRef) : State := s.send (.notice u true)

/-! ### Repeats within 24 h (R631) -/

/-- A time within the last 24 h. -/
def State.within24h (s : State) (t : Nat) : Bool := decide (s.clockUs < t + 86400000000)

/-! ### Core reset (Table 3.5) -/

/-- The tasks that a unit's cores run or wake for. -/
def State.tasksOn (s : State) (f : Nat → Bool) : List Nat :=
  s.tasksOf (fun t => match t.state with
    | .running c => f c
    | .starting c => f c
    | _ => false)

/-- Host reads of a source whose answer is no longer wanted (R103). -/
def State.discardReads (s : State) (f : Src → Bool) : State :=
  { s with ports := s.ports.map (fun e => (e.1, { e.2 with tags := e.2.tags.map (fun t => if f t.src then { t with discard := true } else t) })) }

/-- Everything a core reset clears: its registers, control registers, L1 caches, buffers and tile store, and its CR_ block; the core is
left in DARK. -/
def State.clearCore (s : State) (c : Nat) : State :=
  let x := s.core c
  let y := plyOfCore c
  let p := s.ply y
  let gone := fun (l : CLine) => { l with presence := l.presence.filter (· ≠ c % 8) }
  let s := s.setPly y { p with cache := p.cache.map (fun e => (e.1, gone e.2)), victim := p.victim.map (fun e => (e.1, gone e.2)) }
  let s : State := { s with strRsv := s.strRsv.filter (fun r => r.core ≠ c) }
  let s := s.discardReads (fun z => match z with
    | .core n _ => n = c
    | _ => false)
  let s := s.setCore c { nextAcc := x.nextAcc, ueAt := x.ueAt, tileUe := x.tileUe, resetting := true }
  let s := s.resetFlds (fun n i => i = c && inBlock .CR_STATUS_PSTATE .CR_TILE_ECC_UE n)
  s.setFld .CR_STATUS_FENCED c (b2n (s.fences.cores.contains c))

/-- A core is reset: its notice goes out, and its task, if it has not ended, is lost (R594, R636). -/
def State.resetCore (s : State) (c : Nat) : State :=
  let ts := s.tasksOn (· = c)
  let s := (s.clearCore c).notice ⟨.core, c⟩
  ts.foldl State.loseTask s

/-- Several cores are reset at once. -/
def State.resetCores (s : State) (cs : List Nat) : State :=
  let ts := s.tasksOn cs.contains
  let s := cs.foldl State.clearCore s
  ts.foldl State.loseTask s

/-! ### Ply reset -/

/-- The coil whose dirty STR bytes a reset of the ply may have lost is told (R97). -/
def State.strDataLost (s : State) (y : Nat) : State :=
  match s.plyCoil y with
  | some o => s.event .strDataLost ⟨.ply, y⟩ (some o)
  | none => s

/-- Everything a ply reset clears but its cores: caches, scratch, Tackle channels, PC_ and TK_ blocks; requests and write-backs that have
not left the ply. -/
def State.clearPly (s : State) (y : Nat) : State :=
  let k := bayOfPly y
  let b := s.bus k
  let s := s.setPly y { resetting := true, errorAt := (s.ply y).errorAt }
  let s := s.setBus k { b with wbs := b.wbs.filter (fun w => !(w.ply = y && w.stage = 0)), reqs := b.reqs.filter (fun r => r.ply ≠ y) }
  let s := s.stopPlyChannels y
  let s := s.discardReads (fun z => match z with
    | .ply n _ => n = y
    | .tackle ch _ => chPly ch = some y
    | _ => false)
  let lo := scratchBase + y * 0x1000000
  let s : State := { s with mem := s.mem.filter (fun e => !(decide (lo ≤ e.1) && decide (e.1 < lo + 0x1000000))) }
  s.resetFlds (fun n i => i = y && (inBlock .PC_STATUS_WAYS .PC_WRITEBACKS_COUNT n || inBlock .TK_ENG_STATUS_ACTIVE .TK_ENG_PREEMPTS_COUNT n))

/-- A ply is reset; on an error its dirty lines are lost (R97, R352). -/
def State.resetPly (s : State) (y : Nat) (error : Bool) : State :=
  let s := if error then s.strDataLost y else s
  let s := ((s.clearPly y).notice ⟨.ply, y⟩).resetCores (coresOf y)
  s.sweep (bayOfPly y) false

/-! ### Bay reset -/

/-- Homes stop waiting for an answer of bay `k`, and its own transactions end (R202). -/
def State.abortBay (s : State) (k : Nat) : State :=
  let lines := (s.txns.filter (fun e => e.2.busy && (e.2.src = k || e.2.waiting.contains k || e.2.rsps.any (fun r => r.holder = k)))).map (·.1)
  let s : State := { s with txns := s.txns.map (fun e => (e.1, { e.2 with queue := e.2.queue.filter (fun r => r.src ≠ k) })) }
  lines.foldl (fun s line =>
    let t : Txn := s.txn line
    if t.src = k then
      (s.setTxn line { queue := t.queue }).serveQueue line (t.queue.length + 1)
    else
      (s.setTxn line { t with waiting := t.waiting.filter (· ≠ k) }).takeRsp k line { holder := k, rsp := .rspI }) s

/-- The bay's queues, arbiter, walkers, translation cache and pawl are cleared, with its CPW_, BA_ and DTW_ blocks; walkers that were lost
stay lost. -/
def State.clearBay (s : State) (k : Nat) : State :=
  let s := s.setBus k {}
  let s := s.setBay k { dead := (s.bay k).dead }
  let p := s.pawl k
  let s := s.setPawl k { tripped := p.tripped, trips := p.trips, limit := p.limit, resetting := true }
  s.resetFlds (fun n i =>
    (i = k && (inBlock .DTW_STATUS_ENABLED .DTW_DROPS_COUNT n || inBlock .BA_STATUS_WB_PENDING .BA_CTL_STARVE_LIMIT n ||
      inBlock .BA_C2C_COUNT .BA_HOME_SNOOPS_COUNT n || inBlock .CPW_STATUS_PLL .CPW_DISPATCH_OVERSPEND n)) ||
    (i / 4 = k && inBlock .BA_TXN_COUNT .BA_MAXWAIT_CYCLES n) || (i / 32 = k && inBlock .CPW_CORE_CEILING .CPW_CORE_TJ n))

/-- A bay is reset, with its plies and cores: tasks on it are lost, tasks queued at its pawl return to the head, lines only it held are lost
at their homes on an error (R97, R352, R636, R637). -/
def State.resetBay (s : State) (k : Nat) (error : Bool) : State :=
  let plies := span (4 * k) 4
  let s := if error then plies.foldl State.strDataLost s else s
  let s := (plies.foldl State.clearPly s).clearBay k
  let s := (s.notice ⟨.bay, k⟩).resetCores (span (32 * k) 32)
  let s := s.unqueue (fun b _ => b = k)
  (s.abortBay k).sweep k true

/-- Every line of a bay's plies is written back, STR lines included (R97): a PLDM request is orderly. -/
def State.writeBackBay (s : State) (k : Nat) : State :=
  let s := (span (4 * k) 4).foldl (fun s y =>
    ((s.ply y).cache ++ (s.ply y).victim).foldl (fun s e => (s.forget y e.1).leavePly y e.1 e.2) s) s
  let s := s.setBus k { s.bus k with wbs := (s.bus k).wbs.map (fun w => { w with stage := max w.stage 1 }) }
  ((s.bus k).wbs.filter (fun w => w.stage = 1)).foldl (fun s w => s.takeWb k w.line w.kind) s

/-! ### Vault reset and fence (R252, R253) -/

/-- A vault controller's queues are lost: transactions of its lines end, reservations held there are gone. -/
def State.dropVaultQueues (s : State) (v : Nat) : State :=
  { s with txns := s.txns.filter (fun e => !inVault v e.1)
           strRsv := s.strRsv.filter (fun r => !(decide (v * vaultSize ≤ 256 * r.granule) && decide (256 * r.granule < (v + 1) * vaultSize))) }

/-- A vault is reset and keeps its content, metadata and directory (DEDUCED, log entry 55). -/
def State.resetVault (s : State) (v : Nat) : State :=
  let s := s.dropVaultQueues v
  let s := s.setVault v { s.vault v with resetting := true }
  (s.setFld .SP_VAULT_STATUS_CE_COUNT v 0).notice ⟨.vault, v⟩

/-- The part of a vault fence that concerns the vault: copies of its lines are invalidated, dirty ones dropped and counted; ownership is
kept; clearing stops. -/
def State.loseVault (s : State) (v cause : Nat) : State :=
  if s.fences.vaults.contains v then s
  else
    let s : State := { s with fences := { s.fences with vaults := insertNat v s.fences.vaults } }
    let r := s.dropCopies (fun l _ => inVault v l)
    let s := (r.2.dropVaultQueues v).setVault v { r.2.vault v with copying := [], resetting := false }
    ((s.setFld .SP_VAULT_STATUS_STATE v 3).notice ⟨.vault, v⟩).event .vaultFenced ⟨.vault, v⟩ (s.vaultCoil v) 0 r.1 cause

/-! ### Steps 5 to 7 of a fence (Table 19.2) -/

/-- A core is able to take a task: enabled and in the normal or throttle band (R591). -/
def State.coreAble (s : State) (c : Nat) : Bool := !s.fences.cores.contains c && decide (SMap.get 0 s.power.bands c < 5)

/-- The bay holds a core of the coil able to take a task. -/
def State.bayAble (s : State) (coil k : Nat) : Bool :=
  !(s.pawl k).tripped && !(s.pawl k).resetting && (span (32 * k) 32).any (fun c => s.plyCoil (plyOfCore c) = some coil && s.coreAble c)

/-- Tasks that a fence moves: STRICT ones whose affinity core is fenced end, queued ones of a coil left no able core there return to the
head (R637). -/
def State.settleFenced (s : State) : State :=
  let strict := s.bySeq (s.tasksOf (fun t => t.ticket.strict && t.ticket.aff && s.fences.cores.contains t.ticket.core && (match t.state with
    | .ready => true
    | .queued _ => true
    | _ => false)))
  let s := strict.foldl (fun s t => s.capDo [.ready t]) s
  s.unqueue (fun k t => !s.bayAble t.coil k)

/-- The fence journal takes the live map's new bits and a cause record of the unit (R640). -/
def State.journalFence (s : State) (u : UnitRef) (cause : Nat) : State :=
  let live := s.nvm.live
  let r : CauseRec := { unit := u, cause := cause, wake := s.module.wakeCount, time := s.fld .CL_TIME_UTC_NS 0 }
  ({ s with nvm := { s.nvm with live := { live with
      fences := live.fences.union { cores := s.fences.cores.filter (fun c => !s.cleat.factory.cores.contains c)
                                    vaults := s.fences.vaults.filter (fun c => !s.cleat.factory.vaults.contains c)
                                    routers := s.fences.routers.filter (fun c => !s.cleat.factory.routers.contains c) }
      causes := addCauses live.causes [r] } } } : State).journal 1

/-- Capacity below 2,880 is logged once in a wake, and the plate reads DEGRADED (R644). -/
def State.noteCapacity (s : State) : State :=
  if s.flag .CL_CAPACITY_BELOW_RATED 0 && !s.module.rated then
    (({ s with module := { s.module with rated := true } } : State).event .capacityBelowRated ⟨.none, 0⟩ none 0 0
      (s.fld .CL_CAPACITY_CORES 0) (s.fld .CL_CAPACITY_VAULTS 0)).plateWord .degraded
  else s

/-- A fence is complete: counters, `log` its event, the journal. -/
def State.endFence (s : State) (u : UnitRef) (cause : Nat) (log : State → State) : State :=
  let s := (s.setCapacity.bump .CL_CAPACITY_FENCE_GEN 0 1)
  ((log s).noteCapacity.journalFence u cause).settleFenced

/-- The cores of a unit are fenced (R629, R633): they stop, their tasks are settled, they stay in DARK. -/
def State.fenceCores (s : State) (cs : List Nat) : State :=
  let new := cs.filter (fun c => !s.fences.cores.contains c)
  let s : State := { s with fences := { s.fences with cores := unionNat s.fences.cores new } }
  (new.foldl (fun s c => s.notice ⟨.core, c⟩) s).resetCores new

/-- The sealed coils that own a ply of bay `k`. -/
def State.sealedIn (s : State) (k : Nat) : List Nat :=
  (List.range 32).filter (fun c => s.sealed c && (span (4 * k) 4).any (fun y => s.plyCoil y = some c))

/-- A fenced router takes its bay and its vaults out of service (R30, R185, R615), and a route change starts (R192). Cleat is unreachable
when both of its routers are fenced (Table 6.3). -/
def State.loseRouter (s : State) (k cause : Nat) : State :=
  let n := ((span (32 * k) 32).filter (fun c => !s.fences.cores.contains c)).length
  let s : State := { s with fences := { s.fences with routers := insertNat k s.fences.routers, cores := unionNat s.fences.cores (span (32 * k) 32) } }
  let s := (s.notice ⟨.router, k⟩).resetBay k true
  let s := s.event .netRouterFault ⟨.router, k⟩
  let s := (s.sealedIn k).foldl (fun s c => s.event .sealedBayLost ⟨.bay, k⟩ (some c)) s
  let s := (span (32 * k) 32).foldl (fun s v => s.loseVault v cause) s
  let s := if n = 0 then s else s.event .coreFenced ⟨.bay, k⟩ none 0 n cause
  let s := if (k = 0 ∨ k = 11) ∧ s.fences.routers.contains 0 ∧ s.fences.routers.contains 11 then s.event .cleatUnreachable ⟨.central, 1⟩ else s
  s.startRoute

/-- A unit is fenced in service with a cause of Table 19.1. When the cause is an error of the ply or bay itself, its reset runs as well
(R633). -/
def State.fenceUnit (s : State) (u : UnitRef) (cause : Nat) : State :=
  if s.fencedUnit u ∨ !s.module.railsOn then s
  else match u.kind with
  | .core =>
    let coil := s.plyCoil (plyOfCore u.id)
    (s.fenceCores [u.id]).endFence u cause (fun s => s.event .coreFenced u coil 0 1 cause)
  | .ply =>
    let n := ((coresOf u.id).filter (fun c => !s.fences.cores.contains c)).length
    let coil := s.plyCoil u.id
    let s := if cause = 12 then s else s.resetPly u.id true
    (s.fenceCores (coresOf u.id)).endFence u cause (fun s => s.event .coreFenced u coil 0 n cause)
  | .bay =>
    let n := ((span (32 * u.id) 32).filter (fun c => !s.fences.cores.contains c)).length
    let s := if cause = 12 then s else s.resetBay u.id true
    (s.fenceCores (span (32 * u.id) 32)).endFence u cause (fun s => s.event .coreFenced u none 0 n cause)
  | .vault => (s.loseVault u.id cause).endFence u cause id
  | .router => (s.loseRouter u.id cause).endFence u cause id
  | _ => s

/-! ### Error resets and their repeats (R631) -/

/-- A core reset on an uncorrectable error in core state or by the core watchdog; the second within 24 h is a fence. -/
def State.errorCore (s : State) (c : Nat) : State :=
  if s.fences.cores.contains c ∨ (s.core c).resetting then s
  else if (s.core c).ueAt.any s.within24h then s.fenceUnit ⟨.core, c⟩ 2
  else (s.setCore c { s.core c with ueAt := [s.clockUs] }).resetCore c

/-- A ply reset on an uncorrectable tag error or a Tackle internal fault; the second within 24 h is a fence. -/
def State.errorPly (s : State) (y : Nat) : State :=
  if !s.busUp y ∨ (s.ply y).resetting ∨ s.fencedUnit ⟨.ply, y⟩ then s
  else
    let again := match (s.ply y).errorAt with
      | some t => s.within24h t
      | none => false
    if again then s.fenceUnit ⟨.ply, y⟩ 5
    else (s.setPly y { s.ply y with errorAt := some s.clockUs }).resetPly y true

/-- A vault reset on a controller fault; the second within 24 h is a fence. -/
def State.errorVault (s : State) (v : Nat) : State :=
  if !s.module.railsOn ∨ 3072 ≤ v ∨ (s.vault v).resetting ∨ s.fences.vaults.contains v then s
  else
    let again := match (s.vault v).faultAt with
      | some t => s.within24h t
      | none => false
    if again then s.fenceUnit ⟨.vault, v⟩ 11
    else (s.setVault v { s.vault v with faultAt := some s.clockUs }).resetVault v

def execPlyCacheTagUe (y : Nat) (s : State) := commit s (fun s => s.errorPly y)
def execTackleInternalFault (y : Nat) (s : State) := commit s (fun s => s.errorPly y)
def execVaultControllerFault (v : Nat) (s : State) := commit s (fun s => s.errorVault v)

/-- The trap to RIG level logs the error before the core reset (R414). -/
def execCoreStateUe (c : Nat) (s : State) := commit s (fun s =>
  if !s.module.railsOn ∨ Config.cores ≤ c ∨ s.fences.cores.contains c ∨ (s.core c).resetting then s
  else (s.event .coreUe ⟨.core, c⟩ (s.plyCoil (plyOfCore c))).errorCore c)

/-- Termination has not ended 250 ms after it began (R437). -/
def execTerminationWatchdog (c : Nat) (s : State) := commit s (fun s => if (s.core c).ending then s.errorCore c else s)

/-- A pawl misses five heartbeats (R659): its bay's cores are fenced. -/
def execPawlWatchdog (k : Nat) (s : State) := commit s (fun s =>
  if !s.module.railsOn ∨ 96 ≤ k ∨ s.fencedUnit ⟨.bay, k⟩ then s
  else (s.event .pawlFault ⟨.bay, k⟩).fenceUnit ⟨.bay, k⟩ 7)

/-- A walker is disabled and its walk restarts on another one; with the last walker, the bay's cores are fenced (R274). -/
def execWalkerFault (k w : Nat) (s : State) := commit s (fun s =>
  let b := s.bay k
  if !s.module.railsOn ∨ 96 ≤ k ∨ 8 ≤ w ∨ b.dead.contains w then s
  else
    let hit := b.walks.filter (fun x => x.walker = w)
    let s := s.setBay k { b with dead := insertNat w b.dead, walks := b.walks.filter (fun x => x.walker ≠ w) }
    let s := s.event .datWalkerFault ⟨.walker, 8 * k + w⟩
    if (s.bay k).dead.length = 8 then s.fenceUnit ⟨.bay, k⟩ 6
    else hit.foldl (fun s x => if x.stale then s else s.takeMiss k x.miss) s)

/-- TLD, after which the sixteenth uncorrectable tile-store error since wake fences the core (Table 19.1). -/
def execTld (c d a off ecc : Nat) (s : State) := commit s (fun s =>
  let n := (s.core c).tileUe
  let s := s.tileLoad c d a off ecc
  if n < 16 && decide (16 ≤ (s.core c).tileUe) then s.fenceUnit ⟨.core, c⟩ 3 else s)

/-! ### Ends of resets (R96, R101) -/

/-- A core reset ends; the core is left in DARK. A fenced core stays fenced, and no clearing notice is sent. -/
def execCoreResetEnd (c : Nat) (s : State) := commit s (fun s =>
  if !(s.core c).resetting ∨ (s.ply (plyOfCore c)).resetting ∨ (s.pawl (bayOfCore c)).resetting then s
  else
    let s := s.setCore c { s.core c with resetting := false }
    if s.fences.cores.contains c then s else s.clearNotice ⟨.core, c⟩)

/-- The contained resets of cores end with that of their ply. -/
def State.endCores (s : State) (cs : List Nat) : State := cs.foldl (fun s c => s.setCore c { s.core c with resetting := false }) s

def execPlyResetEnd (y : Nat) (s : State) := commit s (fun s =>
  if !(s.ply y).resetting ∨ (s.pawl (bayOfPly y)).resetting ∨ s.fencedUnit ⟨.ply, y⟩ then s
  else ((s.setPly y { s.ply y with resetting := false }).endCores (coresOf y)).clearNotice ⟨.ply, y⟩)

/-- A bay reset ends after the bay's self-test, unless the bay is fenced, and not while its trip holds its rails off (R556). -/
def execBayResetEnd (k : Nat) (s : State) := commit s (fun s =>
  if !(s.pawl k).resetting ∨ (s.pawl k).tripped ∨ s.fencedUnit ⟨.bay, k⟩ then s
  else
    let s := s.setPawl k { s.pawl k with resetting := false }
    let s := (span (4 * k) 4).foldl (fun s y => s.setPly y { s.ply y with resetting := false }) s
    (s.endCores (span (32 * k) 32)).clearNotice ⟨.bay, k⟩)

def execVaultResetEnd (v : Nat) (s : State) := commit s (fun s =>
  if !(s.vault v).resetting ∨ s.fences.vaults.contains v then s
  else (s.setVault v { s.vault v with resetting := false }).clearNotice ⟨.vault, v⟩)

/-! ### Requested fences (R630) -/

/-- The kinds of unit that a request may name, within their numbers. -/
def requestable (u : UnitRef) : Bool :=
  match u.kind with
  | .core => decide (u.id < 3072)
  | .ply => decide (u.id < 384)
  | .bay => decide (u.id < 96)
  | .vault => decide (u.id < 3072)
  | .router => decide (u.id < 96)
  | _ => false

/-- A router to which a host port, a Bend port, Cleat or the central agents are attached now. -/
def State.attached (s : State) (k : Nat) : Bool :=
  (List.range 8).any (fun p => (s.port p).present && s.fld .HT_ID_BAY p = k) ||
    bendBays.any (fun x => (s.attach x).any (fun a => a.1 = k)) ||
    ((s.attach (54, 53)).any (fun a => a.1 = k)) || ((s.attach (0, 11)).any (fun a => a.1 = k))

/-- A fence request: 0 OK, 1 FENCED, 2 ATTACHED, 3 RANGE (DEDUCED, log entry 54). -/
def State.requestFence (s : State) (u : UnitRef) : Nat × State :=
  if !requestable u then (3, s)
  else if s.fencedUnit u then (1, s)
  else if u.kind = .router ∧ s.attached u.id then (2, s)
  else (0, (s.event .fenceRequested u).fenceUnit u 12)

def execFenceRequest (u : UnitRef) (s : State) := commit s (fun s => s.pldm (fun s =>
  let r := s.requestFence u
  r.2.reply (match r.1 with
    | 0 => ccOk
    | 1 => ccFenced
    | 2 => ccAttached
    | _ => ccRange)))

/-- The unit kind that a KIND code of CL_FENCE_REQ names. -/
def fenceKind : Nat → UnitKind
  | 1 => .core
  | 2 => .ply
  | 3 => .bay
  | 4 => .vault
  | 5 => .router
  | _ => .none

/-- CL_FENCE_REQ.GO, through the control port; a reserved KIND leaves that field unchanged (R17), and a refusal changes only STATUS. -/
def execClFenceReq (p kind unit : Nat) (s : State) := commit s (fun s =>
  if !s.cleatUp ∨ !s.module.railsOn then s
  else if p ≠ s.module.controlPort then s.denied p 0x200
  else
    let kind := if fenceKind kind = .none then s.fld .CL_FENCE_REQ_KIND 0 else kind
    let r := s.requestFence ⟨fenceKind kind, unit % 4096⟩
    let s := if r.1 = 0 then r.2.setFld .CL_FENCE_REQ_KIND 0 kind |>.setFld .CL_FENCE_REQ_UNIT 0 unit else r.2
    s.setFld .CL_FENCE_REQ_STATUS 0 r.1)

/-- PLDM BAY_RESET: refused while the bay is fenced; every line is written back first (R97). -/
def execBayReset (k : Nat) (s : State) := commit s (fun s => s.pldm (fun s =>
  if 96 ≤ k then s.reply ccRange
  else if s.fencedUnit ⟨.bay, k⟩ then s.reply ccFenced
  else if (s.pawl k).resetting then s.reply ccOk
  else ((s.writeBackBay k).resetBay k false).reply ccOk))

end Sys2Proof.Machine
end

