-- ==== Sys2Proof/Machine/Net.lean ====
section
/-!
DEFINITION. The Net (chapter 6): the ledgers as a function of the requests outstanding, fence and clearing notices, timeouts, link integrity,
the escape channel and ageing.
-/
namespace Sys2Proof.Machine

/-! ### The ledger (R200): the requests outstanding and their targets -/

/-- An access of a core that is itself a Net request; other loads wait for a line that their ply has requested. -/
def CoreAccess.onNet (c : Nat) (a : CoreAccess) : Bool :=
  a.dev || (match a.op with
    | .load _ => a.parts.any (fun p => match placeOf p.wpa with
        | .scratch y _ => y ≠ plyOfCore c
        | _ => false)
    | .store => false
    | .wfence => false
    | _ => true)

/-- The unit that a WPA's request from bay `k` goes to. -/
def unitAt (k wpa : Nat) : UnitRef := unitOf k (placeOf wpa)

/-- The host port whose link carries a read for a source. -/
def State.readPort (s : State) (src : Src) : Option UnitRef :=
  (s.ports.find? (fun e => e.2.tags.any (fun t => t.src = src && !t.discard))).map (fun e => ⟨.hostPort, e.1⟩)

/-- The unit that an outstanding request is addressed to. -/
def State.targetOf (s : State) (src : Src) : Option UnitRef :=
  match src with
  | .core c id => match (s.core c).accesses.find? (fun a => a.id = id) with
    | some a => if a.onNet c then (a.parts.head?).map (fun p => unitAt (bayOfCore c) p.wpa) else none
    | none => none
  | .ply y line => if (s.bus (bayOfPly y)).reqs.any (fun r => r.ply = y && r.line = line && r.pending) then some (unitAt (bayOfPly y) (64 * line)) else none
  | .walker k w => ((s.bay k).walks.find? (fun x => x.walker = w)).map (fun x => unitAt k x.entry)
  | .tackle i id => if (s.chan i).beats.any (fun b => b.id = id && b.sent) then s.readPort src else none
  | _ => none

/-- The router in whose ledger a source's requests stand. -/
def State.routerOfSrc (s : State) (src : Src) : Option Nat :=
  match src with
  | .core c _ => some (bayOfCore c)
  | .ply y _ => some (bayOfPly y)
  | .walker k _ => some k
  | .tackle i _ => match chPly i with
    | some y => some (bayOfPly y)
    | none => some (s.fld .HT_ID_BAY (chPort i))
  | _ => none

/-- The entries of router `k`'s ledger. -/
def State.ledger (s : State) (k : Nat) : List Src :=
  let cores := s.cores.flatMap (fun e => if bayOfCore e.1 = k then e.2.accesses.map (fun a => Src.core e.1 a.id) else [])
  let bus := (s.bus k).reqs.map (fun r => Src.ply r.ply r.line)
  let walks := (s.bay k).walks.map (fun w => Src.walker k w.walker)
  let beats := s.channels.flatMap (fun e => e.2.beats.map (fun b => Src.tackle e.1 b.id))
  (cores ++ bus ++ walks ++ beats).filter (fun x => (s.targetOf x).isSome && s.routerOfSrc x = some k)

/-- A unit that a notice covers: the unit itself, and every unit behind it (R201). -/
def State.covers (s : State) (u t : UnitRef) : Bool :=
  if u = t then true
  else match u.kind with
  | .router => s.routerOf t = some u.id
  | .bay => (match t.kind with
    | .core => bayOfCore t.id = u.id
    | .ply => bayOfPly t.id = u.id
    | _ => false)
  | .ply => (t.kind = .core && plyOfCore t.id = u.id)
  | _ => false

/-- The loads and drains of a ply that wait for a line are answered FENCED. -/
def State.fenceWaiters (s : State) (y line : Nat) : State :=
  (coresOf y).foldl (fun s c =>
    let s := ((s.core c).accesses.filter (fun a => !a.dev && (match a.op with
      | .load _ => a.parts.any (fun p => p.wpa / 64 = line)
      | _ => false))).foldl (fun s a => s.failAccess c a fcFenced 0) s
    match (s.core c).mb.find? (fun e => e.line = line && e.draining) with
    | some e => (s.freeMb c line).coreFault c { code := fcFenced, deferred := true, pc := e.pc, addr := e.dva }
    | none => s) s

/-- The proxy responder answers a request FENCED, and a later response is discarded (R102, R103). -/
def State.fenceSrc (s : State) (k : Nat) (src : Src) : State :=
  let s := (s.discardReads (· = src)).bump .NT_PROXY_COUNT_FENCED k 1
  let s := s.setRouter k { s.router k with packets := (s.router k).packets.filter (fun p => p.src ≠ src) }
  match src with
  | .core c id => match (s.core c).accesses.find? (fun a => a.id = id) with
    | some a => s.failAccess c a fcFenced 0
    | none => s
  | .ply y line => (s.dropReq y line).fenceWaiters y line
  | .walker b w => match (s.bay b).walks.find? (fun x => x.walker = w) with
    | some x => s.walkFault b x .tableFenced
    | none => s
  | .tackle i id => s.answerTackle i id .fenced
  | _ => s

/-- A notice that a router has not seen before: every ledger entry for a unit it covers is answered FENCED (R202). -/
def execFenceNotice (k : Nat) (u : UnitRef) (s : State) := commit s (fun s =>
  if 96 ≤ k ∨ !s.module.railsOn ∨ s.fences.routers.contains k ∨ (s.router k).noticed.contains u ∨ !s.unitDown u then s
  else
    let s := s.setRouter k { s.router k with noticed := (s.router k).noticed ++ [u] }
    (s.ledger k).foldl (fun s x => match s.targetOf x with
      | some t => if s.covers u t then s.fenceSrc k x else s
      | none => s) s)

/-- A clearing notice: the router stops answering requests for the unit FENCED (R201). -/
def execClearingNotice (k : Nat) (u : UnitRef) (s : State) := commit s (fun s =>
  if s.unitDown u then s
  else s.setRouter k { s.router k with noticed := (s.router k).noticed.filter (· ≠ u) })

/-- The units that a fence can remove (R629): a host or Bend port that fails silently is answered for, and logged. -/
def fenceable (u : UnitRef) : Bool :=
  match u.kind with
  | .core => true
  | .ply => true
  | .bay => true
  | .vault => true
  | .router => true
  | _ => false

/-- An entry's timeout has passed with no route change running (R193, R204): FENCED, logged, and the unit is fenced (DEDUCED, log entry 53). -/
def execNetTimeout (k : Nat) (src : Src) (s : State) := commit s (fun s =>
  if s.net.step ≠ 0 ∨ s.routerOfSrc src ≠ some k then s
  else match s.targetOf src with
  | none => s
  | some u =>
    let s := ((s.fenceSrc k src).bump .NT_LEDGER_TIMEOUTS k 1).event .netTimeout u
    if fenceable u then s.fenceUnit u 10 else s)

/-! ### Packets in buffers (R190, R195) -/

/-- The buffer entry of an outstanding request in a router. -/
def State.packet (s : State) (k : Nat) (src : Src) : Option Packet :=
  if k < 96 && s.module.railsOn && (s.targetOf src).isSome then
    some (((s.router k).packets.find? (fun p => p.src = src)).getD { src := src })
  else none

def State.setPacket (s : State) (k : Nat) (p : Packet) : State :=
  let r := s.router k
  s.setRouter k { r with packets := r.packets.filter (fun x => x.src ≠ p.src) ++ [p] }

/-- A head packet without credit moves to the ESC channel of its class and stays there (R190). -/
def execEscapeWait (k : Nat) (src : Src) (s : State) := commit s (fun s =>
  match s.packet k src with
  | some p => if p.esc ∨ p.held then s else (s.setPacket k { p with esc := true }).bump .NT_ESC_COUNT_ESCAPES k 1
  | none => s)

/-- 64 NCLK of waiting: AGE grows by one and saturates at 255 (R195, R196). -/
def execAgeIncrement (k : Nat) (src : Src) (s : State) := commit s (fun s =>
  match s.packet k src with
  | some p =>
    if p.age = 255 then s
    else
      let s := s.setPacket k { p with age := p.age + 1 }
      if p.age + 1 = 255 then s.bump .NT_AGE_SAT_COUNT_SATURATED k 1 else s
  | none => s)

/-- Packets queued for a lost part go into the hold buffers, at most 64 flits in a router (Table 6.5 step 2). -/
def State.holdPackets (s : State) : State :=
  s.routers.foldl (fun s e =>
    let cut := fun (p : Packet) => match (s.targetOf p.src).bind s.routerOf with
      | some d => s.routeCut d 20 e.1
      | none => false
    let held := e.2.packets.foldl (fun (acc : List Packet) p =>
      acc ++ [if cut p && decide ((acc.filter (·.held)).length < 64) then { p with held := true } else p]) []
    s.setRouter e.1 { e.2 with packets := held }) s

/-! ### Link integrity (R184, R185) -/

/-- A router none of whose links to a live neighbour is up is fenced. -/
def State.checkRouter (s : State) (k : Nat) : State :=
  if (liveNext s.lostNow k).isEmpty then s.fenceUnit ⟨.router, k⟩ 9 else s

/-- A link is down in both directions, and both routers log it. -/
def State.downLink (s : State) (k q : Nat) : State :=
  match neighbour k q with
  | none => s
  | some n =>
    if !s.module.railsOn ∨ s.fences.routers.contains k ∨ s.fences.routers.contains n ∨ (s.router k).down.contains q then s
    else
      let mark := fun (s : State) (k q : Nat) =>
        let s := s.setRouter k { s.router k with down := insertNat q (s.router k).down, retries := SMap.set 0 (s.router k).retries q 0 }
        (s.bump .NT_CRC_COUNT_DOWN k 1).event .netLinkDown ⟨.router, k⟩ none 0 0 q
      let s := (mark (mark s k q) n (opposite q)).startRoute.holdPackets
      (s.checkRouter k).checkRouter n

/-- A flit on the link of port `q` fails its CRC and is requested again; `again` when it is the flit of the last retry, whose sixteenth
consecutive failure takes the link down. -/
def execFlitCrcFail (k q : Nat) (again : Bool) (s : State) := commit s (fun s =>
  if !s.module.railsOn ∨ 96 ≤ k ∨ (neighbour k q).isNone ∨ (s.router k).down.contains q ∨ s.fences.routers.contains k then s
  else
    let n := if again then SMap.get 0 (s.router k).retries q + 1 else 1
    let s := (s.setRouter k { s.router k with retries := SMap.set 0 (s.router k).retries q n }).bump .NT_CRC_COUNT_RETRIES k 1
    if 16 ≤ n then s.downLink k q else s)

def execNetLinkDown (k q : Nat) (s : State) := commit s (fun s => s.downLink k q)

/-- A router reports an uncorrectable internal error and is fenced (R185). -/
def execRouterInternalError (k : Nat) (s : State) := commit s (fun s =>
  if 96 ≤ k then s else (s.fenceUnit ⟨.router, k⟩ 9).holdPackets)

end Sys2Proof.Machine
end

