-- ==== Sys2Proof/Machine/Power.lean ====
section
/-!
DEFINITION. Power, clocks and heat (chapter 16), and the pawls that dispatch tasks by slack and heat (R585 to R593): the envelope, slack ticks,
placement and dispatch, operating points, core states, the brake, the coolant term, thermal bands and trips. Energies of a pawl are in
tenths of a µJ, temperatures in eighths of a degree.
-/
namespace Sys2Proof.Machine

/-! ### Temperatures (R553, R554) -/

/-- The sensors of a bay: 32 of its cores, four of its logic. -/
def sensorsOf (k : Nat) : List Nat := span (36 * k) 36

/-- The sensor of a core. -/
def sensorOf (c : Nat) : Nat := 36 * bayOfCore c + c % 32

/-- The bay temperature: the highest valid reading. -/
def State.bayTemp (s : State) (k : Nat) : Nat :=
  (sensorsOf k).foldl (fun m i => if s.power.invalid.contains i then m else max m (SMap.get 0 s.power.temps i)) 0

/-- The temperature of a core: its sensor's reading, or the bay temperature plus 5 K. -/
def State.coreTemp (s : State) (c : Nat) : Nat :=
  if s.power.invalid.contains (sensorOf c) then s.bayTemp (bayOfCore c) + 40 else SMap.get 0 s.power.temps (sensorOf c)

/-- headroom(k) in eightieths (R587). -/
def State.headroom (s : State) (k : Nat) : Nat := min 80 (840 - s.bayTemp k)

/-! ### Thermal bands (Table 16.7) -/

/-- The lower edge of a band; band 5 is the hot band. -/
def bandEdge : Nat → Nat
  | 1 => 760
  | 2 => 780
  | 3 => 800
  | 4 => 820
  | 5 => 840
  | _ => 0

/-- The band that contains a reading. -/
def bandOf (t : Nat) : Nat := ((List.range 6).filter (fun b => bandEdge b ≤ t)).length - 1

/-- The band after a reading: up at once, down only past each lower edge minus 2 K. -/
def bandNext (old t : Nat) : Nat :=
  if old ≤ bandOf t then bandOf t
  else (((List.range (old + 1)).filter (fun b => bandEdge b ≤ t + 16)).foldl max 0)

/-- The thermal cap of a band. -/
def bandCap (b : Nat) : Nat := 4 - b

/-- A core's band. -/
def State.band (s : State) (c : Nat) : Nat := SMap.get 0 s.power.bands c

/-! ### The envelope (R543 to R548) -/

/-- The rack power cap in force, in W. -/
def State.capW (s : State) : Nat :=
  if s.cleat.capVolatile ≠ 0 then s.cleat.capVolatile else if s.nvm.live.cap ≠ 0 then s.nvm.live.cap else 21500

/-- A brake stands (R550). -/
def State.braked (s : State) : Bool := s.power.brake || s.power.pump

/-- The envelope in force, with the brake term or without. -/
def State.envelope (s : State) (brake : Bool) : Nat :=
  min (min 20000 (935 * (s.capW - 60) / 1000)) (min s.power.coolant (if brake then 12000 else 20000))

/-- CP_POWER follows a change of a term; the brake term itself changes at a tick. -/
def State.setEnvelope (s : State) : State :=
  if s.module.railsOn then s.setFld .CP_POWER_E_W 0 (s.envelope (decide (0 < s.power.brakeTicks))) else s

/-- The values loaded at step 12. -/
def State.loadPower (s : State) : State := s.setFld .CP_POWER_E_W 0 (s.envelope false)

/-! ### Operating points (R540 to R542, R588) -/

/-- The coil of a sealed core's fixed point, 7 for none. -/
def State.fixedOp (s : State) (c : Nat) : Nat :=
  match s.plyCoil (plyOfCore c) with
  | some k => if s.sealed k then s.fld .CP_COIL_CTL_FIXED_OP k else 7
  | none => 7

/-- The cap that a brake sets: OP0 until the second slack tick, then OP2. -/
def State.brakeCap (s : State) : Nat := if s.braked then (if s.power.brakeTicks < 2 then 0 else 2) else 4

/-- The ceiling of a core (R541): OP4, thermal cap, brake, fixed point. -/
def State.ceiling (s : State) (c : Nat) : Nat := min (min 4 (bandCap (s.band c))) (min s.brakeCap (s.fixedOp c))

/-- The ceiling for a task on a core, lowered to its ticket's OPMAX (R588). -/
def State.taskCeiling (s : State) (t c : Nat) : Nat := min (s.ceiling c) (s.task t).ticket.opmax

/-- The point that a core runs at once changes under way are done. -/
def State.goal (s : State) (c : Nat) : Nat :=
  match (s.core c).opNext, (s.core c).changing with
  | some p, _ => p
  | none, some p => p
  | none, none => s.fld .CR_STATUS_OP c

/-- A change of point: downward the clock switches first, upward after the ramp; a change asked for during a change waits (R542). -/
def State.setPoint (s : State) (c p : Nat) : State :=
  let x := s.core c
  if s.goal c = p then s
  else match x.changing with
  | some g => s.setCore c { x with opNext := if g = p then none else some p }
  | none =>
    let s := s.setCore c { x with changing := some p }
    if p < s.fld .CR_STATUS_OP c then s.setFld .CR_STATUS_OP c p else s

/-- The change completes, and a queued change begins. -/
def execOpChangeDone (c : Nat) (s : State) := commit s (fun s =>
  let x := s.core c
  match x.changing with
  | none => s
  | some p =>
    let s := (s.setCore c { x with changing := none, opNext := none }).setFld .CR_STATUS_OP c p
    match x.opNext with
    | some q => s.setPoint c q
    | none => s)

/-- The tasks on the cores of a bay, with their cores. -/
def State.runningIn (s : State) (k : Nat) : List (Nat × Nat) :=
  s.cap.tasks.filterMap (fun e => match e.2.state with
    | .running c => if bayOfCore c = k then some (e.1, c) else none
    | .starting c => if bayOfCore c = k then some (e.1, c) else none
    | _ => none)

/-- Every core that runs a task. -/
def State.allRunning (s : State) : List (Nat × Nat) :=
  s.cap.tasks.filterMap (fun e => match e.2.state with
    | .running c => some (e.1, c)
    | .starting c => some (e.1, c)
    | _ => none)

/-- A lowered ceiling takes effect on a core that runs a task. -/
def State.obeyCeiling (s : State) (t c : Nat) : State :=
  let p := s.taskCeiling t c
  if p < s.goal c then s.setPoint c p else s

/-- The sealed coils that a thermal cap or a brake holds below their fixed point; each episode is logged once (R541). -/
def State.noteLowered (s : State) : State :=
  let low := (List.range 32).filter (fun c =>
    let f := s.fld .CP_COIL_CTL_FIXED_OP c
    s.sealed c && decide (f ≤ 4) && (decide (s.brakeCap < f) ||
      s.power.bands.any (fun e => s.plyCoil (plyOfCore e.1) = some c && decide (bandCap e.2 < f))))
  let new := low.filter (fun c => !s.power.lowered.contains c)
  let s : State := { s with power := { s.power with lowered := low } }
  new.foldl (fun s c => s.event .sealedOpLowered ⟨.none, 0⟩ (some c)) s

/-! ### Slack ticks (R587, R588) -/

/-- cost[p] for one tick, in tenths of a µJ. -/
def opCost : Nat → Nat
  | 0 => 146
  | 1 => 245
  | 2 => 367
  | 3 => 535
  | _ => 700

/-- The tasks queued at a pawl. -/
def State.queuedAt (s : State) (k : Nat) : List Nat := s.tasksOf (fun t => t.state = .queued k)

/-- A core that runs no task and can take one (R592): not fenced, not resetting, not waking, not under test. -/
def State.coreFree (s : State) (c : Nat) : Bool :=
  let x := s.core c
  s.coreAble c && !x.running && !x.ending && !x.resetting && !x.waking && !x.patrol && (s.tasksOn (· = c)).isEmpty

/-- What a bay measured over the last tick. -/
def measOf (m : TickMeas) (k : Nat) : BayMeas := (m.bays.find? (fun b => b.bay = k)).getD { bay := k }

/-- The idle term of a bay (R588). -/
def idleOf (b : BayMeas) : Nat := b.used - b.metered

/-- The sealed coil that owns plies of a bay. -/
def State.sealedBay (s : State) (k : Nat) : Option Nat := (s.sealedIn k).head?

/-- The head's part: give[k] for every bay (R587). -/
def State.gives (s : State) (m : TickMeas) (allow : Nat) : List Nat × Bool :=
  let ks := List.range 96
  let b : Int := ((allow : Int) - m.nonbay) * 10
  let idle := ks.foldl (fun n k => n + idleOf (measOf m k)) 0
  let room : Int := b - idle
  let coils := s.sealedCoils
  let sealed := coils.foldl (fun n c => n + 10 * s.fld .CP_COIL_POWER_SHARE_W c) 0
  let short := decide (room < sealed)
  let num := if short then room.toNat else 1
  let den := if short then max sealed 1 else 1
  let nbays := fun (c : Nat) => max 1 (ks.filter (fun k => s.sealedBay k = some c)).length
  let rest := (room - sealed).toNat
  let demand := fun (k : Nat) => (s.cap.tasks.filter (fun e => !s.sealed e.2.coil && (match e.2.state with
    | .queued j => j = k
    | .running c => bayOfCore c = k
    | .starting c => bayOfCore c = k
    | _ => false))).length
  let enabled := fun (k : Nat) => ((span (32 * k) 32).filter (fun c => !s.fences.cores.contains c)).length
  let w := ks.map (fun k =>
    if (s.sealedBay k).isSome || s.fencedUnit ⟨.bay, k⟩ || (s.pawl k).tripped then 0 else min (demand k) (enabled k) * s.headroom k)
  let wsum := w.foldl (· + ·) 0
  (ks.map (fun k =>
    idleOf (measOf m k) + (match s.sealedBay k with
      | some c => num * (10 * s.fld .CP_COIL_POWER_SHARE_W c) / (den * nbays c)
      | none => 0) + (if wsum = 0 then 0 else rest * (w.getD k 0) / wsum)), short)

/-- raise(): the coolest running core below its ceiling goes up one point while what is left pays the difference. `pts` are (task, core, point). -/
def State.raise (s : State) : Nat → Int → List (Nat × Nat × Nat) → Int × List (Nat × Nat × Nat)
  | 0, left, pts => (left, pts)
  | fuel + 1, left, pts =>
    let can := pts.filter (fun x => decide (x.2.2 < s.taskCeiling x.1 x.2.1))
    match can.foldl (fun (best : Option (Nat × Nat × Nat)) x => match best with
      | some y => if s.coreTemp x.2.1 < s.coreTemp y.2.1 ∨ (s.coreTemp x.2.1 = s.coreTemp y.2.1 ∧ x.2.1 < y.2.1) then some x else some y
      | none => some x) none with
    | none => (left, pts)
    | some x =>
      let d : Int := (opCost (x.2.2 + 1) : Int) - opCost x.2.2
      if left < d then (left, pts)
      else s.raise fuel (left - d) (pts.map (fun y => if y.2.1 = x.2.1 then (y.1, y.2.1, y.2.2 + 1) else y))

/-- The pawl's part of a tick (R588). -/
def State.pawlTick (s : State) (k give : Nat) (b : BayMeas) : State :=
  let p := s.pawl k
  let run := s.runningIn k
  let bal := min (p.bal + 10 * give - 10 * b.used) (2 * (10 * give : Int))
  let past := decide (bal - 10 * idleOf b < 0)
  let spend : Int := max 0 (bal - 10 * idleOf b)
  let free := ((span (32 * k) 32).filter s.coreFree).length
  let n := run.length + min (s.queuedAt k).length free
  let target := ((List.range 5).filter (fun q => q = 0 || decide ((n * opCost q : Int) ≤ spend))).foldl max 0
  let point := fun (x : Nat × Nat) => if (s.fixedOp x.2) < 5 then s.taskCeiling x.1 x.2 else min target (s.taskCeiling x.1 x.2)
  let pts := run.map (fun x => (x.1, x.2, point x))
  let left := spend - pts.foldl (fun (a : Int) x => a + opCost x.2.2) 0
  let r := s.raise 160 left pts
  let s := s.setPawl k { p with bal := bal, left := r.1, target := target }
  let s := r.2.foldl (fun s x => s.setPoint x.2.1 x.2.2) s
  let s := s.setFld .CPW_ENERGY_IDLE k (idleOf b) |>.setFld .CPW_ENERGY_USED k b.used
  if past then (s.bump .CPW_DISPATCH_OVERSPEND k 1).event .bayOverspend ⟨.bay, k⟩ else s

/-- The brake's part of a tick (R551, R552): the term enters or leaves E; BRAKE_ON is logged at the second tick, BRAKE_OFF when the term leaves (DEDUCED, log entry 57). -/
def State.brakeTick (s : State) : State :=
  if s.braked then
    let n := min 2 (s.power.brakeTicks + 1)
    let log := n = 2 && !s.power.brakeLogged
    let s : State := { s with power := { s.power with brakeTicks := n, brakeLogged := s.power.brakeLogged || log } }
    if log then s.event .brakeOn else s
  else if s.power.brakeTicks = 0 then s
  else
    let log := s.power.brakeLogged
    let s : State := { s with power := { s.power with brakeTicks := 0, brakeLogged := false } }
    if log then s.event .brakeOff else s

def execSlackTick (m : TickMeas) (s : State) := commit s (fun s =>
  if !s.module.railsOn ∨ s.module.wakeState ≠ .ready then s
  else
    let s := s.brakeTick
    let e := s.envelope s.braked
    let allow := min e (m.pMeas + 180)
    let g := s.gives m allow
    let s := s.bump .CP_TICK_TICKS 0 1 |>.setFld .CP_POWER_E_W 0 e |>.setFld .CP_POWER_ALLOW_W 0 allow
      |>.setFld .CP_POWER_PMEAS_W 0 m.pMeas |>.setFld .CP_POWER_NONBAY_W 0 m.nonbay
    let s := if g.2 then s.event .sealedPowerDegraded else s
    let s := (List.range 96).foldl (fun s k =>
      let give := g.1.getD k 0
      let s := s.setFld .CP_BAY_GIVE k give |>.setFld .CP_BAY_HEADROOM k (s.headroom k * 1024 / 80)
      if s.fencedUnit ⟨.bay, k⟩ ∨ (s.pawl k).tripped ∨ (s.pawl k).resetting then s else s.pawlTick k give (measOf m k)) s
    (s.governorTick (20 * (e - 7000))).noteLowered)

/-! ### Placement (R590, R591) -/

/-- 4^n µJ of a task's class. -/
def classUj (n : Nat) : Nat := 4 ^ n

/-- The class energy queued at a bay. -/
def State.queuedUj (s : State) (k : Nat) : Nat := (s.queuedAt k).foldl (fun n t => n + classUj (s.task t).ticket.eclass) 0

/-- A bay may take a ready task of a coil. -/
def State.qualifies (s : State) (t k : Nat) : Bool :=
  let x := s.task t
  let share := s.fld .CP_BAY_GIVE k - s.fld .CPW_ENERGY_IDLE k
  s.bayAble x.coil k && !s.fencedUnit ⟨.bay, k⟩ && decide (s.bayTemp k < 840) &&
    (s.sealed x.coil || decide (s.queuedUj k + classUj x.ticket.eclass ≤ max (4 * share) (classUj x.ticket.eclass))) &&
    (!(x.ticket.strict && x.ticket.aff) || bayOfCore x.ticket.core = k)

/-- Predicted spend of a bay with one more task, in tenths of a µJ (R591). -/
def State.predicted (s : State) (k : Nat) : Nat :=
  (s.runningIn k).foldl (fun n x => n + opCost (s.goal x.2)) 0 + opCost (s.pawl k).target * ((s.queuedAt k).length + 1)

/-- Bay `a` ranks before bay `b` for a task (R591). -/
def State.ranksBefore (s : State) (t a b : Nat) : Bool :=
  let x := s.task t
  let aff := fun (k : Nat) => x.ticket.aff && !s.fences.cores.contains x.ticket.core && bayOfCore x.ticket.core = k
  let near := fun (k : Nat) => (span (32 * k) 32).any (fun c =>
    s.plyCoil (plyOfCore c) = some x.coil && s.coreFree c && decide (s.fld .CR_STATUS_PSTATE c ≤ 2))
  let net := fun (k : Nat) => (10 * s.fld .CP_BAY_GIVE k : Int) - s.predicted k
  if aff a ≠ aff b then aff a
  else if near a ≠ near b then near a
  else if s.headroom a ≠ s.headroom b then decide (s.headroom b < s.headroom a)
  else if net a ≠ net b then decide (net b < net a)
  else decide (a < b)

/-- The first bay in rank. -/
def State.bestBay (s : State) (t : Nat) : Option Nat :=
  ((List.range 96).filter (s.qualifies t)).foldl (fun best k => match best with
    | some b => if s.ranksBefore t k b then some k else some b
    | none => some k) none

/-- The head moves a ready task into a bay, or it stays at the head. -/
def execTaskPlacement (t : Nat) (s : State) := commit s (fun s =>
  if (s.task t).state ≠ .ready then s
  else match s.bestBay t with
  | some k => s.setTask t { s.task t with state := .queued k }
  | none => s)

/-! ### Task start (R411, Tables 12.1 and 12.2) -/

/-- The state of a core at the start of a task: registers zero but for the arguments, L1 caches and tile store as its power state left
them. -/
def Core.startTask (x : Core) (t : Nat) (k : Task) : Core :=
  let x' := ((List.range 8).foldl (fun (y : Core) i => y.setG (i + 1) (BitVec.ofNat 64 (k.ticket.args.getD i 0)))
    { pc := k.entry, tile := x.tile, tilePoison := x.tilePoison, l1i := x.l1i, l1d := x.l1d, itb := x.itb, dtb := x.dtb, nextAcc := x.nextAcc,
      running := true, task := some t, coil := some k.coil, skein := some k.ticket.skein, ueAt := x.ueAt, tileUe := x.tileUe,
      opNext := x.opNext, changing := x.changing })
  x'.setCr ccSeed k.ticket.seed

/-- The core starts its task. -/
def State.beginTask (s : State) (t c : Nat) : State :=
  let k := s.task t
  let s := s.setCore c ((s.core c).startTask t k)
  let s := s.setTask t { k with state := .running c, lastCore := some c }
  s.setFld .CR_STATUS_PSTATE c 0 |>.setFld .CR_TASK_TASK_ID c k.ticket.taskId

/-! ### Dispatch (R589, R592) -/

/-- The wake energy of a core state, in tenths of a µJ (Table 16.3). -/
def wakeCost : Nat → Nat
  | 3 => 9
  | 4 => 60
  | _ => 0

/-- The order in which a pawl prefers free cores (R592). -/
def State.corePrefers (s : State) (t a b : Nat) : Bool :=
  let x := (s.task t).ticket
  let rank := fun (c : Nat) => max 1 (s.fld .CR_STATUS_PSTATE c)
  if (x.aff && x.core = a) ≠ (x.aff && x.core = b) then x.aff && x.core = a
  else if rank a ≠ rank b then decide (rank a < rank b)
  else if s.coreTemp a ≠ s.coreTemp b then decide (s.coreTemp a < s.coreTemp b)
  else decide (a < b)

/-- The best of the cores of a bay that `f` names. -/
def State.bestCore (s : State) (t k : Nat) (f : Nat → Bool) : Option Nat :=
  ((span (32 * k) 32).filter f).foldl (fun best c => match best with
    | some b => if s.corePrefers t c b then some c else some b
    | none => some c) none

/-- The core that a dispatch of a task chooses: a free one, or, when none is free, one whose patrol test it aborts (R632) (DEDUCED, log entry 59). -/
def State.chooseCore (s : State) (t k : Nat) : Option Nat :=
  let x := s.task t
  let mine := fun (c : Nat) => s.plyCoil (plyOfCore c) = some x.coil && (!(x.ticket.strict && x.ticket.aff) || c = x.ticket.core)
  match s.bestCore t k (fun c => mine c && s.coreFree c) with
  | some c => some c
  | none => s.bestCore t k (fun c => mine c && s.coreAble c && (s.core c).patrol)

/-- The highest point, not above the pawl's target and the ceiling, that what is left pays with the wake; a sealed coil's core takes its
ceiling (DEDUCED, log entry 58). -/
def State.payable (s : State) (t k c : Nat) : Option Nat :=
  let top := if s.fixedOp c < 5 then s.taskCeiling t c else min (s.pawl k).target (s.taskCeiling t c)
  let pays := fun (p : Nat) => decide ((opCost p + wakeCost (s.fld .CR_STATUS_PSTATE c) : Int) ≤ (s.pawl k).left)
  if s.fixedOp c < 5 then (if pays top then some top else none)
  else ((List.range (top + 1)).filter pays).getLast?

/-- The first task of a coil's queue at a pawl that can start, with its core and point; a STRICT task whose affinity core is not free
is passed over, any other that cannot start holds the queue. -/
def State.headOfQueue (s : State) (k : Nat) : List Nat → Option (Nat × Nat × Nat)
  | [] => none
  | t :: rest =>
    let x := s.task t
    match s.chooseCore t k with
    | none => if x.ticket.strict && x.ticket.aff then s.headOfQueue k rest else none
    | some c => (s.payable t k c).map (fun p => (t, c, p))

/-- The next dispatch of a pawl for one coil. -/
def State.coilDispatch (s : State) (k coil : Nat) : Option (Nat × Nat × Nat) :=
  if s.flag .CP_COIL_CTL_PAUSED coil then none
  else s.headOfQueue k (s.bySeq (s.tasksOf (fun t => t.coil = coil && t.state = .queued k)))

/-- A wake of a core starts the bay PLL if it is stopped (R536). -/
def State.wakeCore (s : State) (c : Nat) : State :=
  let k := bayOfCore c
  let s := s.setCore c { s.core c with waking := true }
  if s.flag .CPW_STATUS_PLL k then s else s.setPawl k { s.pawl k with relocking := true }

/-- A task is dispatched: its charge is deducted, and it starts at once on a core that is not parked, or after the core's wake. -/
def State.dispatchTask (s : State) (k t c p : Nat) : State :=
  let st := s.fld .CR_STATUS_PSTATE c
  let w := s.pawl k
  let s := s.setPawl k { w with left := w.left - (opCost p + wakeCost st : Nat), last := (s.task t).coil }
  let s := s.bump .CPW_DISPATCH_COUNT k 1
  let s := (s.setCore c { s.core c with patrol := false, changing := none, opNext := none }).setFld .CR_STATUS_OP c p
  let s := s.setTask t { s.task t with state := .starting c, lastCore := some c }
  if st < 2 then s.beginTask t c else s.wakeCore c

/-- The pawl may dispatch: its bay is neither tripped nor resetting nor fenced. -/
def State.pawlUp (s : State) (k : Nat) : Bool :=
  s.module.railsOn && decide (k < 96) && !(s.pawl k).tripped && !(s.pawl k).resetting && !s.fencedUnit ⟨.bay, k⟩

/-- The coils of a bay are served in round robin after the last one. -/
def execDispatch (k : Nat) (s : State) := commit s (fun s =>
  if !s.pawlUp k then s
  else
    let order := (List.range 32).map (fun i => ((s.pawl k).last + 1 + i) % 32)
    match order.findSome? (s.coilDispatch k) with
    | some (t, c, p) => s.dispatchTask k t c p
    | none => s)

/-- A core's task has ended: the next queued task of the same coil starts on it if R589 allows, else it is parked (R593). -/
def State.afterTask (s : State) (c coil : Nat) : State :=
  let k := bayOfCore c
  let next := if s.pawlUp k then s.coilDispatch k coil else none
  match next with
  | some (t, c', p) => if c' = c then s.dispatchTask k t c p else s.setFld .CR_STATUS_PSTATE c 2
  | none => s.setFld .CR_STATUS_PSTATE c 2

/-! ### Core states (R536 to R539, R593, Table 12.8) -/

/-- What RETAIN and DARK lose: registers and control registers, L1 caches and translations; DARK loses the tile store too. -/
def State.park (s : State) (c st : Nat) : State :=
  let x := s.core c
  let y := plyOfCore c
  let gone := fun (l : CLine) => { l with presence := l.presence.filter (· ≠ c % 8) }
  let s := s.setPly y { s.ply y with cache := (s.ply y).cache.map (fun e => (e.1, gone e.2)), victim := (s.ply y).victim.map (fun e => (e.1, gone e.2)) }
  (s.setCore c { nextAcc := x.nextAcc, ueAt := x.ueAt, tileUe := x.tileUe, tile := if st = 4 then [] else x.tile,
                 tilePoison := if st = 4 then [] else x.tilePoison }).setFld .CR_STATUS_PSTATE c st

/-- A core that holds no task and is neither waking nor resetting. -/
def State.coreIdle (s : State) (c : Nat) : Bool :=
  let x := s.core c
  decide (c < Config.cores) && s.module.railsOn && !x.running && !x.ending && !x.waking && !x.resetting && !x.patrol && (s.tasksOn (· = c)).isEmpty

def execCoreParkRetain (c : Nat) (s : State) := commit s (fun s =>
  if s.coreIdle c && s.fld .CR_STATUS_PSTATE c = 2 then s.park c 3 else s)

def execCoreParkDark (c : Nat) (s : State) := commit s (fun s =>
  if s.coreIdle c && s.fld .CR_STATUS_PSTATE c = 3 && s.fld .CP_PARK_DARK_MS 0 ≠ 0 then s.park c 4 else s)

/-- A core reaches RUN, once its bay PLL is locked too, and starts its task. -/
def execCoreWakeDone (c : Nat) (s : State) := commit s (fun s =>
  if !(s.core c).waking ∨ !s.flag .CPW_STATUS_PLL (bayOfCore c) then s
  else
    let st := s.fld .CR_STATUS_PSTATE c
    let s := if st = 3 then s.bump .CR_WAKES_FROM_RETAIN c 1 else if st = 4 then s.bump .CR_WAKES_FROM_DARK c 1 else s
    let s := (s.setCore c { s.core c with waking := false }).setFld .CR_STATUS_PSTATE c 0
    match s.tasksOf (fun t => t.state = .starting c) with
    | t :: _ => s.beginTask t c
    | [] => s)

/-- No core of the bay has been in RUN, STALL or CLKSTOP for 200 µs; a wake under way abandons the stop (Table 16.9). -/
def execBayPllStop (k : Nat) (s : State) := commit s (fun s =>
  if (span (32 * k) 32).all (fun c => decide (2 < s.fld .CR_STATUS_PSTATE c) && !(s.core c).waking) then s.setFld .CPW_STATUS_PLL k 0 else s)

def execBayPllLock (k : Nat) (s : State) := commit s (fun s =>
  if (s.pawl k).relocking then (s.setPawl k { s.pawl k with relocking := false }).setFld .CPW_STATUS_PLL k 1 else s)

/-! ### Wafer reset (Table 3.5) -/

/-- What chapter 16 keeps through a wafer reset: pins, coolant sensing and the history of trips. -/
def Power.wakeKeep (p : Power) : Power :=
  { brake := p.brake, pump := p.pump, coolant := p.coolant, derated := p.derated, trips := p.trips, causes := p.causes, manual := p.manual,
    tin := p.tin, flow := p.flow, failed := p.failed, capFaults := p.capFaults }

/-- The fields of the CL_ block, which the always-on domain keeps through a wafer reset (Table 3.6). -/
def isCl (n : Nat) : Bool :=
  inBlock .CL_ID_PORT .CL_PLOG_ENTRY_WORD n || inBlock .CL_CAPACITY_CORES .CL_CAPACITY_FENCE_GEN n

/-- The wafer reset (Table 3.5): all compute-rail state takes its reset values, every host and Bend link goes down; the
always-on domain, NVM, the event log, GPIO claims and the plate are kept. -/
def State.waferOff (s : State) : State :=
  { State.reset with
    pending := s.pending
    clockUs := s.clockUs
    fresh := s.fresh
    out := s.out
    module := { s.module with railsOn := false, wakeStep := 0, step7 := [], rigLoaded := false }
    outputs := s.outputs
    regs := SMap.dropIf s.regs (fun k _ => !isCl (k % 512))
    log := s.log
    nvm := s.nvm
    plate := s.plate
    cleat := { s.cleat with skv := none, verified := [] }
    power := s.power.wakeKeep
    fences := s.fences }

/-- A warm wake starts at step 4 (R78); full mode follows the stored self-test mode (R80) (DEDUCED, log entry 49). -/
def State.warmWake (s : State) : State :=
  let s := s.waferOff
  let m := { s.module with wakeStep := 4, full := decide (s.nvm.live.testMode ≠ .quick), railsOn := false, inputBad := false,
                           wakeState := .boot, wakeCount := s.module.wakeCount + 1, tripped := none, rated := false }
  ({ s with module := m, log := { s.log with next := 0 }, power := { s.power with causes := [], manual := false } } : State).plateWord .waking

/-! ### Wafer trips (R557, R558) -/

/-- The causes of Table 16.8, coded in its order from 1: the first five are thermal. -/
def wtThermal : Nat := 1
def wtPump : Nat := 5
def wtInput : Nat := 6
def wtLeak : Nat := 7

/-- A wafer trip: every compute rail is removed, the cause is latched, and the plate reads TRIPPED. The third thermal trip within 24 h, and a
leak, are recovered only by PLDM wafer reset (DEDUCED, log entry 48). -/
def State.tripWafer (s : State) (cause : Nat) : State :=
  if !s.module.aoOn then s
  else
    let thermal := decide (cause ≤ 5)
    let recent := s.power.trips.filter s.within24h
    let trips := if thermal then recent ++ [s.clockUs] else recent
    let s := s.waferOff
    let s : State := { s with module := { s.module with tripped := some cause, wakeState := .boot }
                              power := { s.power with trips := trips, causes := insertNat cause s.power.causes
                                                      manual := s.power.manual || cause = wtLeak || (thermal && decide (3 ≤ trips.length)) } }
    (s.event .waferTrip ⟨.none, 0⟩ none 0 0 cause).plateWord .tripped

def execWaferTrip (cause : Nat) (s : State) := commit s (fun s => if 1 ≤ cause ∧ cause ≤ 7 then s.tripWafer cause else s)

/-- The recovery conditions have held: a warm wake starts, unless only a PLDM wafer reset may. -/
def execWaferTripRecovery (s : State) := commit s (fun s =>
  if s.module.aoOn && s.module.tripped.isSome && !s.power.manual then s.warmWake.nvmPump else s)

/-- The Capstan head misses its heartbeat (R659): wafer reset and warm wake; the third within 24 h makes no wake. -/
def execCapstanWatchdog (s : State) := commit s (fun s =>
  if !s.module.railsOn then s
  else
    let times := s.power.capFaults.filter s.within24h ++ [s.clockUs]
    let s := s.event .capstanFault ⟨.central, 0⟩
    if 3 ≤ times.length then
      let s := s.waferOff
      { s with module := { s.module with wakeState := .failed }, power := { s.power with capFaults := times } }
    else
      let s := s.warmWake
      { s with power := { s.power with capFaults := times } })

/-- The input leaves 46.0 to 62.0 V for 100 µs (R56, R57): as a wafer trip; no NVM write starts below 46.0 V. -/
def execInputRange (low : Bool) (s : State) := commit s (fun s =>
  if s.module.aoOn then
    (({ s with module := { s.module with inputBad := s.module.inputBad || low } } : State).event .inputRange).tripWafer wtInput
  else s)

/-- Input power is lost (R57): everything stops, and the copy being programmed completes within the hold-up or is torn. -/
def execInputLoss (copied : Bool) (s : State) := commit s (fun s =>
  if !s.module.aoOn then s
  else
    let s := s.waferOff
    let nvm := match s.nvm.writing with
      | some (obj, c) =>
        if copied then { s.nvm with stored := NvmObjects.copy obj c s.nvm.stored, writing := none, queue := [] }
        else { s.nvm with torn := insertNat obj s.nvm.torn, writing := none, queue := [] }
      | none => { s.nvm with queue := [] }
    { s with module := { s.module with aoOn := false, wakeState := .off }, nvm := nvm, cleat := { s.cleat with running := false } })

/-! ### The brake (R550 to R552) -/

/-- Step 1: every core in RUN or STALL goes to OP0. -/
def State.brakeNow (s : State) : State :=
  let s : State := { s with power := { s.power with brakeTicks := 0, brakeLogged := false } }
  (s.allRunning.foldl (fun s x => s.setPoint x.2 0) s).noteLowered

def execPwrbrakeNAssert (s : State) := commit s (fun s =>
  if s.power.brake then s
  else
    let was := s.braked
    let s : State := { s with power := { s.power with brake := true } }
    if was then s else s.brakeNow)

def execPwrbrakeNDeassert (s : State) := commit s (fun s => { s with power := { s.power with brake := false } })

/-- PUMP_FAULT_IN, where the function holds GPIO2, engages the brake and logs PUMP_FAULT; the trip after 5 s is WAFER_TRIP. -/
def execPumpFaultIn (s : State) := commit s (fun s =>
  if !s.module.aoOn ∨ s.fld .CL_GPIO_FUNC 2 ≠ 5 ∨ s.power.pump then s
  else
    let was := s.braked
    let s := ({ s with power := { s.power with pump := true } } : State).event .pumpFault
    if was then s else s.brakeNow)

def execPumpFaultInRelease (s : State) := commit s (fun s => { s with power := { s.power with pump := false } })

/-- LEAK_IN, where the function holds GPIO0: a wafer trip, and COOLANT_LEAK. -/
def execLeakIn (s : State) := commit s (fun s =>
  if !s.module.aoOn ∨ s.fld .CL_GPIO_FUNC 0 ≠ 2 then s else (s.event .coolantLeak).tripWafer wtLeak)

/-! ### Coolant (R544, R749) -/

/-- The coolant term in W from Tin and flow in tenths. -/
def coolantTerm (tin flow : Nat) : Nat :=
  let a : Int := 663 * (flow : Int) * (820 - (tin : Int)) / 1000 - 900
  let b : Int := if 600 < tin then 20000 - 204 * ((tin : Int) - 600) else a
  (min a b).toNat

/-- Cleat's update, `none` for a sensor that fails its check: then 60 °C and 14 L/min stand in the term. A fall takes effect at once, a rise by
at most 100 W in each 100 ms (DEDUCED, log entry 60). -/
def execCoolantTermUpdate (tin tout flow : Option Nat) (s : State) := commit s (fun s =>
  if !s.cleatUp then s
  else
    let bad := (if tin.isNone then [1] else []) ++ (if tout.isNone then [2] else []) ++ (if flow.isNone then [3] else [])
    let new := bad.filter (fun i => !s.power.failed.contains i)
    let t := if bad.isEmpty then coolantTerm (tin.getD 600) (flow.getD 140) else coolantTerm 600 140
    let c := if t ≤ s.power.coolant then t else min t (s.power.coolant + 100)
    let der := decide (c < 20000)
    let flip := decide (der ≠ s.power.derated)
    let s : State := { s with power := { s.power with coolant := c, derated := der, failed := bad, tin := tin.getD 600, flow := flow.getD 140 } }
    let s := new.foldl (fun s i => s.event .sensorFault ⟨.none, 0⟩ none 0 0 i) s
    (if flip then s.event .coolantDerate else s).setEnvelope)

/-! ### Rack power cap (R548, R549, R755) -/

/-- A cap of 0 clears; any other lies within 8,000 to 21,500 W. An accepted change is logged with the old and new values. -/
def State.changeCap (s : State) (w : Nat) (f : State → State) : State :=
  if w ≠ 0 ∧ (w < 8000 ∨ 21500 < w) then s.reply ccInvalidData
  else
    let old := s.capW
    let s := (f s).setEnvelope
    (if s.capW = old then s else s.event .powerCap ⟨.none, 0⟩ none 0 0 old s.capW).reply ccOk

def execPowerCapVolatile (w : Nat) (s : State) := commit s (fun s => s.pldm (fun s =>
  s.changeCap w (fun s => { s with cleat := { s.cleat with capVolatile := w } })))

def execPowerCapPersistent (w : Nat) (s : State) := commit s (fun s => s.pldm (fun s =>
  s.changeCap w (fun s => ({ s with nvm := { s.nvm with live := { s.nvm.live with cap := w } } } : State).journal 5)))

/-! ### Sensors, bands and bay trips (R554 to R556) -/

/-- An event of a bay at most once per second (R555). -/
def State.once1s (s : State) (last : Option Nat) : Bool :=
  match last with
  | some t => decide (t + 1000000 ≤ s.clockUs)
  | none => true

/-- The hottest band of a bay. -/
def State.bayBand (s : State) (k : Nat) : Nat := (span (32 * k) 32).foldl (fun m c => max m (s.band c)) 0

/-- A core's band follows its temperature; the cap takes effect on the task it runs, an idle core that enters the hot band goes to RETAIN,
tasks queued where their coil has no able core left return to the head. -/
def State.rebandCore (s : State) (c : Nat) : State :=
  let old := s.band c
  let b := bandNext old (s.coreTemp c)
  if b = old then s
  else
    let k := bayOfCore c
    let was := s.bayBand k
    let s : State := { s with power := { s.power with bands := SMap.set 0 s.power.bands c b } }
    let s := (s.tasksOn (· = c)).foldl (fun s t => s.obeyCeiling t c) s
    let s := if b = 5 && s.coreIdle c && decide (s.fld .CR_STATUS_PSTATE c < 3) then s.park c 3 else s
    let now := s.bayBand k
    let p := s.pawl k
    let s := if was = 0 && 1 ≤ now && now < 5 && s.once1s p.throttleAt then
        (s.setPawl k { p with throttleAt := some s.clockUs }).event .thermalThrottle ⟨.bay, k⟩ else s
    let p := s.pawl k
    let s := if was < 5 && now = 5 && s.once1s p.hotAt then (s.setPawl k { p with hotAt := some s.clockUs }).event .bayHot ⟨.bay, k⟩ else s
    (if b = 5 then s.unqueue (fun j t => j = k && !s.bayAble t.coil j) else s).noteLowered

/-- The cores of a bay whose sensor is invalid follow the bay temperature. -/
def State.rebandInvalid (s : State) (k : Nat) : State :=
  ((span (32 * k) 32).filter (fun c => s.power.invalid.contains (sensorOf c))).foldl State.rebandCore s

/-- A sensor's reading, in eighths of a degree. -/
def execThermalBandChange (sensor reading : Nat) (s : State) := commit s (fun s =>
  if !s.module.railsOn ∨ 3456 ≤ sensor ∨ s.power.invalid.contains sensor then s
  else
    let k := sensor / 36
    let s : State := { s with power := { s.power with temps := SMap.set 0 s.power.temps sensor (min 1200 reading) } }
    let s := if sensor % 36 < 32 then s.rebandCore (32 * k + sensor % 36) else s
    s.rebandInvalid k)

/-- A bay trip (R556): the bay reset of Table 3.5; the third within 24 h fences the bay's cores, and the rails stay off. -/
def State.tripBay (s : State) (k : Nat) : State :=
  if !s.module.railsOn ∨ 96 ≤ k ∨ (s.pawl k).tripped then s
  else
    let times := (s.pawl k).trips.filter s.within24h ++ [s.clockUs]
    let third := decide (3 ≤ times.length)
    let s := s.setPawl k { s.pawl k with tripped := true, trips := times, limit := third }
    if third && !s.fencedUnit ⟨.bay, k⟩ then
      ((s.event .bayTrip ⟨.bay, k⟩).fenceUnit ⟨.bay, k⟩ 8).event .bayTripLimit ⟨.bay, k⟩
    else (s.resetBay k true).event .bayTrip ⟨.bay, k⟩

def execBayTrip (k : Nat) (s : State) := commit s (fun s => s.tripBay k)

/-- Every sensor of the bay has read 90 °C or below for 100 ms: the rails return and the bay runs its self-test. -/
def execBayTripRecovery (k : Nat) (s : State) := commit s (fun s =>
  let p := s.pawl k
  if p.tripped && !p.limit then s.setPawl k { p with tripped := false } else s)

/-- A sensor is invalid; a bay with no valid sensor is tripped as if at 115 °C. -/
def execSensorFault (sensor : Nat) (s : State) := commit s (fun s =>
  if !s.module.railsOn ∨ 3456 ≤ sensor ∨ s.power.invalid.contains sensor then s
  else
    let k := sensor / 36
    let s := ({ s with power := { s.power with invalid := insertNat sensor s.power.invalid } } : State).event .sensorFault ⟨.sensor, sensor⟩
    let s := s.rebandInvalid k
    if (sensorsOf k).all s.power.invalid.contains then s.tripBay k else s)

/-! ### Patrol tests (R632) -/

/-- A pawl tests an idle core parked in RETAIN. -/
def execPatrolTestStart (c : Nat) (s : State) := commit s (fun s =>
  if s.coreIdle c && s.fld .CR_STATUS_PSTATE c = 3 && !s.fences.cores.contains c && s.pawlUp (bayOfCore c) then
    s.setCore c { s.core c with patrol := true }
  else s)

/-- The test ends, and a failure fences the core; a test that a dispatch aborted has no result. -/
def execPatrolTestDone (c : Nat) (ok : Bool) (s : State) := commit s (fun s =>
  if (s.core c).patrol then
    let s := s.setCore c { s.core c with patrol := false }
    if ok then s else s.fenceUnit ⟨.core, c⟩ 4
  else s)

end Sys2Proof.Machine
end

