-- ==== Sys2Proof/Machine/Task.lean ====
section
/-!
DEFINITION. Task, event, knot, energy and system instructions (classes 0x8 and 0x9), the waits of a core, and how a task ends on its core and
at the head (chapters 12, 14 and 17).
-/
namespace Sys2Proof.Machine

/-! ### Knots, spawning and cancelling (R492, R494, Table 14.7) -/

/-- The coil of the task on a core. -/
def State.coilOf (s : State) (c : Nat) : Nat := (s.core c).coil.getD 0

/-- A general register is written and the instruction retires. -/
def State.answer (s : State) (c d v : Nat) : State := s.update c (fun x => x.setG d (BitVec.ofNat 64 v))

/-- KDEC: status 1 RANGE performs nothing. -/
def execKdec (c d a b : Nat) (s : State) := commit s (fun s =>
  s.instr c (gOk [d, a, b]) { g := [d, a, b] } (fun s =>
    let i := ((s.core c).rg a).toNat
    if s.knotCount (s.coilOf c) ≤ i then s.answer c d 1
    else (s.capDo [.dec (s.coilOf c) i ((s.core c).rg b).toNat false]).answer c d 0))

/-- A core enters CLKSTOP for a wait once its merging and NT buffers have drained; its reservation is cleared (R493). -/
def State.sleep (s : State) (c : Nat) (w : CoreWait) : State :=
  let s := (s.startDrains c (fun _ => true)).startNt c (fun _ => true)
  if !(s.core c).mb.isEmpty || !(s.core c).nt.isEmpty then s.hold c
  else
    let s := s.clearRsv c
    (s.setCore c { s.core c with wait := w }).setFld .CR_STATUS_PSTATE c 2

/-- KWAIT: 0 ZERO, 1 TIMEOUT, 2 RANGE; a timeout of zero checks once, and a REPEATABLE coil ignores the timeout (R496). -/
def execKwait (c d a b : Nat) (s : State) := commit s (fun s =>
  s.instr c (gOk [d, a, b]) { g := [d, a, b] } (fun s =>
    let i := ((s.core c).rg a).toNat
    if s.knotCount (s.coilOf c) ≤ i then s.answer c d 2
    else if (s.knot (s.coilOf c) i).value = 0 then s.answer c d 0
    else if (s.core c).rg b = 0 ∧ !s.repeatable c then s.answer c d 1
    else s.sleep c (.kwait i d)))

/-- The knot that a core waits on reads zero. -/
def execKnotWaitEnd (c : Nat) (s : State) := commit s (fun s =>
  match (s.core c).wait with
  | .kwait i _ => if (s.knot (s.coilOf c) i).value = 0 then s.endWait c 0 else s
  | _ => s)

/-- The ticket of a SPAWN is read as a 128 B load (R494); the core waits for Capstan from then on. -/
def execSpawn (c d a ring : Nat) (s : State) := commit s (fun s =>
  s.instr c (gOk [d, a] && decide (ring < 64)) { g := [d, a] } (fun s =>
    let e := ((s.core c).rg a).toNat
    let pc := (s.core c).pc
    if e % 128 ≠ 0 then s.trap c fcAlign 0 e
    else match s.checkEls c 0 .read true ((List.range 16).map (fun i => (i, e + 8 * i, 8))) with
    | .stop s => s
    | .ok els s =>
      let wait := fun (s : State) => (s.setCore c { s.core c with wait := .spawn ring d [] }).hold c
      let load : CoreAccess := { id := (s.core c).nextAcc, op := .load (.spawn ring d), dva := e, pc := pc, leaf := els.head?.bind (·.leaf) }
      if els.any (fun z => z.region = .dev) then
        if els.any (fun z => (s.core c).devBusy z.wpa) then s.hold c
        else
          let acc := { load with dev := true, parts := els.map (·.part) }
          wait ((s.addAccess c acc).devNext c acc)
      else match s.gather c false els with
      | .hold s => s.hold c
      | .bad code cause addr s => s.coreFault c { code := code, cause := cause, deferred := true, pc := pc, addr := addr }
      | .done got [] s =>
        let s := wait s
        s.setCore c ((s.core c).bind (.spawn ring d) got)
      | .done got (p :: pend) s => wait (s.addAccess c { load with id := 0, parts := (p :: pend).map (·.part), got := got })))

/-- The status of a SPAWN into a ring before Capstan writes the ticket: 3 NO_RING, 1 RING_FULL, 2 LIMIT (DEDUCED, log entry 64). -/
def State.spawnRefused (s : State) (coil ring : Nat) : Option Nat :=
  let r := 64 * coil + ring
  if !s.flag .CP_SRING_CFG_ENABLE r ∨ !s.flag .CP_SRING_CFG_SPAWN r ∨ s.flag .CP_SRING_FAULT_HALTED r ∨ s.flag .CP_COIL_CTL_QUIESCED coil then some 3
  else if (s.fld .CP_SRING_PTR_TAIL r + 2 ^ 32 - s.fld .CP_SRING_PTR_HEAD r) % 2 ^ 32 = 2 ^ s.fld .CP_SRING_CFG_LOG2 r then some 1
  else if !s.roomFor coil then some 2
  else none

/-- 128 bytes written coherently by the head: at their home, or to the host with two WOWrInv. `ok` tells how a host's write ended. -/
def State.headWrite128 (s : State) (coil dva x : Nat) (ok : Bool) : Bool × State :=
  let lo : LineData := BitVec.ofNat 512 x
  let hi : LineData := BitVec.ofNat 512 (x / 2 ^ 512)
  match s.headXlat coil dva .write with
  | .bad s => (false, s)
  | .spool w sh =>
    let a := s.ncWrite (w / 64) (some coil) sh lo (BitVec.allOnes 64) false
    if a.1 ≠ spOk then (false, a.2)
    else
      let b := a.2.ncWrite (w / 64 + 1) (some coil) sh hi (BitVec.allOnes 64) false
      (decide (b.1 = spOk), b.2)
  | .host p w =>
    let s := (s.recallLine p (w / 64)).recallLine p (w / 64 + 1)
    let s := (s.issueD2h p { id := 0, op := .woWrInv, line := w / 64, data := lo }).issueD2h p { id := 0, op := .woWrInv, line := w / 64 + 1, data := hi }
    (ok, s)

/-- Capstan writes the ticket into the tail slot and advances TAIL, or fails to, and SPAWN completes with its status. -/
def execSpawnTicketWritten (c : Nat) (ok : Bool) (s : State) := commit s (fun s =>
  match (s.core c).wait with
  | .spawn ring d ticket =>
    if ticket.length ≠ 16 then s
    else
      let coil := s.coilOf c
      let r := 64 * coil + ring
      let done := fun (s : State) (v : Nat) => (s.setCore c { s.core c with wait := .none }).answer c d v
      match s.spawnRefused coil ring with
      | some v => done s v
      | none =>
        let tail := s.fld .CP_SRING_PTR_TAIL r
        let x := ticket.foldr (fun w n => w % 2 ^ 64 + 2 ^ 64 * n) 0
        let w := s.headWrite128 coil (s.fld .CP_SRING_CFG_BASE r * 128 + 128 * (tail % 2 ^ s.fld .CP_SRING_CFG_LOG2 r)) x ok
        if w.1 then done (w.2.setFld .CP_SRING_PTR_TAIL r (tail + 1)) 0 else done (w.2.haltRing coil ring 3) 4
  | _ => s)

/-- TCANCEL: 0 CANCELLED, 1 TOO_LATE, 2 NOT_FOUND. -/
def execTcancel (c d a : Nat) (s : State) := commit s (fun s =>
  s.instr c (gOk [d, a]) { g := [d, a] } (fun s =>
    let r := s.cancel (s.coilOf c) ((s.core c).rg a).toNat
    r.2.answer c d r.1))

/-- TEND: steps 2 to 5 of Table 12.7 run with status DONE; no later instruction issues (R495). -/
def execTend (c a : Nat) (s : State) := commit s (fun s =>
  s.instr c (gOk [a]) { g := [a] } (fun s =>
    let x := s.core c
    let s := s.retire c
    s.setCore c { (s.core c).startEnd with mma := x.mma, result := (x.rg a).toNat % 2 ^ 32 }))

/-! ### Events (R493) -/

/-- EVMON arms the core's monitor on the line that holds e, checked as a 1 B load. -/
def execEvmon (c a : Nat) (m : MMod) (s : State) := commit s (fun s =>
  s.instr c (gOk [a] && memForm m [0]) { g := [a] } (fun s =>
    s.element c (effAddr ((s.core c).rg a) 0 m.off 22) m .read (fun s el =>
      s.update c (fun x => { x with mon := some { line := el.wpa / 64 } }))))

/-- EVWAIT: cause bits MON, TACKLE and timeout; `m` is MOD[27:0], whose bits [1:0] enable MON and TACKLE. -/
def execEvwait (c d a m : Nat) (s : State) := commit s (fun s =>
  s.instr c (gOk [d, a] && decide (1 ≤ m) && decide (m < 4)) { g := [d, a] } (fun s =>
    let hit := bit m 0 && (match (s.core c).mon with
      | some x => x.hit
      | none => false)
    let done := fun (v : Nat) => s.update c (fun x => { x.setG d (BitVec.ofNat 64 (if s.repeatable c then 0 else v)) with mon := none })
    if hit then done 1
    else if (s.core c).rg a = 0 then done 4
    else s.sleep c (.evwait (bit m 0) (bit m 1) d)))

/-- Another agent has written the monitored line; a wake without such a write is a spurious one, which gives zero (R493). -/
def execMonitorWake (c : Nat) (s : State) := commit s (fun s =>
  match (s.core c).wait with
  | .evwait on _ _ =>
    let hit := match (s.core c).mon with
      | some m => m.hit
      | none => false
    s.endWait c (if on && hit then 1 else 0)
  | _ => s)

/-- The timeout of a wait passes; a knot that reads zero by then is ZERO (Table 14.10). -/
def execWaitTimeout (c : Nat) (s : State) := commit s (fun s =>
  match (s.core c).wait with
  | .kwait i _ =>
    if (s.knot (s.coilOf c) i).value = 0 then s.endWait c 0
    else if s.repeatable c then s else s.endWait c 1
  | .evwait mon _ _ =>
    let hit := mon && (match (s.core c).mon with
      | some x => x.hit
      | none => false)
    s.endWait c (if hit then 5 else 4)
  | _ => s)

/-! ### Control registers (R413, R433, R481) -/

/-- Control register `n` as the instruction reads it; cycles and energy are meters of the core (DEDUCED, log entry 61). -/
def State.readCr (s : State) (c n : Nat) : Word × State :=
  let x := s.core c
  let t := s.task (x.task.getD 0)
  let rep := s.repeatable c && !x.rig
  let hide := fun (v : Nat) => ((if rep then 0 else BitVec.ofNat 64 v), s)
  match n with
  | 0x00 => (BitVec.ofNat 64 t.ticket.taskId, s)
  | 0x01 => (BitVec.ofNat 64 (s.coilOf c), s)
  | 0x02 => hide c
  | 0x03 => if rep then (0, s) else s.freshWord
  | 0x04 => hide (s.fld .CL_TIME_UTC_NS 0)
  | 0x05 => hide (s.fld .CR_STATUS_OP c)
  | 0x06 => if rep then (0, s) else s.freshWord
  | 0x07 => (BitVec.ofNat 64 t.ticket.eclass, s)
  | _ => (BitVec.ofNat 64 (x.cr n), s)

/-- The control registers of Table 12.2 that a read may name. -/
def crReadable (rig : Bool) (n : Nat) : Bool := decide (n ≤ 0x0C) || (rig && decide (0x10 ≤ n) && decide (n ≤ 0x12))

/-- Those that a write may name. -/
def crWritable (rig : Bool) (n : Nat) : Bool := n = ccFpctl || n = ccFpflags || (rig && decide (0x10 ≤ n) && decide (n ≤ 0x12))

def execCrr (c d n : Nat) (s : State) := commit s (fun s =>
  s.instr c (gOk [d] && crReadable (s.core c).rig n) { g := [d] } (fun s =>
    let r := s.readCr c n
    r.2.update c (fun x => x.setG d r.1)))

/-- What a write leaves: a reserved RM leaves RM unchanged, reserved bits stay zero (R17, R413). -/
def crWrite (n old v : Nat) : Nat :=
  if n = ccFpctl then (if bits v 2 0 ≤ 4 then bits v 2 0 else bits old 2 0) + 8 * bits v 3 3
  else if n = ccFpflags then v % 64
  else v

def execCrw (c a n : Nat) (s : State) := commit s (fun s =>
  s.instr c (gOk [a] && crWritable (s.core c).rig n) { g := [a] } (fun s =>
    s.update c (fun x => x.setCr n (crWrite n (x.cr n) (x.rg a).toNat))))

/-! ### Energy and operating point (R498) -/

/-- EHINT changes no architectural state; the pawl of this model takes no account of the hint (DEDUCED, log entry 66). -/
def execEhint (c a : Nat) (s : State) := commit s (fun s => s.instr c (gOk [a]) { g := [a] } (fun s => s.retire c))

/-- The point that the pawl grants to a request: within the ceiling and, upwards, within what is left of its slack; a sealed coil's fixed
point stands. -/
def State.grantPoint (s : State) (c p : Nat) : Nat :=
  if s.fixedOp c < 5 then s.goal c
  else
    let now := s.goal c
    let top := min p (s.taskCeiling ((s.core c).task.getD 0) c)
    if top ≤ now then top
    else ((List.range (top + 1)).filter (fun q => q = now || (decide (now ≤ q) &&
      decide ((opCost q : Int) - opCost now ≤ (s.pawl (bayOfCore c)).left)))).foldl max 0

/-- OPREQ: the request is resolved once its change of point has completed; g[DST] is then the point in force. -/
def execOpreq (c d p : Nat) (s : State) := commit s (fun s =>
  s.instr c (gOk [d] && decide (p < 5)) { g := [d] } (fun s =>
    let done := fun (s : State) => s.answer c d (if s.repeatable c then 0 else s.fld .CR_STATUS_OP c)
    if (s.core c).progress ≠ 0 then (if (s.core c).changing.isSome then s.hold c else done s)
    else
      let k := bayOfCore c
      let now := s.goal c
      let q := s.grantPoint c p
      let paid : Int := (s.pawl k).left - max 0 ((opCost q : Int) - opCost now)
      let s := (s.setPawl k { s.pawl k with left := paid }).setPoint c q
      if (s.core c).changing.isSome then (s.setCore c { s.core c with progress := 1 }).hold c else done s))

/-! ### RIG level (R414, R415, R499, R500) -/

/-- RIGCALL enters RIG level: the return address and the service are saved, and the firmware's code for the service follows. -/
def Core.enterRig (x : Core) (service : Nat) : Core :=
  { (x.setCr ccRigEpc (x.pc + 8)).setCr ccRigCause service with pc := Config.rigEntry service, rig := true }

/-- A service's effect on the core with the entry to RIG level (DEDUCED, log entry 65). -/
def State.rigcall (s : State) (c service : Nat) (f : Core → Core) : State :=
  s.setCore c ((f (s.core c)).enterRig service) |>.setFld .CR_STATUS_PSTATE c 0 |>.bump .CR_RETIRED_COUNT c 1

/-- COUNTERS: both zero in a REPEATABLE coil. -/
def execRigcallCounters (c : Nat) (s : State) := commit s (fun s =>
  s.instr c true { g := [1, 2] } (fun s =>
    let v := fun (f : Fld) => BitVec.ofNat 64 (if s.repeatable c then 0 else s.fld f c)
    s.rigcall c 1 (fun x => (x.setG 1 (v .CR_RETIRED_COUNT)).setG 2 (v .CR_MMA_BUSY_CYCLES))))

/-- TILE_CLEAR zeroes the tile store, after earlier matrix instructions have read it. -/
def execRigcallTileClear (c : Nat) (s : State) := commit s (fun s =>
  s.instr c true {} (fun s =>
    if !(s.core c).mma.isEmpty then s.hold c
    else s.rigcall c 2 (fun x => { x with tile := [], tilePoison := [] })))

/-- The Halyard event of a code of Table 21.7. -/
def halyardEvent (code : Nat) : Option EvName :=
  [EvName.halyardStarted, .halyardStopped, .halyardConfigError, .halyardRecovered, .halyardShedding, .halyardKvPreempt, .halyardFwdLost,
    .halyardCringHigh, .halyardModelFault].find? (fun n => n.row.1 = code)

/-- The task's dispatch entry lies in a range that Cleat verified for its coil (R743). -/
def State.serviceTask (s : State) (t : Nat) : Bool :=
  s.cleat.verified.any (fun v => v.coil = (s.task t).coil && decide (v.base ≤ (s.task t).entry) && decide ((s.task t).entry < v.base + v.size))

/-- LOG: at most 16 per ms per coil, with the excess counted. -/
def execRigcallLog (c : Nat) (s : State) := commit s (fun s =>
  s.instr c true { g := [1, 2] } (fun s =>
    let x := s.core c
    let coil := s.coilOf c
    let t := x.task.getD 0
    let ms := s.clockUs / 1000
    let e := SMap.get (0, 0) s.cap.logs coil
    let n := if e.1 = ms then e.2 else 0
    let s : State := { s with cap := { s.cap with logs := SMap.set (0, 0) s.cap.logs coil (ms, n + 1) } }
    let g1 := (x.rg 1).toNat
    let g2 := (x.rg 2).toNat
    let id := (s.task t).ticket.taskId
    let s := if 16 ≤ n then s
      else match (if bits g1 15 8 = 0x0A ∧ s.serviceTask t then halyardEvent (g1 % 65536) else none) with
      | some ev => s.event ev ⟨.core, c⟩ (some coil) id 0 g2
      | none => s.event .taskLog ⟨.core, c⟩ (some coil) id 0 g1 g2
    s.rigcall c 3 (fun y => y.setG 1 (if 16 ≤ n ∧ !s.repeatable c then 1 else 0))))

/-- RIGRET returns to TASK level at CC_RIG_EPC. -/
def execRigret (c : Nat) (s : State) := commit s (fun s =>
  s.instr c (s.core c).rig {} (fun s =>
    (s.setCore c { s.core c with rig := false }).retireAt c ((s.core c).cr ccRigEpc)))

/-- TILEZ zeroes the whole tile store. -/
def execTilez (c : Nat) (s : State) := commit s (fun s =>
  s.instr c (s.core c).rig {} (fun s =>
    if !(s.core c).mma.isEmpty then s.hold c
    else s.update c (fun x => { x with tile := [], tilePoison := [] })))

/-! ### The end of a task (R435 to R438, R559, R636, R659) -/

/-- The metered energy has passed 4^class µJ; it is reported once. -/
def execEnergyOverrun (c : Nat) (s : State) := commit s (fun s =>
  if (s.core c).running then s.setCore c { s.core c with overrun := true } else s)

/-- The time limit expires: WATCHDOG is taken before the next instruction, or abandons a wait; once TEND has retired it is DONE. -/
def execTaskWatchdog (c : Nat) (s : State) := commit s (fun s =>
  if (s.core c).running && !(s.core c).ending then s.trap c fcWatchdog else s)

/-- CR_FAULT, CR_FAULT_PC and CR_FAULT_ADDR describe the end of the task (Table 12.7 step 4). -/
def State.writeFault (s : State) (c : Nat) (f : Option CoreFault) (overrun : Bool) : State :=
  let x : CoreFault := f.getD { code := 0 }
  s.setFld .CR_FAULT_CODE c x.code |>.setFld .CR_FAULT_CAUSE c x.cause |>.setFld .CR_FAULT_DEFERRED c (b2n x.deferred)
    |>.setFld .CR_FAULT_OVERRUN c (b2n overrun) |>.setFld .CR_FAULT_VALID c (b2n f.isSome) |>.setFld .CR_FAULT_RIG c (b2n x.rig)
    |>.setFld .CR_FAULT_PC_PC c x.pc |>.setFld .CR_FAULT_ADDR_ADDR c x.addr

/-- The termination steps complete: nothing is outstanding and the end fence has run; the core hands the task's end to Capstan; its posted writes through Bend that failed and that no fence reported are logged (R689).
`energy` is what the core metered to the task, in µJ. -/
def execTerminationDone (c energy : Nat) (s : State) := commit s (fun s =>
  let x := s.core c
  if !x.running ∨ !x.ending ∨ !x.accesses.isEmpty ∨ !x.mb.isEmpty ∨ !x.nt.isEmpty ∨ !x.flushing.isEmpty then s
  else if !x.flush.isEmpty then s.flushReads c
  else
    let s := (List.range 6).foldl (fun s b => s.logLost b (fun z => z.1 = c)) s
    let s := (s.clearRsv c).writeFault c x.fault x.overrun
    let e : EndMsg := match x.fault with
      | some f => { status := 2, fault := f.code, cause := f.cause, pc := f.pc, energy := energy, overrun := x.overrun }
      | none => { status := 1, result := x.result, energy := energy, overrun := x.overrun }
    let s := match x.task with
      | some t => s.setTask t { s.task t with msg := some e }
      | none => s
    let s := if x.task.isNone then s.setFld .CR_STATUS_PSTATE c 2 else s
    let s := s.bump .CR_ENERGY_UJ c energy |>.bump .CP_COIL_ENERGY_UJ (s.coilOf c) energy
    s.setCore c { s.core c with running := false, ending := false, fault := none, task := none, coil := none, rig := false, mma := [] })

/-- A task-end message reaches the head: the release knots are decremented, then the record is written (R577, R581); the core is free. -/
def execTaskEnd (t : Nat) (s : State) := commit s (fun s =>
  let k := s.task t
  match k.state, k.msg with
  | .running c, some e => (s.endTask t e).afterTask c k.coil
  | _, _ => s)

end Sys2Proof.Machine
end

