-- ==== Sys2Proof/Machine/Bend.lean ====
section
/-!
DEFINITION. Bend (chapter 20): enabling and training, the receiver's flits, replay and recovery, routing, the splice windows and the
splice table, remote requests and their answers, message delivery, link failure and the Bend port reset.
-/
namespace Sys2Proof.Machine

/-! ### Answers to this wafer's requests (R685, R689) -/

def brOk : Nat := 0
def brFenced : Nat := 1
def brRefused : Nat := 2
def brPoison : Nat := 3
def brRoute : Nat := 4
def brFull : Nat := 5
/-- A timeout is not a status of a packet; it reaches the requester as Table R685 gives. -/
def brTimeout : Nat := 16

/-- What a status is to a core or a Tackle. -/
def brResult (st : Nat) (bytes : List Byte) : ReadResult :=
  if st = brOk then .data bytes
  else if st = brPoison then .poison bytes
  else if st = brRefused ∨ st = brFull then .perm
  else if st = brTimeout then .timeout
  else .fenced

/-- The status of a refused line of a ply. -/
def brLine (st : Nat) : Nat := if st = brRefused ∨ st = brFull then spPerm else spFenced

/-- A posted write failed: it waits for its core's next fence on the window, or is logged (R689). -/
def State.writeFailed (s : State) (b : Nat) (core : Option Nat) (window coil st : Nat) : State :=
  match core with
  | some c => s.setBend b { s.bend b with lost := (s.bend b).lost ++ [(c, window, st)] }
  | none => s.event .bendWriteLost ⟨.bendPort, b⟩ (some coil) 0 0 window

/-- A window fence of core `c` completes, with a deferred fault if a posted write of the core to the window failed. -/
def State.answerFence (s : State) (b c id window st : Nat) : State :=
  let mine := (s.bend b).lost.find? (fun x => x.1 = c && x.2.1 = window)
  let s := s.setBend b { s.bend b with lost := (s.bend b).lost.filter (fun x => !(x.1 = c && x.2.1 = window)) }
  s.answerAccess c id (brResult (if st ≠ brOk then st else (mine.map (·.2.2)).getD brOk) [])

/-- A request of this wafer is answered. -/
def State.answerBend (s : State) (b : Nat) (r : BendReq) (st : Nat) (bytes : List Byte) : State :=
  match r.src with
  | .core c id => if r.op = .fence then s.answerFence b c id r.window st else s.answerAccess c id (brResult st bytes)
  | .tackle i id => s.answerTackle i id (brResult st bytes)
  | .ply y line =>
    if st = brOk ∨ st = brPoison then s.bncFill y line (BitVec.ofNat 512 (leNat bytes)) (st = brPoison) else s.bncRefuse y line (brLine st)
  | _ => if st = brOk then s else s.writeFailed b r.core r.window r.coil st

/-- A tag is freed with the status of its packet; the request is answered with its last packet. -/
def State.endTag (s : State) (b : Nat) (t : BTag) (st : Nat) (bytes : List Byte) : State :=
  let x := s.bend b
  let rest := x.tags.filter (fun z => z.tag ≠ t.tag)
  let bad := if t.bad ≠ brOk then t.bad else st
  if rest.any (fun z => z.req.seq = t.req.seq) then
    s.setBend b { x with tags := rest.map (fun z => if z.req.seq = t.req.seq then { z with bad := bad } else z) }
  else (s.setBend b { x with tags := rest }).answerBend b t.req bad bytes

/-- The operation that answers a request. -/
def answerOf (opc : Nat) : Nat := if opc = opRd then opRdData else if opc = opAtom then opAtomData else opCmp

/-- The first response of a kind that has reached port `b`: it completes its request, or matches none and is discarded (R681). -/
def State.takeResponse (s : State) (b opc : Nat) : State :=
  match (s.bend b).arrived.find? (fun p => p.opc = opc) with
  | none => s
  | some p =>
    let x := s.bend b
    let s := (s.setBend b { x with arrived := x.arrived.erase p }).freeCells p.arr p.cells
    match x.tags.find? (fun t => t.tag = p.tag && t.dst = p.src && answerOf t.opc = opc) with
    | none => s
    | some t => (s.endTag b t p.status (leBytes (if opc = opAtomData then 8 else p.len) p.data)).pump b

def execRdData (b : Nat) (s : State) := commit s (fun s => s.takeResponse b opRdData)
def execCmp (b : Nat) (s : State) := commit s (fun s => s.takeResponse b opCmp)
def execAtomData (b : Nat) (s : State) := commit s (fun s => s.takeResponse b opAtomData)

/-- 100 ms pass without a response (R681). -/
def execBendRequestTimeout (b tag : Nat) (s : State) := commit s (fun s =>
  let x := s.bend b
  match x.tags.find? (fun t => t.tag = tag) with
  | none => s
  | some t =>
    let s := s.setBend b { x with dead := x.dead ++ [(tag, s.clockUs + 1000000)] }
    let s := (s.bump .BD_ERR_TIMEOUTS b 1).event .bendTimeout ⟨.bendPort, b⟩ (some t.req.coil) 0 0 tag
    (s.endTag b t brTimeout []).pump b)

/-! ### Training (R665 to R667) and the Bend port reset (R699) -/

/-- A port that may train: step 13 has ended, ENABLE is set, LOOPBACK is clear, and it is attached (R663). -/
def State.mayTrain (s : State) (b : Nat) : Bool :=
  s.ready && (s.bend b).present && s.flag .BD_CTL_ENABLE b && !s.flag .BD_CTL_LOOPBACK b && !s.fences.routers.contains (s.bend b).bay

/-- Training starts at step 1, or the port stays down. -/
def State.startTraining (s : State) (b : Nat) : State :=
  let x := { s.bend b with seen := none, gotInit := false, gotAck := false, step := 0 }
  if s.mayTrain b then (s.setBend b { x with step := 1 }).setFld .BD_STATUS_STATE b bdTraining
  else (s.setBend b x).setFld .BD_STATUS_STATE b bdDown

/-- What a Bend port reset clears among the registers of port `b`: every field that is not configuration; windows and entries are kept
(R699, R701). -/
def bendDrop (b n i : Nat) : Bool := i = b && (n = Fld.BD_CTL_STATUS.num || inBlock .BD_STATUS_STATE .BD_RETRAIN_GO n)

/-- The Bend port reset (Table 3.5, R699) (DEDUCED, log entry 78). -/
def State.bendReset (s : State) (b : Nat) : State :=
  let x := s.bend b
  let reqs := x.waiting ++ x.tags.foldl (fun l t => if l.any (fun r => r.seq = t.req.seq) then l else l ++ [t.req]) []
  let s := x.outq.foldl (fun s p => s.freeCells p.arr p.cells) s
  let mine := fun (p : BPkt) => match p.arr with
    | some (a, _) => a = b
    | none => false
  let fresh : BendPort := { present := x.present, bay := x.bay, fails := x.fails, failLogged := x.failLogged, nextSeq := x.nextSeq, nextTag := x.nextTag,
                            dead := x.dead, lost := x.lost, heads := x.heads, arrived := x.arrived.filter (fun p => !mine p),
                            pend := x.pend.map (fun w => { w with counted := false }) }
  let s := s.setBend b fresh
  let s := (List.range 6).foldl (fun s e =>
    if e = b then s
    else
      let z := s.bend e
      s.setBend e { z with arrived := z.arrived.filter (fun p => !mine p), outq := z.outq.filter (fun p => !mine p) }) s
  let s := s.resetFlds (bendDrop b)
  let s := reqs.foldl (fun s r => s.answerBend b r brFenced []) s
  let s := x.blocks.foldl (fun s m => s.writeFailed b m.core m.window m.coil brFenced) s
  let s := (List.range 256).foldl (fun s w => if s.flag .BD_WIN_BUSY (256 * b + w) then s.setFld .BD_WIN_BUSY (256 * b + w) 0 else s) s
  s.startTraining b

/-- A link failure (R677). -/
def State.linkFail (s : State) (b : Nat) : State := (s.bendReset b).event .bendLinkDown ⟨.bendPort, b⟩

/-- A protocol error (R698). -/
def State.protocolError (s : State) (b : Nat) : State := (s.event .bendProtocol ⟨.bendPort, b⟩).linkFail b

/-- A failed training step (R667). -/
def State.trainFail (s : State) (b : Nat) : State :=
  let x := s.bend b
  let s := s.setBend b { x with step := 0, fails := x.fails + 1, failLogged := x.failLogged || decide (3 ≤ x.fails + 1) }
  if x.fails + 1 < 3 then s.setFld .BD_STATUS_STATE b bdTraining
  else
    let s := s.setFld .BD_STATUS_STATE b bdFailed
    if x.failLogged then s else s.event .bendTrainFail ⟨.bendPort, b⟩

def State.miscabled (s : State) (b : Nat) : State := (s.event .bendMiscabled ⟨.bendPort, b⟩).trainFail b

/-- The width of R665 as (WIDTH code, cages) for usable lanes and MAX_WIDTH; (0, 0) when none qualifies. -/
def widthOf (lanes maxW : Nat) : Nat × Nat :=
  let cage := fun q => decide (bits lanes (8 * q + 7) (8 * q) = 255)
  if maxW = 0 ∧ cage 0 ∧ cage 1 ∧ cage 2 ∧ cage 3 then (3, 15)
  else if maxW ≤ 1 ∧ cage 0 ∧ cage 1 then (2, 3)
  else if maxW ≤ 1 ∧ cage 2 ∧ cage 3 then (2, 12)
  else match (List.range 4).find? cage with
  | some q => (1, 2 ^ q)
  | none => (0, 0)

/-- The greatest width code that MAX_WIDTH allows. -/
def widestOf (maxW : Nat) : Nat := if maxW = 0 then 3 else if maxW = 1 then 2 else 1

def State.setWidth (s : State) (b : Nat) (w : Nat × Nat) : State :=
  let s := (s.setFld .BD_STATUS_WIDTH b w.1).setFld .BD_STATUS_CAGES b w.2
  if w.1 < widestOf (s.fld .BD_CTL_MAX_WIDTH b) then s.event .bendDegraded ⟨.bendPort, b⟩ none 0 0 w.1 else s

/-! ### CTRL messages (Table 20.4) -/

/-- The initial credit counts (Table 20.5). -/
def vcCells (v : Nat) : Nat := if v < 2 then 3072 else if v < 4 then 4096 else 1024

def initPayload (wafer system port : Nat) : Nat :=
  2 + wafer * 2 ^ 8 + system * 2 ^ 14 + port * 2 ^ 30 + ((List.range 6).foldl (fun a v => a + vcCells v * 2 ^ (16 * v)) 0) * 2 ^ 64

def State.sendInit (s : State) (b : Nat) : State :=
  s.emit b flitCtrl 0 (initPayload (s.fld .BD_CTL_WAFER_ID b) (s.fld .BD_CTL_SYSTEM_ID b) b)

/-- The usable lanes but those of a cage whose module has failed (R768). -/
def State.goodLanes (s : State) (b lanes : Nat) : Nat :=
  (List.range 4).foldl (fun l q => if SMap.get 0 s.cleat.osfp (4 * b + q) = 3 then setBits l (8 * q) 8 0 else l) lanes

/-- A training step ends (Table 20.2). -/
def execTrainingStepEnd (b : Nat) (o : TrainObs) (s : State) := commit s (fun s =>
  let x := s.bend b
  let next := fun (s : State) => s.setBend b { s.bend b with step := x.step + 1 }
  if x.step = 0 ∨ ¬(s.bdState b = bdTraining ∨ s.bdState b = bdInit) then s
  else if !o.ok then s.trainFail b
  else match x.step with
  | 1 => next s
  | 2 =>
    if o.peerSystem ≠ s.fld .BD_CTL_SYSTEM_ID b ∨ o.peerWafer = s.fld .BD_CTL_WAFER_ID b ∨ o.mismatch then s.miscabled b
    else next ((s.setBend b { x with seen := some (o.peerSystem, o.peerWafer, o.peerPort) }).setFld .BD_STATUS_LANES b (s.goodLanes b o.lanes))
  | 3 =>
    let w := widthOf (s.fld .BD_STATUS_LANES b) (s.fld .BD_CTL_MAX_WIDTH b)
    if w.1 = 0 then s.trainFail b else next (s.setWidth b w)
  | 4 => next s
  | 5 => ((next s).setFld .BD_STATUS_STATE b bdInit).sendInit b
  | _ => s)

/-- The retry timer of R667 expires. -/
def execTrainingRetry (b : Nat) (s : State) := commit s (fun s =>
  if (s.bend b).step = 0 && (s.bdState b = bdTraining || s.bdState b = bdFailed) then s.startTraining b else s)

/-- INIT and INIT_ACK have been exchanged: the link carries flits. -/
def State.activate (s : State) (b : Nat) : State :=
  let x := s.bend b
  if s.bdState b = bdInit && x.gotInit && x.gotAck then
    (((s.setBend b { x with step := 0, fails := 0, failLogged := false }).setFld .BD_STATUS_STATE b bdActive).event .bendLinkUp ⟨.bendPort, b⟩).pump b
  else s

/-- A CTRL INIT. -/
def State.initIn (s : State) (b wafer system port : Nat) (credits : List Nat) : State :=
  let x := s.bend b
  if s.bdState b = bdActive then s.emit b flitCtrl 0 3
  else if s.bdState b ≠ bdInit then s
  else if system ≠ s.fld .BD_CTL_SYSTEM_ID b ∨ wafer = s.fld .BD_CTL_WAFER_ID b ∨ x.seen ≠ some (system, wafer, port) then s.miscabled b
  else
    let init := SMap.setAll 0 [] ((List.range 6).map (fun v => (v, credits[v]?.getD 0 % 65536)))
    let s := (s.setBend b { x with gotInit := true, peerInit := init }).setFld .BD_STATUS_PEER_WAFER b wafer |>.setFld .BD_STATUS_PEER_PORT b port
    (s.emit b flitCtrl 0 3).activate b

def State.initAckIn (s : State) (b : Nat) : State :=
  if s.bdState b = bdInit then (s.setBend b { s.bend b with gotAck := true }).activate b else s

def execInit (b wafer system port : Nat) (credits : List Nat) (s : State) := commit s (fun s => s.initIn b wafer system port credits)
def execInitAck (b : Nat) (s : State) := commit s (fun s => s.initAckIn b)
def execInitResend (b : Nat) (s : State) := commit s (fun s => if s.bdState b = bdInit && !(s.bend b).gotAck then s.sendInit b else s)

/-- A CTRL DOWN: the link fails without a protocol error. -/
def State.downIn (s : State) (b : Nat) : State := if s.bdState b = bdDown ∨ s.bdState b = bdFailed then s else s.linkFail b
def execDown (b : Nat) (s : State) := commit s (fun s => s.downIn b)

/-! ### Replay and Recovery (Table 20.6, R677) -/

/-- Recovery starts; a third one within 1 s is a link failure. -/
def State.recover (s : State) (b : Nat) : State :=
  let x := s.bend b
  let recent := x.recoveries.filter (fun t => decide (s.clockUs < t + 1000000))
  let s := s.bump .BD_ERR_RECOVERIES b 1
  if 2 ≤ recent.length then s.linkFail b
  else (s.setBend b { x with recoveries := recent ++ [s.clockUs], replayRun := 0 }).setFld .BD_STATUS_STATE b bdRecovery

/-- Every unacknowledged flit is sent again, oldest first; after eight replays in a row without progress Recovery starts instead (DEDUCED, log entry 75). -/
def State.replay (s : State) (b : Nat) : State :=
  let x := s.bend b
  if 8 ≤ x.replayRun then s.recover b
  else
    let s := (s.setBend b { x with replayRun := x.replayRun + 1 }).bump .BD_ERR_REPLAYS b 1
    (x.replay.foldl (fun s f => s.emit b flitData f.1 f.2) s).pump b

/-- Flits up to SEQ `a` are acknowledged. -/
def State.ackIn (s : State) (b a : Nat) : State :=
  let x := s.bend b
  if x.replay.any (fun f => f.1 = a) then
    s.setBend b { x with replay := (x.replay.dropWhile (fun f => f.1 ≠ a)).drop 1, replayRun := 0 }
  else s

/-- A NAK for an unacknowledged SEQ: those before it are acknowledged, and the replay starts from it; any other is ignored (R700). -/
def State.nakIn (s : State) (b seq : Nat) : State :=
  let x := s.bend b
  if s.bdState b = bdActive && x.replay.any (fun f => f.1 = seq) then
    let rest := x.replay.dropWhile (fun f => f.1 ≠ seq)
    (s.setBend b { x with replay := rest, replayRun := if rest.length = x.replay.length then x.replayRun else 0 }).replay b
  else s

def execNak (b seq : Nat) (s : State) := commit s (fun s => s.nakIn b seq)

def execReplayTimeout (b : Nat) (s : State) := commit s (fun s =>
  if s.bdState b = bdActive && !(s.bend b).replay.isEmpty then s.replay b else s)

/-- An updated ACK leaves in an IDLE flit (R675). -/
def execAckTimer (b : Nat) (s : State) := commit s (fun s => if s.bdState b = bdActive then s.emit b flitIdle 0 0 else s)

/-- A Recovery ends, one that the peer started included: the link is ACTIVE again at the old width or a narrower one and replays, or it fails. -/
def execRecoveryEnd (b : Nat) (ok : Bool) (lanes : Nat) (s : State) := commit s (fun s =>
  let s := if s.bdState b = bdActive then s.recover b else s
  if s.bdState b ≠ bdRecovery then s
  else
    let old := s.fld .BD_STATUS_WIDTH b
    let w := widthOf (s.goodLanes b lanes) (max (s.fld .BD_CTL_MAX_WIDTH b) (3 - old))
    if !ok ∨ w.1 = 0 then s.linkFail b
    else
      let s := s.setFld .BD_STATUS_STATE b bdActive |>.setFld .BD_STATUS_WIDTH b w.1 |>.setFld .BD_STATUS_CAGES b w.2
      let s := s.event .bendRecovery ⟨.bendPort, b⟩
      let s := if w.1 < old then s.event .bendDegraded ⟨.bendPort, b⟩ none 0 0 w.1 else s
      if (s.bend b).replay.isEmpty then s.pump b else s.replay b)

def execLossOfSignal (b : Nat) (s : State) := commit s (fun s =>
  if s.bdState b = bdActive ∨ s.bdState b = bdRecovery ∨ s.bdState b = bdInit then s.linkFail b else s)

/-- BD_RETRAIN.GO, ignored unless the link is ACTIVE. -/
def execRetrain (p b : Nat) (s : State) := commit s (fun s =>
  if 6 ≤ b then s
  else s.waferScoped p (0x3000028 + 0x100000 * b) (fun s => if s.bdState b = bdActive then s.recover b else s))

/-! ### Enabling (R662, R663) -/

/-- The module of each cage leaves or enters low-power mode (Table 20.1, R768). -/
def State.osfpPower (s : State) (b : Nat) (high : Bool) : State :=
  let m := (List.range 4).foldl (fun (m : SMap Nat) q =>
    let old := SMap.get 0 m (4 * b + q)
    if old = 1 ∨ old = 2 then SMap.set 0 m (4 * b + q) (if high then 2 else 1) else m) s.cleat.osfp
  { s with cleat := { s.cleat with osfp := m } }

def State.bendEnable (s : State) (b : Nat) : State :=
  let clash := (List.range 6).any (fun e => e ≠ b && s.flag .BD_CTL_ENABLE e &&
    (s.fld .BD_CTL_WAFER_ID e ≠ s.fld .BD_CTL_WAFER_ID b || s.fld .BD_CTL_SYSTEM_ID e ≠ s.fld .BD_CTL_SYSTEM_ID b))
  if s.flag .BD_CTL_ENABLE b then s.setFld .BD_CTL_STATUS b 0
  else if clash then s.setFld .BD_CTL_STATUS b 2
  else (((s.setFld .BD_CTL_STATUS b 0).setFld .BD_CTL_ENABLE b 1).osfpPower b true).startTraining b

def State.bendDisable (s : State) (b : Nat) : State :=
  if !s.flag .BD_CTL_ENABLE b then s.setFld .BD_CTL_STATUS b 0
  else
    let s := if s.bdState b = bdInit ∨ s.bdState b = bdActive then s.emit b flitCtrl 0 4 else s
    let s := (s.setFld .BD_CTL_ENABLE b 0).bendReset b
    (s.setBend b { s.bend b with fails := 0, failLogged := false }).osfpPower b false

def execBendEnable (p b : Nat) (s : State) := commit s (fun s =>
  if 6 ≤ b then s else s.waferScoped p (0x3000000 + 0x100000 * b) (fun s => s.bendEnable b))
def execBendDisable (p b : Nat) (s : State) := commit s (fun s =>
  if 6 ≤ b then s else s.waferScoped p (0x3000000 + 0x100000 * b) (fun s => s.bendDisable b))

/-! ### Routing (R694, R695) -/

/-- The port by which a packet leaves, and the packet as it leaves; `none` for a route error. `fwd` for a packet that is forwarded. -/
def State.routeOf (s : State) (a : Nat) (p : BPkt) (fwd : Bool) : Option (Nat × BPkt) :=
  let i := 64 * a + p.dst
  let e := s.fld .BD_ROUTE_PORT i
  let dl := p.dl && !(fwd && s.flag .BD_ROUTE_CLASS_RESET i)
  let line := s.flag .BD_CTL_DATELINE e
  if !s.flag .BD_ROUTE_VALID i ∨ 6 ≤ e ∨ (fwd && p.hops = 0) ∨ (line && dl) then none
  else some (e, { p with dl := dl || line, hops := if fwd then p.hops - 1 else p.hops })

def State.routeError (s : State) (a : Nat) (p : BPkt) : State := s.event .bendRouteError ⟨.bendPort, a⟩ none p.dst

/-- A response to a request that arrived on port `a` leaves its wafer, or is discarded: on a route error, or through a port that is down. -/
def State.respond (s : State) (a : Nat) (q : BPkt) (st data : Nat) : State :=
  let opc := answerOf q.opc
  let p : BPkt := { opc := opc, dst := q.src, src := q.dst, retPort := q.retPort, tag := q.tag, hops := 15, status := st,
                    len := if st = brOk && opc = opRdData then q.len else 0, data := if st = brOk then data else 0 }
  match s.routeOf a p false with
  | none => s.routeError a p
  | some (e, p) => if s.bendUp e then (s.setBend e { s.bend e with outq := (s.bend e).outq ++ [p] }).pump e else s

/-- A packet that arrived on port `a` for another wafer is forwarded; a route error answers a request with ROUTE, a port that is down with
FENCED. -/
def State.forward (s : State) (a : Nat) (p : BPkt) : State :=
  let drop := s.freeCells p.arr p.cells
  match s.routeOf a p true with
  | none =>
    let s := drop.routeError a p
    if isResponse p.opc then s else s.respond a p brRoute 0
  | some (e, q) =>
    if s.bendUp e then (s.setBend e { s.bend e with outq := (s.bend e).outq ++ [q] }).pump e
    else if isResponse p.opc then drop else drop.respond a p brFenced 0

/-- A packet is complete at port `a`: it waits at the port that it names, or is forwarded (DEDUCED, log entry 77). -/
def State.deliver (s : State) (a : Nat) (p : BPkt) : State :=
  if p.dst ≠ s.fld .BD_CTL_WAFER_ID a then s.forward a p
  else
    let t := if isResponse p.opc then p.retPort else p.dstPort
    if (s.bend t).present && !s.fences.routers.contains (s.bend t).bay then s.setBend t { s.bend t with arrived := (s.bend t).arrived ++ [p] }
    else
      let s := s.freeCells p.arr p.cells
      if isResponse p.opc then s else s.respond a p brFenced 0

/-! ### Receiving flits (R669 to R676) -/

/-- The cells of an accepted flit: packets fill them in order, a padding cell ends the flit; `none` for a protocol error. -/
def State.rxStream (s : State) (b : Nat) : List Nat → Option State
  | [] => some s
  | c :: rest =>
    let x := s.bend b
    if x.rxCells.isEmpty && c % 256 = 0 then some s
    else
      let cells := x.rxCells ++ [c]
      match pktOf ((cells.head?).getD 0) with
      | none => none
      | some p =>
        let got := SMap.get 0 x.recv p.vc + 1
        let s := s.setBend b { x with recv := SMap.set 0 x.recv p.vc (got % 65536), rxCells := if cells.length = p.cells then [] else cells }
        if vcCells p.vc < (got + 65536 - SMap.get 0 x.freed p.vc) % 65536 then none
        else if cells.length = p.cells then
          let data := (cells.drop 1).foldr (fun c a => c + a * 2 ^ 128) 0
          (s.deliver b { p with data := data, arr := some (b, p.vc) }).rxStream b rest
        else s.rxStream b rest

/-- A flit is lost or out of order: NAK, again only 4 µs after the last one. -/
def State.rxError (s : State) (b : Nat) : State :=
  let x := s.bend b
  if x.nakSent && decide (s.clockUs < x.nakAt + 4) then s
  else (s.setBend b { x with nakSent := true, nakAt := s.clockUs }).emit b flitCtrl 0 (1 + x.rxSeq * 2 ^ 8)

/-- A CRC-good DATA flit. -/
def State.dataIn (s : State) (b seq payload : Nat) : State :=
  let x := s.bend b
  if seq = x.rxSeq then
    let s := s.setBend b { x with rxSeq := (seq + 1) % 4096, rxAny := true, nakSent := false, ackDue := x.ackDue + 1 }
    match s.rxStream b ((List.range 15).map (fun i => payload >>> (128 * i) % 2 ^ 128)) with
    | none => s.protocolError b
    | some s => if 16 ≤ (s.bend b).ackDue then s.emit b flitIdle 0 0 else s
  else if (x.rxSeq + 4096 - seq) % 4096 ≤ 2048 then s
  else s.rxError b

/-- A CTRL flit. -/
def State.ctrlIn (s : State) (b payload : Nat) : State :=
  let m := payload % 2 ^ 256
  match m % 256 with
  | 1 => s.nakIn b (bits m 19 8)
  | 2 => s.initIn b (bits m 13 8) (bits m 29 14) (bits m 32 30) ((List.range 6).map (fun v => bits m (64 + 16 * v + 15) (64 + 16 * v)))
  | 3 => s.initAckIn b
  | 4 => s.downIn b
  | _ => s.protocolError b

/-- A flit arrives with the symbols that the FEC corrected in it; `uncorr` when a codeword under it was beyond correction. -/
def execFlitReceived (b : Nat) (flit : BitVec 2048) (corrected : Nat) (uncorr : Bool) (s : State) := commit s (fun s =>
  let st := s.bdState b
  if 6 ≤ b ∨ (st ≠ bdInit ∧ st ≠ bdActive) then s
  else
    let x := flit.toNat
    let s := s.bump .BD_FEC_CE_SYMBOLS b corrected
    if uncorr then (s.bump .BD_ERR_FEC_UNCORR b 1).rxError b
    else if flitCrc x ≠ bits x 2047 1984 then (s.bump .BD_ERR_CRC_FAIL b 1).rxError b
    else
      let ty := bits x 3 0
      let seq := bits x 15 4
      let vc := bits x 31 29
      if 2 < ty ∨ bits x 63 48 ≠ 0 ∨ 6 ≤ vc ∨ (ty ≠ flitData ∧ seq ≠ 0) then s.protocolError b
      else
        let s := if bit x 28 then s.ackIn b (bits x 27 16) else s
        let s := s.setBend b { s.bend b with peerFreed := SMap.set 0 (s.bend b).peerFreed vc (bits x 47 32) }
        let payload := bits x 1983 64
        let s := if ty = flitData then s.dataIn b seq payload else if ty = flitCtrl then s.ctrlIn b payload else s
        s.pump b)

/-! ### Remote requests (R684, R688, R689) -/

/-- The first request of a kind that waits at port `b`. -/
def State.arrivedReq (s : State) (b opc : Nat) : Option BPkt := (s.bend b).arrived.find? (fun p => p.opc = opc)

/-- A request has been served: it leaves its buffer and its answer leaves the wafer. -/
def State.served' (s : State) (b : Nat) (p : BPkt) (st data : Nat) : State :=
  let s := (s.setBend b { s.bend b with arrived := (s.bend b).arrived.erase p }).freeCells p.arr p.cells
  s.respond ((p.arr.map (·.1)).getD b) p st data

/-- A refusal (R684). -/
def State.spliceRefused (s : State) (b : Nat) (p : BPkt) : State :=
  (s.event .bendSpliceRefused ⟨.bendPort, b⟩ none p.entry p.src).served' b p brRefused 0

/-- Checks 1 and 2: the entry is VALID, of a kind that `kinds` names, not draining, and names this source. -/
def State.entryOk (s : State) (b : Nat) (p : BPkt) (kinds : List Nat) : Bool :=
  let i := 256 * b + p.entry
  s.flag .BD_SPLICE_A_VALID i && kinds.contains (s.fld .BD_SPLICE_A_KIND i) && !s.flag .BD_SPLICE_A_BUSY i &&
    s.fld .BD_SPLICE_A_SRC_WAFER i = p.src && s.fld .BD_SPLICE_A_SRC_COIL i = p.coil

/-- The views of BD_SPLICE_B (Table 20.13). -/
def spBase (w : Nat) : Nat := bits w 23 0
def spFathoms (w : Nat) : Nat := bits w 40 24
def spRing (w : Nat) : Nat := bits w 35 0
def spLog2 (w : Nat) : Nat := bits w 40 36
def spKnotBase (w : Nat) : Nat := bits w 19 0
def spKnotCount (w : Nat) : Nat := bits w 40 20

/-- `n` bytes from a DVA of a coil, translated line by line through NEAR and STRIPE leaves; `none` if a leaf is missing or denies the access. -/
def State.remotePieces (s : State) (coil : Nat) (k : AccKind) : Nat → Nat → Nat → Nat → Option (List BPiece)
  | 0, _, _, _ => some []
  | fuel + 1, dva, n, value =>
    if n = 0 then some []
    else
      let m := min n (64 - dva % 64)
      match s.preFault coil dva, s.walk coil dva with
      | none, .inl l =>
        if (l.target ≠ .near ∧ l.target ≠ .stripe) ∨ (l.denies k).isSome then none
        else match s.leafWpa l dva with
        | .inl w => match placeOf w with
          | .spool _ _ => (s.remotePieces coil k fuel (dva + m) (n - m) (value >>> (8 * m))).map (fun r =>
              { wpa := w, n := m, value := value % 2 ^ (8 * m), shared := l.shared } :: r)
          | _ => none
        | .inr _ => none
      | _, _ => none

/-- Check 3 for a MEM entry: the pieces of the request. -/
def State.memPieces (s : State) (b : Nat) (p : BPkt) (k : AccKind) (n value : Nat) : Option (List BPiece) :=
  let i := 256 * b + p.entry
  let w := s.fld .BD_SPLICE_B_WORD i
  let r := s.flag .BD_SPLICE_A_R i
  let wr := s.flag .BD_SPLICE_A_W i
  let may := match k with
    | .read => r
    | .write => wr
    | _ => r && wr
  if !s.entryOk b p [0] ∨ spFathoms w * 0x1000000 < p.off + n ∨ !may then none
  else s.remotePieces (s.fld .BD_SPLICE_A_COIL i) k 6 (spBase w * 0x1000000 + p.off) n value

/-- Every line of a request is free at its home. -/
def State.quietPieces (s : State) (l : List BPiece) : Bool := l.all (fun x => s.quietLine (x.wpa / 64))

/-- The status that a home's answer becomes. -/
def brHome (st : Nat) : Nat := if st = spOk then brOk else if st = spPerm then brRefused else brFenced

/-- Non-caching reads of the pieces as the coil: status and data; `c` is what the check of the first line finds. -/
def State.readRemote (s : State) (coil : Nat) (c : LineCheck) : List BPiece → Nat × Nat × State
  | [] => (brOk, 0, s)
  | x :: rest =>
    let r := s.ncRead (x.wpa / 64) (some coil) x.shared c
    let st := if r.1 = spOk && r.2.2.1 then brPoison else brHome r.1
    let t := r.2.2.2.readRemote coil {} rest
    (if st ≠ brOk then st else t.1, lineField r.2.1 (x.wpa % 64) x.n + t.2.1 * 2 ^ (8 * x.n), t.2.2)

/-- Non-caching writes of the pieces as the coil. -/
def State.writeRemote (s : State) (coil : Nat) : List BPiece → Nat × State
  | [] => (brOk, s)
  | x :: rest =>
    let r := s.ncWrite (x.wpa / 64) (some coil) x.shared (setLineField 0 (x.wpa % 64) x.n x.value) (fieldMask (x.wpa % 64) x.n) false
    let t := r.2.writeRemote coil rest
    (if brHome r.1 ≠ brOk then brHome r.1 else t.1, t.2)

/-- A remote read: RdNC at the local home; it waits while a line is busy there. -/
def execRd (b : Nat) (c : LineCheck) (s : State) := commit s (fun s =>
  match s.arrivedReq b opRd with
  | none => s
  | some p =>
    match s.memPieces b p .read p.len 0 with
    | none => s.spliceRefused b p
    | some l =>
      if s.quietPieces l then
        let r := s.readRemote (s.fld .BD_SPLICE_A_COIL (256 * b + p.entry)) c l
        r.2.2.served' b p r.1 r.2.1
      else s)

/-- A remote write is accepted into its entry's pending queue and answered. -/
def execWr (b : Nat) (s : State) := commit s (fun s =>
  match s.arrivedReq b opWr with
  | none => s
  | some p =>
    match s.memPieces b p .write p.len p.data with
    | none => s.spliceRefused b p
    | some l =>
      let w : PendWrite := { entry := p.entry, coil := s.fld .BD_SPLICE_A_COIL (256 * b + p.entry), pieces := l }
      (s.setBend b { s.bend b with pend := (s.bend b).pend ++ [w] }).served' b p brOk 0)

/-- Accepted writes that `f` names are performed, in order, where their homes are free. -/
def State.perform (s : State) (b : Nat) (f : PendWrite → Bool) : State :=
  (s.bend b).pend.foldl (fun s w =>
    if f w && s.quietPieces w.pieces then
      let s := s.setBend b { s.bend b with pend := (s.bend b).pend.erase w }
      (s.writeRemote w.coil w.pieces).2
    else s) s

/-- Time lets every accepted write of every port be performed. -/
def State.performAll (s : State) : State := (List.range 6).foldl (fun s b => s.perform b (fun _ => true)) s

/-- A remote atomic at the local home. -/
def execBendAtom (b : Nat) (s : State) := commit s (fun s =>
  match s.arrivedReq b opAtom with
  | none => s
  | some p =>
    let n := 2 ^ p.asz
    match s.memPieces b p .atomic n 0 with
    | some [x] =>
      let bad := if 10 ≤ p.atop then p.asz ≠ 1 ∧ p.asz ≠ 2 else p.asz ≠ 2 ∧ p.asz ≠ 3
      if bad ∨ p.off % n ≠ 0 then s.spliceRefused b p
      else if s.quietLine (x.wpa / 64) then
        let w := 2 ^ (8 * n)
        let r := s.ncAtom (x.wpa / 64) (some (s.fld .BD_SPLICE_A_COIL (256 * b + p.entry))) x.shared (p.atop + 0x10) (x.wpa % 64) n
          (p.data % 2 ^ 64 % w) (p.data >>> 64 % 2 ^ 64 % w)
        r.2.2.2.served' b p (if r.1 = spOk && r.2.2.1 then brPoison else brHome r.1) r.2.1
      else s
    | _ => s.spliceRefused b p)

/-- A remote window fence is answered once every write that its entry has accepted has been performed (R689 step 3). -/
def execWfence (b : Nat) (s : State) := commit s (fun s =>
  match s.arrivedReq b opWfence with
  | none => s
  | some p =>
    if !s.entryOk b p [0, 1, 2] then s.spliceRefused b p
    else
      let s := s.perform b (fun w => w.entry = p.entry)
      if (s.bend b).pend.any (fun w => w.entry = p.entry) then s else s.served' b p brOk 0)

/-! ### Messages (R691 to R693) -/

/-- A message's reserved fields are zero, its type and length legal. -/
def msgOk (m : Nat) : Bool :=
  let ty := bits m 15 0
  (ty = 1 || ty = 2) && decide (bits m 31 16 ≤ 240) && bits m 63 44 = 0 && bits m 95 84 = 0

/-- A message into a mailbox ring. -/
def State.toMailbox (s : State) (b : Nat) (p : BPkt) : State :=
  let i := 256 * b + p.entry
  let coil := s.fld .BD_SPLICE_A_COIL i
  let w := s.fld .BD_SPLICE_B_WORD i
  let n := 2 ^ spLog2 w
  let ring := spRing w * 4096
  let idx := s.fld .BD_SPLICE_C_WRITE i
  let full := fun (s : State) => decide (n ≤ (idx + 2 ^ 32 - SMap.get 0 (s.bend b).heads p.entry) % 2 ^ 32)
  let head := s.remotePieces coil .read 1 (ring + 256 * n) 8 0
  let read : Nat × State :=
    if !full s then (brOk, s)
    else match head with
    | none => (brRefused, s)
    | some l =>
      let r := s.readRemote coil {} l
      (r.1, r.2.2.setBend b { r.2.2.bend b with heads := SMap.set 0 (r.2.2.bend b).heads p.entry (r.2.1 % 2 ^ 32) })
  let slot := ring + 256 * (idx % n)
  let phase := bits idx (spLog2 w) (spLog2 w) = 0
  let word := p.data % 2 ^ 32 + b2n phase * 2 ^ 32 + p.src * 2 ^ 33 + p.coil * 2 ^ 39 + bits p.data 127 64 * 2 ^ 64
  if read.1 = brRefused then read.2.spliceRefused b p
  else if read.1 ≠ brOk then read.2.served' b p read.1 0
  else if full read.2 then (read.2.bump .BD_SPLICE_C_DROPPED i 1).served' b p brFull 0
  else match s.remotePieces coil .write 6 (slot + 16) 240 (p.data >>> 128), s.remotePieces coil .write 1 slot 16 word with
  | some body, some top =>
    if !(s.quietPieces body && s.quietPieces top) then read.2
    else
      let r := read.2.writeRemote coil body
      if r.1 = brRefused then r.2.spliceRefused b p
      else if r.1 ≠ brOk then r.2.served' b p r.1 0
      else
        let t := r.2.writeRemote coil top
        if t.1 = brRefused then t.2.spliceRefused b p
        else if t.1 ≠ brOk then t.2.served' b p t.1 0
        else (t.2.setFld .BD_SPLICE_C_WRITE i (idx + 1)).served' b p brOk 0
  | _, _ => read.2.spliceRefused b p

/-- A token decrements a knot as CP_KNOT_CMD does. -/
def State.toKnot (s : State) (b : Nat) (p : BPkt) : State :=
  let i := 256 * b + p.entry
  let coil := s.fld .BD_SPLICE_A_COIL i
  let w := s.fld .BD_SPLICE_B_WORD i
  let k := bits p.data 83 64
  let knot := spKnotBase w + k
  if bits p.data 15 0 ≠ 2 ∨ spKnotCount w ≤ k ∨ s.knotCount coil ≤ knot then s.spliceRefused b p
  else (s.capDo [.dec coil knot (bits p.data 126 96) (bit p.data 127)]).served' b p brOk 0

def execMsg (b : Nat) (s : State) := commit s (fun s =>
  match s.arrivedReq b opMsg with
  | none => s
  | some p =>
    if !s.entryOk b p [1, 2] ∨ !msgOk p.data then s.spliceRefused b p
    else if s.fld .BD_SPLICE_A_KIND (256 * b + p.entry) = 1 then s.toMailbox b p
    else s.toKnot b p)

/-! ### Windows and entries (R682, R683, R686, R690) -/

/-- The refusals that windows and entries share: another coil, NO_COIL, SEALED, BUSY. -/
def State.spliceStatus (s : State) (old coil : Nat) (taken busy : Bool) : Nat :=
  if taken ∧ old ≠ coil then 3
  else if s.fld .CP_COIL_ADMIN_STATE coil ≠ 1 ∧ !s.sealed coil then 4
  else if s.sealed coil then 5
  else if taken ∨ busy then 6
  else 0

/-- BD_WIN[w] written with OPEN set. -/
def execWindowOpen (p b w coil dst dstPort entry kind fathoms : Nat) (s : State) := commit s (fun s =>
  if 6 ≤ b ∨ 256 ≤ w ∨ 6 ≤ dstPort ∨ 64 ≤ dst ∨ 256 ≤ entry ∨ 2 ≤ kind then s
  else s.coilScoped p coil (0x3001000 + 0x100000 * b + 8 * w) (fun s =>
    let i := 256 * b + w
    let st := if fathoms = 0 then 1 else if 65536 < fathoms ∨ dst = s.fld .BD_CTL_WAFER_ID b then 2
      else s.spliceStatus (s.fld .BD_WIN_COIL i) coil (s.flag .BD_WIN_OPEN i) (s.flag .BD_WIN_BUSY i)
    if st ≠ 0 then s.setFld .BD_WIN_STATUS i st
    else s.setFld .BD_WIN_COIL i coil |>.setFld .BD_WIN_OPEN i 1 |>.setFld .BD_WIN_DST_WAFER i dst |>.setFld .BD_WIN_DST_PORT i dstPort
      |>.setFld .BD_WIN_ENTRY i entry |>.setFld .BD_WIN_KIND i kind |>.setFld .BD_WIN_FATHOMS i fathoms |>.setFld .BD_WIN_STATUS i 0))

/-- Requests of a window that await responses. -/
def BendPort.outstanding (x : BendPort) (w : Nat) : Nat :=
  (x.tags.filter (fun t => t.req.window = w)).length + (x.waiting.filter (fun r => r.window = w)).length

/-- A window stops at once; BUSY stands until its requests have their responses. -/
def State.closeWindow (s : State) (b w : Nat) : State :=
  let i := 256 * b + w
  if !s.flag .BD_WIN_OPEN i then s.setFld .BD_WIN_STATUS i 0
  else
    let busy := decide (0 < (s.bend b).outstanding w)
    let s := s.setFld .BD_WIN_OPEN i 0 |>.setFld .BD_WIN_BUSY i (b2n busy) |>.setFld .BD_WIN_STATUS i 0
    if busy then s else s.logLost b (fun x => x.2.1 = w)

def execWindowClose (p b w : Nat) (s : State) := commit s (fun s =>
  if 6 ≤ b ∨ 256 ≤ w then s
  else s.coilScoped p (s.fld .BD_WIN_COIL (256 * b + w)) (0x3001000 + 0x100000 * b + 8 * w) (fun s => s.closeWindow b w))

/-- Writes that an entry has accepted and not performed. -/
def BendPort.pendingOf (x : BendPort) (e : Nat) : Nat := (x.pend.filter (fun w => w.entry = e && w.counted)).length

/-- An entry stops at once; BUSY stands until what it accepted has been performed. -/
def State.closeEntry (s : State) (b e : Nat) : State :=
  let i := 256 * b + e
  if !s.flag .BD_SPLICE_A_VALID i then s.setFld .BD_SPLICE_A_STATUS i 0
  else s.setFld .BD_SPLICE_A_VALID i 0 |>.setFld .BD_SPLICE_A_BUSY i (b2n ((s.bend b).pend.any (fun w => w.entry = e)))
    |>.setFld .BD_SPLICE_A_STATUS i 0

def execSpliceEntryInvalidate (p b e : Nat) (s : State) := commit s (fun s =>
  if 6 ≤ b ∨ 256 ≤ e then s
  else s.coilScoped p (s.fld .BD_SPLICE_A_COIL (256 * b + e)) (0x3002000 + 0x100000 * b + 32 * e) (fun s => s.closeEntry b e))

/-- A window's requests have their responses, or an entry's accepted writes have been performed: BUSY clears. -/
def execWindowDrained (b : Nat) (entry : Bool) (i : Nat) (s : State) := commit s (fun s =>
  let k := 256 * b + i
  if 6 ≤ b ∨ 256 ≤ i then s
  else if entry then
    if !s.flag .BD_SPLICE_A_BUSY k then s
    else
      let s := s.perform b (fun w => w.entry = i)
      if (s.bend b).pend.any (fun w => w.entry = i) then s else s.setFld .BD_SPLICE_A_BUSY k 0
  else if s.flag .BD_WIN_BUSY k && decide ((s.bend b).outstanding i = 0) then (s.setFld .BD_WIN_BUSY k 0).logLost b (fun x => x.2.1 = i)
  else s)

/-- BD_SPLICE_A[e] written with VALID set, over the BD_SPLICE_B[e] that stands. -/
def execSpliceEntryValid (p b e coil kind : Nat) (r w : Bool) (srcWafer srcCoil : Nat) (s : State) := commit s (fun s =>
  if 6 ≤ b ∨ 256 ≤ e ∨ 3 ≤ kind ∨ 64 ≤ srcWafer ∨ 32 ≤ srcCoil then s
  else s.coilScoped p coil (0x3002000 + 0x100000 * b + 32 * e) (fun s =>
    let i := 256 * b + e
    let word := s.fld .BD_SPLICE_B_WORD i
    let size := (kind = 0 ∧ spFathoms word = 0) ∨ (kind = 2 ∧ spKnotCount word = 0)
    let range := (kind = 0 ∧ 65536 < spFathoms word) ∨ (kind = 1 ∧ (spLog2 word < 4 ∨ 16 < spLog2 word)) ∨
      (kind = 2 ∧ 2 ^ 20 < spKnotCount word) ∨ srcWafer = s.fld .BD_CTL_WAFER_ID b
    let st := if size then 1 else if range then 2
      else s.spliceStatus (s.fld .BD_SPLICE_A_COIL i) coil (s.flag .BD_SPLICE_A_VALID i) (s.flag .BD_SPLICE_A_BUSY i)
    if st ≠ 0 then s.setFld .BD_SPLICE_A_STATUS i st
    else
      let s := s.setBend b { s.bend b with heads := SMap.set 0 (s.bend b).heads e 0 }
      s.setFld .BD_SPLICE_A_COIL i coil |>.setFld .BD_SPLICE_A_VALID i 1 |>.setFld .BD_SPLICE_A_KIND i kind |>.setFld .BD_SPLICE_A_R i (b2n r)
        |>.setFld .BD_SPLICE_A_W i (b2n w) |>.setFld .BD_SPLICE_A_SRC_WAFER i srcWafer |>.setFld .BD_SPLICE_A_SRC_COIL i srcCoil
        |>.setFld .BD_SPLICE_A_STATUS i 0 |>.setFld .BD_SPLICE_C_WRITE i 0))

/-- A message block stays incomplete for 100 µs: it is discarded (R690). -/
def execMsgPartialTimeout (b w block : Nat) (s : State) := commit s (fun s =>
  let x := s.bend b
  match x.blocks.find? (fun m => m.window = w && m.block = block) with
  | none => s
  | some m =>
    ((s.setBend b { x with blocks := x.blocks.erase m }).event .bendMsgPartial ⟨.bendPort, b⟩ (some m.coil) (256 * block) 0 w).pump b)

/-- Every window and entry of a coil closes (Table 18.4 step 4); whether one still drains. -/
def State.closeSplices (s : State) (coil : Nat) : State :=
  (List.range 6).foldl (fun s b => (List.range 256).foldl (fun s i =>
    let k := 256 * b + i
    let s := if s.flag .BD_WIN_OPEN k && s.fld .BD_WIN_COIL k = coil then s.closeWindow b i else s
    if s.flag .BD_SPLICE_A_VALID k && s.fld .BD_SPLICE_A_COIL k = coil then s.closeEntry b i else s) s) s
def State.holdsSplice (s : State) (coil : Nat) : Bool :=
  s.regs.any (fun e => (e.1 % 512 = Fld.BD_WIN_OPEN.num && s.fld .BD_WIN_COIL (e.1 / 512) = coil) ||
    (e.1 % 512 = Fld.BD_SPLICE_A_VALID.num && s.fld .BD_SPLICE_A_COIL (e.1 / 512) = coil))

end Sys2Proof.Machine
end

