-- ==== Sys2Proof/Machine/Vaults.lean ====
section
/-!
DEFINITION. Line reads whose check may fence a vault (R226, R252), vault requests and patrol scrub (R214, R234), and the carves and maintenance
operations by way of a ply cache (R320 to R325).
-/
namespace Sys2Proof.Machine

/-! ### Reads at a vault -/

/-- UE_LINES has reached 64 since wake: the vault is fenced (R252). -/
def State.ueFence (s : State) (v : Option Nat) : State :=
  match v with
  | some v => if 64 ≤ s.fld .SP_VAULT_STATUS_UE_LINES v then s.fenceUnit ⟨.vault, v⟩ 11 else s
  | none => s

def execRda (y line : Nat) (c : LineCheck) (s : State) := commit s (fun s => (s.takeRequest y line (· = .brd) .rda c).ueFence (lineVault line))
def execRds (y line : Nat) (c : LineCheck) (s : State) := commit s (fun s => (s.takeRequest y line (· = .brds) .rds c).ueFence (lineVault line))
def execRdx (y line : Nat) (c : LineCheck) (s : State) := commit s (fun s => (s.takeRequest y line (· = .brdx) .rdx c).ueFence (lineVault line))
def execOwn (y line : Nat) (full : Bool) (c : LineCheck) (s : State) := commit s (fun s =>
  (s.takeRequest y line (· = .bown full) (.own full) c).ueFence (lineVault line))
def execRdnc (line : Nat) (coil shared : Option Nat) (c : LineCheck) (s : State) := commit s (fun s =>
  (s.homeRead line coil shared c).ueFence (lineVault line))
def execBnc (y line : Nat) (c : LineCheck) (s : State) := commit s (fun s => (s.bncServe y line c).ueFence (lineVault line))

/-- A vault controller takes a request at an offset: refused, served, or, while its row is being copied to a spare, waiting for that
or for the end of its coil's pause (R214, R229, R249). -/
def execVaultRequest (v off : Nat) (r : SpoolReq) (s : State) := commit s (fun s =>
  if !s.module.railsOn ∨ 3072 ≤ v ∨ vaultSize ≤ off then s
  else
    let line := (v * vaultSize + off) / 64
    if s.vaultCheck v r.coil r.shared = spOk && ((s.vault v).copying.contains (rowOf off) || s.slicedOut line r.coil) then s
    else if r.write then
      let x := s.ncWrite line r.coil r.shared r.data r.mask r.poison
      x.2.send (.spool x.1 0 false)
    else
      let x := s.ncRead line r.coil r.shared r.check
      (x.2.2.2.send (.spool x.1 x.2.1 x.2.2.1)).ueFence (some v))

/-- Patrol scrub reads a line: a corrected line is rewritten and counted against its row, an uncorrectable one handled as any read. At the
end of a pass the row and period counts start again (R228, R234). -/
def execPatrolScrub (v off : Nat) (c : LineCheck) (endOfPass : Bool) (s : State) := commit s (fun s =>
  if !s.module.railsOn ∨ 3072 ≤ v ∨ vaultSize ≤ off ∨ !s.flag .SP_SCRUB_CTL_ENABLE 0 ∨ s.fences.vaults.contains v ∨ (s.vault v).resetting then s
  else
    let line := (v * vaultSize + off) / 64
    let t := s.checkLine line v c
    let s := if checkCorrects c then t.scrubRow v (rowOf off) else t
    let s := if endOfPass then
        (s.setVault v { s.vault v with rowCe := [], periodCe := 0, storm := false }).bump .SP_SCRUB_STATUS_PASSES 0 1 else s
    s.ueFence (some v))

/-! ### Carving (R320) -/

/-- The coil-scoped registers of a ply belong to the coil that owns it; a write for a ply that no coil owns is discarded (R327) (DEDUCED, log entry 18). -/
def State.plyScoped (s : State) (p y off : Nat) (f : State → State) : State :=
  if 384 ≤ y then s
  else match s.plyCoil y with
  | some c => s.coilScoped p c (0x10500000 + bayOfPly y * 0x1000000 + y % 4 * 0x10000 + off) f
  | none => s

/-- A task is in flight on a core of the ply, or a Tackle channel of it is active. -/
def State.plyBusy (s : State) (y : Nat) : Bool :=
  !(s.tasksOn (fun c => plyOfCore c = y)).isEmpty || (coresOf y).any (fun c => (s.core c).running) ||
    (span (32 * y) 32).any (fun i => !s.channelIdle i)

/-- A line is cleaned and removed from a ply: dirty data goes towards its home, and the line is noted until it is acknowledged. -/
def State.cleanInv (s : State) (y line : Nat) : State :=
  match (s.ply y).copy line with
  | some c => (s.forget y line).leavePly y line c
  | none => s

/-- A line is cleaned: a dirty COH copy is written back with BCLN and stays valid, an STR copy's written bytes go to its target. -/
def State.cleanCopy (s : State) (y line : Nat) : State :=
  match (s.ply y).copy line with
  | some c =>
    if c.str then
      if c.mask = 0 then s
      else
        let s := ((s.writeTarget (s.plyCoil y) none line c.data c.mask c.poison).2).bump .PC_WRITEBACKS_COUNT y 1
        s.setCopy y line { c with st := .s, mask := 0 }
    else if c.st = .m then
      let b := s.bus (bayOfPly y)
      ((s.setBus (bayOfPly y) { b with wbs := b.wbs ++ [{ ply := y, line := line, kind := .cln, data := some c.data, poison := c.poison }] }).setCopy
        y line { c with st := .e }).bump .PC_WRITEBACKS_COUNT y 1
    else s
  | none => s

/-- PC_SCRATCH written: the lines of ways that are carved are cleaned and invalidated, and every way that changes sides is zeroed when the
carve completes (DEDUCED, log entry 22). -/
def execCarve (p y ways : Nat) (s : State) := commit s (fun s => s.plyScoped p y 0x10 (fun s =>
  if ((s.plyCoil y).any s.sealed) ∨ 8 < ways then s
  else if s.plyBusy y ∨ (s.ply y).carving.isSome ∨ (s.ply y).maint.isSome then s.setFld .PC_SCRATCH_STATUS y 1
  else
    let old := s.carved y
    let gone := (s.ply y).cache.filter (fun e => decide (16 - ways ≤ e.2.way))
    let s := if old < ways then gone.foldl (fun s e => s.cleanInv y e.1) s else s
    let s := s.setPly y { s.ply y with carving := some ways }
    s.setFld .PC_SCRATCH_WAYS y ways |>.setFld .PC_SCRATCH_STATUS y 0 |>.setFld .PC_STATUS_CARVE_BUSY y 1))

/-- A carve completes: a fill that took one of its ways meanwhile is removed too (Table 9.8), and scratch bytes outside both carvings
are zero. -/
def execCarveDone (y : Nat) (s : State) := commit s (fun s =>
  match (s.ply y).carving with
  | none => s
  | some ways =>
    let old := s.carved y
    let s := ((s.ply y).cache.filter (fun e => decide (16 - ways ≤ e.2.way))).foldl (fun s e => s.cleanInv y e.1) s
    let keep := min old ways * 0x100000
    let lo := scratchBase + y * 0x1000000
    let s : State := { s with mem := s.mem.filter (fun e => !(decide (lo + keep ≤ e.1) && decide (e.1 < lo + 0x1000000))) }
    let l1 := fun (line : Nat) => decide (lo + keep ≤ 64 * line) && decide (64 * line < lo + 0x1000000)
    let s := (coresOf y).foldl (fun s c => s.setCore c { s.core c with l1d := (s.core c).l1d.filter (fun e => !l1 e.1) }) s
    let s := s.setPly y { s.ply y with carving := none, scratchPoison := (s.ply y).scratchPoison.filter (fun l => decide (64 * l < keep)) }
    s.setFld .PC_STATUS_WAYS y ways |>.setFld .PC_STATUS_CARVE_BUSY y 0)

/-! ### Maintenance by way (R322 to R325) -/

/-- The line at a way and set of the array, or at a victim entry for way 16. -/
def State.lineOfWay (s : State) (y way set : Nat) : Option Nat :=
  if way = 16 then ((s.ply y).victim[set]?).map (·.1)
  else ((s.ply y).cache.find? (fun e => e.2.way = way && plySet e.1 = set)).map (·.1)

/-- Lines with a write-back of the ply that its home has not acknowledged, among `lines`. -/
def State.unacked (s : State) (y : Nat) (lines : List Nat) : List Nat :=
  lines.filter (fun l => (s.bus (bayOfPly y)).wbs.any (fun w => w.ply = y && w.line = l && w.data.isSome))

/-- PC_MAINT accepts an operation: BUSY while one is in progress or a carve runs, RESERVED or SCRATCH for a way or set that it cannot
name; otherwise it acts at once and completes when its write-backs are acknowledged. -/
def State.maintWay (s : State) (p y op way set : Nat) (act : State → Nat → State) : State :=
  s.plyScoped p y 0x18 (fun s =>
    if (s.ply y).maint.isSome ∨ (s.ply y).carving.isSome then s.setFld .PC_MAINT_STATUS y 1
    else if op ≠ 4 ∧ (16 < way ∨ 16384 ≤ set ∨ (way = 16 ∧ 32 ≤ set)) then s.setFld .PC_MAINT_STATUS y 3
    else if op ≠ 4 ∧ way < 16 ∧ 16 - s.carved y ≤ way then s.setFld .PC_MAINT_STATUS y 2
    else
      let lines := if op = 4 then ((s.ply y).cache ++ (s.ply y).victim).map (·.1) else (s.lineOfWay y way set).toList
      let s := lines.foldl act s
      let s := s.setPly y { s.ply y with maint := some { op := op, way := way, set := set, waits := s.unacked y lines } }
      s.setFld .PC_MAINT_STATUS y 0 |>.setFld .PC_STATUS_MAINT_BUSY y 1)

def execCleanWay (p y way set : Nat) (s : State) := commit s (fun s => s.maintWay p y 1 way set (fun s l => s.cleanCopy y l))
def execInvWay (p y way set : Nat) (s : State) := commit s (fun s => s.maintWay p y 2 way set (fun s l => s.cleanInv y l))
def execCleanInvWay (p y way set : Nat) (s : State) := commit s (fun s => s.maintWay p y 3 way set (fun s l => s.cleanInv y l))
def execCleanInvAll (p y : Nat) (s : State) := commit s (fun s => s.maintWay p y 4 0 0 (fun s l => s.cleanInv y l))

end Sys2Proof.Machine
end

