-- ==== Sys2Proof/Machine/Coil.lean ====
section
/-!
DEFINITION. Coils (chapter 18): creation, sealing, plies and power shares, quiescing, the coil reset of Table 3.5 and destruction.
-/
namespace Sys2Proof.Machine

/-! ### What a coil owns -/

/-- The plies that a coil owns, and the bays in which it owns one. -/
def State.pliesOf (s : State) (coil : Nat) : List Nat := (List.range 384).filter (fun y => s.plyCoil y = some coil)
def State.baysOf (s : State) (coil : Nat) : List Nat := (List.range 96).filter (fun k => (span (4 * k) 4).any (fun y => s.plyCoil y = some coil))

/-- A ply has an enabled core (R602). -/
def State.plyEnabled (s : State) (y : Nat) : Bool := (coresOf y).any (fun c => !s.fences.cores.contains c)

def adminOff (coil : Nat) : Nat := 0x1000400 + 8 * coil
def ownerOff (y : Nat) : Nat := 0x1001000 + 8 * y

/-- Whether field `n` of instance `i` lies in the CP_ block of a coil. -/
def coilBlock (coil n i : Nat) : Bool :=
  (i = coil && (inBlock .CP_COIL_CTL_SKFLUSH .CP_COIL_ENERGY_UJ n || inBlock .CP_COIL_RUN_QUIESCE .CP_COIL_RUN_STATUS n)) ||
    (i / 64 = coil && inBlock .CP_SRING_CFG_BASE .CP_CRING_MOD_IGNORED n)

/-- The coil's block, reservation, stripe control and DAT context at their reset values (R604). -/
def State.clearCoilRegs (s : State) (coil : Nat) : State :=
  s.resetFlds (fun n i => coilBlock coil n i || (i = coil && (inBlock .SP_RSV_GBPS .SP_RSV_PAUSED n ||
    inBlock .SP_STRIPE_CTL_COUNT .SP_STRIPE_CTL_STATUS n || inBlock .DT_CTX_ROOT_ROOT .DT_FAULT_INFO_COUNT n)))

/-! ### Quiesce and resume (R168, R624) -/

/-- The coil quiesces: its ticket reading stops, and what its records waited for no longer holds them. -/
def State.quiesceCoil (s : State) (coil : Nat) : State :=
  let s := s.setFld .CP_COIL_CTL_QUIESCED coil 1
  (s.loseRecords coil (s.tasksOf (fun k => k.coil = coil && k.state = .held && s.flag .CP_CRING_CFG_ENABLE (64 * coil + k.ticket.cring)) |>.filter s.hostRing)).releaseCoil coil

def execQuiesce (p coil : Nat) (s : State) := commit s (fun s => s.coilScoped p coil (cpOff coil 0x58) (fun s =>
  (s.quiesceCoil coil).setFld .CP_COIL_RUN_STATUS coil 0))

/-- QUIESCED clears, unless the home port is in Port Hold (R169). -/
def execResume (p coil : Nat) (s : State) := commit s (fun s => s.coilScoped p coil (cpOff coil 0x58) (fun s =>
  if s.flag .HT_HOLD_STATUS_HOLD p then s.setFld .CP_COIL_RUN_STATUS coil 2
  else ((s.setFld .CP_COIL_CTL_QUIESCED coil 0).releaseCoil coil).setFld .CP_COIL_RUN_STATUS coil 0))

/-! ### Coil reset (Table 3.5, R99, R573, R598, R599) -/

/-- The bytes of a range of the coil's memory are zeroed line by line, as far as the head reaches them. -/
def State.zeroFrom (s : State) (coil dva : Nat) : Nat → State
  | 0 => s
  | n + 1 =>
    match s.headXlat coil dva .write with
    | .spool w sh =>
      let s := if s.cohLine (w / 64) = 0 then s else (s.ncWrite (w / 64) (some coil) sh 0 (BitVec.allOnes 64) false).2
      s.zeroFrom coil (dva + 64) n
    | _ => s

/-- The knot table at zero: whole lines, or a line's first knots where the table is shorter. -/
def State.zeroKnots (s : State) (coil : Nat) : State :=
  if !s.flag .DT_CTX_CTL_ENABLE coil then s
  else
    let n := s.knotCount coil
    if n < 8 then (List.range n).foldl (fun s i => if (s.knot coil i).encode = 0 then s else s.setKnot coil i {}) s
    else s.zeroFrom coil (s.knotDva coil 0) (n / 8)

/-- Record writes on their way to Spool complete (R598). -/
def State.landRecords (s : State) (coil : Nat) : State :=
  (s.tasksOf (fun t => t.coil = coil && (match t.state with
    | .writing _ none => true
    | _ => false))).foldl (fun s t =>
    let k := s.task t
    match k.state, k.ended with
    | .writing idx none, some e =>
      let i := 64 * coil + k.ticket.cring
      let log2 := s.fld .CP_CRING_CFG_LOG2 i
      match s.headXlat coil (s.fld .CP_CRING_CFG_BASE i * 32 + 32 * (idx % 2 ^ log2)) .write with
      | .spool w sh =>
        ((s.ncWrite (w / 64) (some coil) sh (setLineField 0 (w % 64) 32 (recordBytes k e (idx / 2 ^ log2 % 2 = 0)))
          (fieldMask (w % 64) 32) false).2).dropTask t
      | _ => s.dropTask t
    | _, _ => s) s

/-- The coil's cores stop: issue ends, buffered stores drain, and no task is on them any more. -/
def State.stopCores (s : State) (coil : Nat) : State :=
  s.cores.foldl (fun s e =>
    let x := s.core e.1
    if x.running && x.coil = some coil then
      (s.setCore e.1 { x.startEnd with task := none, fault := none }).setFld .CR_STATUS_PSTATE e.1 1
    else s) s

/-- Every register of the port Tackle channels that the coil's VF owns takes its reset value. -/
def State.resetVfChannels (s : State) (coil : Nat) : State :=
  match s.coilFn coil with
  | some (p, fn) => if fn = 0 then s else (s.channelsOf p fn).foldl State.resetChannel s
  | none => s

/-- The coil reset: tasks are dropped, knots zeroed, rings returned to empty and channels stopped; the coil block keeps its RWL fields, QUIESCED
and PAUSED; records that were held count as discarded (R583) (DEDUCED, log entry 69). -/
def State.coilReset (s : State) (coil : Nat) : State :=
  let s := s.landRecords coil
  let held := (s.tasksOf (fun t => t.coil = coil && t.state = .held)).length
  let s := (s.tasksOf (fun t => t.coil = coil)).foldl State.dropTask s
  let s := s.stopCores coil
  let s := (s.pliesOf coil).foldl State.stopPlyChannels s
  let s := s.zeroKnots coil
  let s : State := { s with halyards := SMap.set {} s.halyards coil {}, cap := { s.cap with
    rings := s.cap.rings.filter (fun e => e.1 / 64 ≠ coil)
    skdir := s.cap.skdir.filter (fun e => e.coil ≠ coil)
    skent := s.cap.skent.filter (fun e => e.coil ≠ coil) } }
  let keep := [Fld.CP_COIL_CTL_FIXED_OP, .CP_COIL_CTL_INFLIGHT_MAX, .CP_COIL_POWER_SHARE_W, .CP_COIL_CTL_QUIESCED, .CP_COIL_CTL_PAUSED].map Fld.num
  let s := s.resetFlds (fun n i => coilBlock coil n i && !keep.contains n)
  (s.setFld .CP_COIL_DROPS_DISCARDED coil (min held (2 ^ 32 - 1))).setFld .CP_COIL_RUN_RESETTING coil 1

/-- The coil reset of a function-level reset: absorbed by one under way or by a destruction (R101, R627) (DEDUCED, log entry 70). -/
def State.flrCoil (s : State) (coil : Nat) : State :=
  if s.flag .CP_COIL_RUN_RESETTING coil ∨ s.fld .CP_COIL_ADMIN_STATE coil = 3 then s else s.coilReset coil

/-- RESET: refused with BUSY while a reset or a destruction runs. -/
def execReset (p coil : Nat) (s : State) := commit s (fun s => s.coilScoped p coil (cpOff coil 0x58) (fun s =>
  if s.flag .CP_COIL_RUN_RESETTING coil ∨ s.fld .CP_COIL_ADMIN_STATE coil = 3 then s.setFld .CP_COIL_RUN_STATUS coil 1
  else (s.coilReset coil).resetVfChannels coil))

/-- The coil reset ends once none of the coil's cores runs. -/
def State.coilQuiet (s : State) (coil : Nat) : Bool := !(s.cores.any (fun e => e.2.running && e.2.coil = some coil))

def execCoilResetEnd (coil : Nat) (s : State) := commit s (fun s =>
  if s.flag .CP_COIL_RUN_RESETTING coil && s.coilQuiet coil then s.setFld .CP_COIL_RUN_RESETTING coil 0 else s)

/-! ### Creation, sealing, REPEATABLE (R604, R612, R617) -/

def execCreate (p coil : Nat) (s : State) := commit s (fun s =>
  if 32 ≤ coil then s
  else s.waferScoped p (adminOff coil) (fun s =>
    if s.fld .CP_COIL_ADMIN_STATE coil ≠ 0 then s.setFld .CP_COIL_ADMIN_STATUS coil 2
    else (((s.clearCoilRegs coil).setFld .CP_COIL_ADMIN_STATE coil 1).setFld .CP_COIL_ADMIN_STATUS coil 0).event .coilCreated ⟨.none, 0⟩ (some coil)))

/-- The least power share of check 6, in W: the full-FP8 power of every core of its bays at the fixed point (Table 16.4). -/
def leastShare (bays op : Nat) : Nat := (bays * 32 * opCost op + 99) / 100

/-- The status of Table 18.3: the first check that fails, 0 when every one passes. -/
def State.sealStatus (s : State) (coil : Nat) : Nat :=
  let op := s.fld .CP_COIL_CTL_FIXED_OP coil
  if s.fld .CP_COIL_ADMIN_STATE coil ≠ 1 || !s.flag .CP_COIL_ADMIN_HOME_VALID coil || !s.keyed coil then 1
  else if 0 < s.coilInFlight coil || s.cap.clearing.any (fun e => e.2.coil = coil) then 1
  else if (s.baysOf coil).isEmpty || (s.baysOf coil).any (fun k => (span (4 * k) 4).any (fun y => s.plyEnabled y && s.plyCoil y ≠ some coil)) then 3
  else if 4 < op then 4
  else if s.fld .SP_RSV_GBPS coil = 0 then 5
  else if s.fld .CP_COIL_POWER_SHARE_W coil < leastShare (s.baysOf coil).length op then 6
  else if s.holdsSplice coil || (List.range 256).any (fun g => s.flag .DT_SHARE_A_VALID g &&
      (s.fld .DT_SHARE_A_OWNER g = coil || s.fld .DT_SHARE_A_GRANTEE g = coil)) then 7
  else 0

def execSeal (p coil : Nat) (s : State) := commit s (fun s =>
  if 32 ≤ coil then s
  else s.waferScoped p (adminOff coil) (fun s =>
    let st := s.sealStatus coil
    if st ≠ 0 then s.setFld .CP_COIL_ADMIN_STATUS coil st
    else ((s.setFld .CP_COIL_ADMIN_STATE coil 2).setFld .CP_COIL_ADMIN_STATUS coil 0).event .coilSealed ⟨.none, 0⟩ (some coil)))

/-- REPEATABLE: locked once sealed, BUSY unless the coil is OPEN and no submission ring is enabled. -/
def execCoilRepeatableWrite (p coil : Nat) (on : Bool) (s : State) := commit s (fun s =>
  if 32 ≤ coil then s
  else s.waferScoped p (adminOff coil) (fun s =>
    if s.sealed coil then s
    else if s.fld .CP_COIL_ADMIN_STATE coil ≠ 1 ∨ (List.range 64).any (fun i => s.flag .CP_SRING_CFG_ENABLE (64 * coil + i)) then
      s.setFld .CP_COIL_ADMIN_STATUS coil 1
    else
      let s := s.setFld .CP_COIL_ADMIN_REPEATABLE coil (b2n on) |>.setFld .CP_COIL_ADMIN_STATUS coil 0
      s))

/-! ### Plies (R607 to R610) -/

/-- CP_PLY_OWNER[y] written with VALID set, in the order of its table; locked while a sealed coil owns the ply (DEDUCED, log entry 68). -/
def execPlyAssign (p y coil : Nat) (s : State) := commit s (fun s =>
  if 384 ≤ y ∨ 32 ≤ coil then s
  else s.waferScoped p (ownerOff y) (fun s =>
    if (s.plyCoil y).any s.sealed then s
    else
      let st := match s.plyCoil y with
        | some c => if c = coil then 0 else 1
        | none =>
          if s.flag .CP_PLY_OWNER_CLEARING y then 2
          else if !s.plyEnabled y || s.fences.routers.contains (bayOfPly y) then 3
          else if s.fld .CP_COIL_ADMIN_STATE coil ≠ 1 then 4
          else 0
      let s := s.setFld .CP_PLY_OWNER_STATUS y st
      if st = 0 then s.setFld .CP_PLY_OWNER_COIL y coil |>.setFld .CP_PLY_OWNER_VALID y 1 else s))

/-- A ply loses its owner and its clearing starts with its Tackle channels; tasks of the owner that wait at the pawl of a bay in which it owns no
ply any more return to its ready queue (R610). -/
def State.releasePly (s : State) (y : Nat) : State :=
  match s.plyCoil y with
  | none => s
  | some c =>
    let s := s.setFld .CP_PLY_OWNER_VALID y 0 |>.setFld .CP_PLY_OWNER_CLEARING y 1 |>.setFld .CP_PLY_OWNER_STATUS y 0
    let s : State := { s with cap := { s.cap with clearing := SMap.put (SMap.erase s.cap.clearing y) y { coil := c, step := 1 } } }
    let s := s.stopPlyChannels y
    let k := bayOfPly y
    if (s.baysOf c).contains k then s else s.unqueue (fun b t => b = k && t.coil = c)

/-- A release is refused while a task runs there, a channel is not at rest, or a carve or maintenance operation runs (R608). -/
def State.plyInUse (s : State) (y : Nat) : Bool :=
  !(s.tasksOn (fun c => plyOfCore c = y)).isEmpty || (coresOf y).any (fun c => (s.core c).running) ||
    (span (32 * y) 32).any (fun i => [stActive, stPausing, stPaused, stStopping].contains (s.chState i)) ||
    (s.ply y).carving.isSome || (s.ply y).maint.isSome

def execPlyRelease (p y : Nat) (s : State) := commit s (fun s =>
  if 384 ≤ y then s
  else s.waferScoped p (ownerOff y) (fun s =>
    if (s.plyCoil y).any s.sealed then s
    else if (s.plyCoil y).isNone then s.setFld .CP_PLY_OWNER_STATUS y 0
    else if s.plyInUse y then s.setFld .CP_PLY_OWNER_STATUS y 2
    else s.releasePly y))

/-- CLEAN_INV_ALL of a ply on behalf of its former owner. -/
def State.cleanPly (s : State) (y : Nat) : State :=
  let s := s.setFld .CP_PLY_OWNER_VALID y 1
  let s := (((s.ply y).cache ++ (s.ply y).victim).map (·.1)).foldl (fun s l => s.cleanInv y l) s
  s.setFld .CP_PLY_OWNER_VALID y 0

/-- Every carved way is returned and the scratch zeroed; PC_CTL takes its reset value. -/
def State.uncarve (s : State) (y : Nat) : State :=
  let lo := scratchBase + y * 0x1000000
  let s : State := { s with mem := s.mem.filter (fun e => !(decide (lo ≤ e.1) && decide (e.1 < lo + 0x1000000))) }
  let s := s.setPly y { s.ply y with scratchPoison := [], carving := none }
  let s := s.setFld .PC_STATUS_WAYS y 0 |>.setFld .PC_SCRATCH_WAYS y 0 |>.setFld .PC_STATUS_CARVE_BUSY y 0
  s.resetFlds (fun n i => i = y && inBlock .PC_CTL_PREFETCH .PC_CTL_VICTIM n)

/-- A step of Table 18.2 ends and the next one's action is performed; step 3 ends when its write-backs are acknowledged (DEDUCED, log entry 71). -/
def execPlyClearStepEnd (y : Nat) (s : State) := commit s (fun s =>
  match s.cap.clearing.find? (fun e => e.1 = y) with
  | none => s
  | some (_, z) =>
    let go := fun (s : State) => { s with cap := { s.cap with clearing := SMap.put (SMap.erase s.cap.clearing y) y { z with step := z.step + 1 } } }
    match z.step with
    | 1 => go ((coresOf y).foldl (fun s c => if s.fences.cores.contains c || (s.core c).resetting then s else s.park c 4) s)
    | 2 => go (s.cleanPly y)
    | 3 => if (s.bus (bayOfPly y)).wbs.any (fun w => w.ply = y) then s else go (s.uncarve y)
    | _ =>
      let s : State := { s with cap := { s.cap with clearing := SMap.erase s.cap.clearing y } }
      (s.setFld .CP_PLY_OWNER_CLEARING y 0).event .plyCleared ⟨.ply, y⟩ (some z.coil))

/-! ### Power shares (R613) -/

/-- The most that the shares of all coils may sum to, times five. -/
def State.shareRoom (s : State) : Nat := 4 * (min 20000 (935 * (s.capW - 60) / 1000) - 4500)

/-- SHARE_W: lowering is always admitted. -/
def execShareWrite (p coil w : Nat) (s : State) := commit s (fun s => s.coilScoped p coil (cpOff coil 8) (fun s =>
  if s.sealed coil then s
  else
    let w := w % 65536
    let others := ((List.range 32).filter (· ≠ coil)).foldl (fun n c => n + s.fld .CP_COIL_POWER_SHARE_W c) 0
    if w ≤ s.fld .CP_COIL_POWER_SHARE_W coil ∨ 5 * (others + w) ≤ s.shareRoom then
      s.setFld .CP_COIL_POWER_SHARE_W coil w |>.setFld .CP_COIL_POWER_STATUS coil 0
    else s.setFld .CP_COIL_POWER_STATUS coil 1))

/-! ### Destruction (R625, Table 18.4) -/

/-- DESTROY: doorbells are refused from now on, and the coil reset starts. A reset under way is absorbed. -/
def execDestroy (p coil : Nat) (s : State) := commit s (fun s =>
  if 32 ≤ coil then s
  else s.waferScoped p (adminOff coil) (fun s =>
    let st := s.fld .CP_COIL_ADMIN_STATE coil
    if st ≠ 1 ∧ st ≠ 2 then s.setFld .CP_COIL_ADMIN_STATUS coil 1
    else if s.hdmEntries.any (fun i => s.fld .SP_HDM_MAP_COIL i = coil) then s.setFld .CP_COIL_ADMIN_STATUS coil 8
    else
      let s := s.setFld .CP_COIL_ADMIN_STATE coil 3 |>.setFld .CP_COIL_ADMIN_STATUS coil 0 |>.setFld .CP_COIL_ADMIN_DESTROY_BUSY coil 1
      let s : State := { s with cap := { s.cap with destroy := SMap.put (SMap.erase s.cap.destroy coil) coil { step := 2 } } }
      (s.coilReset coil).resetVfChannels coil))

/-- Step 3: every ring is disabled and every port channel that moves the coil's data stops. -/
def State.destroyRings (s : State) (coil : Nat) : State :=
  let s := (span (64 * coil) 64).foldl (fun s i => s.setFld .CP_SRING_CFG_ENABLE i 0 |>.setFld .CP_CRING_CFG_ENABLE i 0) s
  let s := s.resetVfChannels coil
  match s.homeOf coil with
  | some p => s.dropTkCoil p coil
  | none => s

/-- Step 4: grants and splices. -/
def State.destroyGrants (s : State) (coil : Nat) : State :=
  let s := (List.range 256).foldl (fun s g =>
    if s.flag .DT_SHARE_A_VALID g && (s.fld .DT_SHARE_A_OWNER g = coil || s.fld .DT_SHARE_A_GRANTEE g = coil) then s.revokeGrant g else s) s
  s.closeSplices coil

/-- Step 4 has drained. -/
def State.grantsDrained (s : State) (coil : Nat) : Bool :=
  (List.range 256).all (fun g => !(s.flag .DT_SHARE_A_BUSY g && (s.fld .DT_SHARE_A_OWNER g = coil || s.fld .DT_SHARE_A_GRANTEE g = coil))) &&
    !(s.regs.any (fun e => (e.1 % 512 = Fld.BD_WIN_BUSY.num && s.fld .BD_WIN_COIL (e.1 / 512) = coil) ||
      (e.1 % 512 = Fld.BD_SPLICE_A_BUSY.num && s.fld .BD_SPLICE_A_COIL (e.1 / 512) = coil)))

/-- Step 5: the DAT context is disabled, every translation dropped, the stripe deactivated; what Cleat verified lapses (R743). -/
def State.destroyContext (s : State) (coil : Nat) : State :=
  (s.setFld .DT_CTX_CTL_ENABLE coil 0 |>.setFld .SP_STRIPE_CTL_ACTIVE coil 0).startInv coil { seq := 0, range := none }

/-- Step 7: the VF is unbound, its MSI-X table and PBA at their reset values. -/
def State.destroyBinding (s : State) (coil : Nat) : State :=
  match s.coilFn coil with
  | none => s
  | some (p, fn) =>
    let pt := s.port p
    let s := s.setPort p { pt with msix := pt.msix.filter (fun m => m.1 ≠ fn), msixOn := pt.msixOn.filter (· ≠ fn),
                                   vecMask := pt.vecMask.filter (fun m => m.1 ≠ fn) }
    let s := if fn = 0 then s
      else s.resetFlds (fun n i => i = 32 * p + (fn - 1) && inBlock .HT_VF_BIND_COIL .HT_VF_BIND_STATUS n)
    s.setFld .CP_COIL_ADMIN_HOME_VALID coil 0 |>.setFld .CP_COIL_ADMIN_HOME coil 0

/-- The vaults that a coil owns. -/
def State.vaultsOf (s : State) (coil : Nat) : List Nat :=
  (s.regs.filter (fun e => e.1 % 512 = Fld.SP_VAULT_OWNER_VALID.num && s.fld .SP_VAULT_OWNER_COIL (e.1 / 512) = coil)).map (fun e => e.1 / 512)

/-- Step 9: the key and every coil-scoped register go. -/
def State.destroyKey (s : State) (coil : Nat) : State :=
  let s := ((s.dropKey coil).clearCoilRegs coil).resetFlds (fun n i =>
    (i = coil && inBlock .SP_KEY_CTL_GENERATE .SP_KEY_CTL_STATUS n) || (i / 3072 = coil && n = Fld.SP_STRIPE_LIST_VAULT.num))
  ({ s with invs := SMap.erase s.invs coil } : State).setFld .CP_COIL_ADMIN_REPEATABLE coil 0

/-- A step of Table 18.4 ends, once what it waits for has happened, and the next one's action is performed. -/
def execDestructionStepEnd (coil : Nat) (s : State) := commit s (fun s =>
  match s.cap.destroy.find? (fun e => e.1 = coil) with
  | none => s
  | some (_, d) =>
    let go := fun (s : State) (vs : List Nat) =>
      { s with cap := { s.cap with destroy := SMap.put (SMap.erase s.cap.destroy coil) coil { step := d.step + 1, vaults := vs } } }
    match d.step with
    | 2 => if s.coilQuiet coil then go ((s.setFld .CP_COIL_RUN_RESETTING coil 0).destroyRings coil) [] else s
    | 3 => go (s.destroyGrants coil) []
    | 4 => if s.grantsDrained coil then go (s.destroyContext coil) [] else s
    | 5 => if s.invDrained coil none then go ((s.pliesOf coil).foldl State.releasePly s) [] else s
    | 6 => if s.cap.clearing.any (fun e => e.2.coil = coil) then s else go (s.destroyBinding coil) []
    | 7 => go ((s.vaultsOf coil).foldl State.releaseVault s) (s.vaultsOf coil)
    | 8 => if d.vaults.any (fun v => s.fld .SP_VAULT_STATUS_STATE v = 2) then s else go (s.destroyKey coil) []
    | _ =>
      let s : State := { s with cap := { s.cap with destroy := SMap.erase s.cap.destroy coil } }
      (s.setFld .CP_COIL_ADMIN_STATE coil 0 |>.setFld .CP_COIL_ADMIN_DESTROY_BUSY coil 0).event .coilDestroyed ⟨.none, 0⟩ (some coil))

end Sys2Proof.Machine
end

