-- ==== Sys2Proof/Machine/HostPort.lean ====
section
/-!
DEFINITION. The host ports (chapters 4 and 5): pins and links, configuration space, power states, function-level reset,
bindings, errors, Port Hold and link security.
-/
namespace Sys2Proof.Machine

/-! ### Answers of the host, and what a cut port answers instead (Tables 5.2, 5.4) -/

/-- A read of a source ends: a core's access, a Tackle's beat, a ply's fill. -/
def State.completeRead (s : State) (src : Src) (r : ReadResult) : State :=
  match src with
  | .core c id => s.answerAccess c id r
  | .tackle i id => s.answerTackle i id r
  | .ply y line =>
    match r with
    | .data bs => s.bncFill y line (BitVec.ofNat 512 (leNat bs)) false
    | .poison bs => s.bncFill y line (BitVec.ofNat 512 (leNat bs)) true
    | .perm => s.bncRefuse y line spPerm
    | _ => s.bncRefuse y line spFenced
  | _ => s

/-- A tag is free again. -/
def State.dropTag (s : State) (p tag : Nat) : State :=
  s.setPort p { s.port p with tags := (s.port p).tags.filter (fun t => t.tag ≠ tag) }

/-- Every CXL.io request outstanding at a port is answered FENCED; its tag waits for the completion, which is discarded. -/
def State.fenceTags (s : State) (p : Nat) : State :=
  ((s.port p).tags.filter (fun t => !t.discard)).foldl (fun s t =>
    if t.len = 0 then s.flushEnd p t.tag false
    else
      let pt := s.port p
      let s := s.setPort p { pt with tags := pt.tags.map (fun x => if x.tag = t.tag then { x with discard := true } else x) }
      s.completeRead t.src .fenced) s

/-- Requests of plies for lines of the port's window, and the transactions that serve them, end FENCED. -/
def State.fenceLines (s : State) (p : Nat) : State :=
  let mine := fun (line : Nat) => linePort line = some p
  let reqs := s.buses.flatMap (fun e => (e.2.reqs.filter (fun r => mine r.line)).map (fun r => (r.ply, r.line)))
  let s : State := { s with txns := s.txns.filter (fun e => !mine e.1) }
  reqs.foldl (fun s r => (s.dropReq r.1 r.2).fenceWaiters r.1 r.2) s

/-- Completion records on their way to the host wait again, in their order (R161, R583) (DEDUCED, log entry 32). -/
def State.holdRecords (s : State) (p : Nat) : State :=
  (s.tasksOf (fun t => match t.state with
    | .writing _ (some x) => x.1 = p
    | _ => false)).foldl (fun s t =>
      let k := s.task t
      let i := 64 * k.coil + k.ticket.cring
      (s.setTask t { k with state := .held }).setFld .CP_CRING_PTR_WRITE i (s.fld .CP_CRING_PTR_WRITE i + 2 ^ 32 - 1)) s

/-- Every device-side request outstanding to the host is answered FENCED. -/
def State.fenceHostRequests (s : State) (p : Nat) : State :=
  let s := ((s.fenceTags p).fenceLines p).holdRecords p
  s.setPort p { s.port p with d2h := [] }

/-- Every device copy of the port's host lines is dropped, write-backs on their way too; how many were dirty (DEDUCED, log entry 31). -/
def State.dropHostLines (s : State) (p : Nat) : Nat × State :=
  let mine := fun (line : Nat) => linePort line = some p
  let str := s.plies.foldl (fun n e => n + ((e.2.cache ++ e.2.victim).filter (fun x => mine x.1 && x.2.str && decide (x.2.mask ≠ 0))).length) 0
  let wbs := s.buses.foldl (fun n e => n + (e.2.wbs.filter (fun w => mine w.line && w.data.isSome)).length) 0
  let r := s.dropCopies (fun l _ => mine l)
  let s := r.2.buses.foldl (fun s e => s.setBus e.1 { s.bus e.1 with wbs := (s.bus e.1).wbs.filter (fun w => !mine w.line) }) r.2
  (r.1 + str + wbs, s.setPort p { s.port p with sf := [] })

/-- Homes forget the host as a holder of HDM lines, and wait for it no longer. -/
def State.forgetHostHolder (s : State) (p : Nat) : State :=
  let s : State := { s with lines := s.lines.foldl (fun m e => SMap.set {} m e.1 { e.2 with dir := e.2.dir.remove (96 + p) }) s.lines }
  (s.setPort p { s.port p with backInv := [] }).abortBay (96 + p)

/-- Device-cached host lines of a port, or of one coil on it, go back to the host: dirty ones as DirtyEvict, clean ones invalidated. -/
def State.flushHostLines (s : State) (p : Nat) (coil : Option Nat) : State :=
  ((s.port p).sf.filter (fun e => coil = none || e.2.coil = coil)).foldl (fun s e => s.recallLine p e.1) s

/-- Exclusive entries beyond L_max are recalled, the least recently used first (R140). -/
def State.trimFilter (s : State) (p : Nat) : State :=
  let ex := sortBy (fun a b => decide (a.2.used ≤ b.2.used)) ((s.port p).sf.filter (fun e => e.2.excl))
  (ex.take (ex.length - (s.port p).lmax)).foldl (fun s e => s.recallLine p e.1) s

/-! ### Link security state (R172) -/

def State.ide (s : State) (p stream : Nat) : IdeStream := SMap.get {} (s.port p).ide stream

/-- The Secure bits of HT_IDE_STATUS follow the streams: every substream and direction has a key set in use. -/
def State.setIde (s : State) (p stream : Nat) (v : IdeStream) : State :=
  let pairs := if stream = 5 then [(0, 0), (0, 1)] else [(0, 0), (0, 1), (1, 0), (1, 1), (2, 0), (2, 1)]
  let v := { v with secure := pairs.all (fun x => v.active.any (fun a => a.1 = x.1 && a.2.1 = x.2)) }
  let s := s.setPort p { s.port p with ide := SMap.set {} (s.port p).ide stream v }
  if stream = 0 then s.setFld .HT_IDE_STATUS_LINK_SECURE p (b2n v.secure)
  else if stream = 5 then s.setFld .HT_IDE_STATUS_CXL_SECURE p (b2n v.secure)
  else s.setFld .HT_IDE_STATUS_SEL_SECURE p (setBit (s.fld .HT_IDE_STATUS_SEL_SECURE p) (stream - 1) v.secure)

/-! ### Errors (R146 to R151, Table 5.1) -/

/-- The bit of HT_ERR_STATUS that records an error of the Hitch, with its field. -/
def errBit : HostError → Option (Nat × Fld)
  | .sfCorr => some (0, .HT_ERR_STATUS_SF_CORR)
  | .bufCorr => some (1, .HT_ERR_STATUS_BUF_CORR)
  | .linkDegraded => some (2, .HT_ERR_STATUS_LINK_DEGRADED)
  | .bufUncorr => some (8, .HT_ERR_STATUS_BUF_UNCORR)
  | .fencedHdm => some (9, .HT_ERR_STATUS_FENCED_HDM)
  | .sfUncorr => some (16, .HT_ERR_STATUS_SF_UNCORR)
  | .d2hTimeout => some (17, .HT_ERR_STATUS_D2H_TIMEOUT)
  | .internal => some (18, .HT_ERR_STATUS_INTERNAL)
  | .viralRx => some (19, .HT_ERR_STATUS_VIRAL_RX)
  | _ => none

/-- The default class of an error: 0 correctable, 1 non-fatal, 2 fatal. -/
def errClass : HostError → Nat
  | .receiverError | .badTlp | .badDllp | .replayTimerTimeout | .replayNumRollover | .headerLogOverflow | .advisoryNonFatal
  | .cxlCorrectedEcc | .crcThreshold | .sfCorr | .bufCorr | .linkDegraded => 0
  | .completionTimeout | .poisonedTlp | .unexpectedCompletion | .unsupportedRequest | .cxlPoison | .bufUncorr | .fencedHdm => 1
  | _ => 2

/-- The class of an error at a port: its severity bit where it is programmable (R148). -/
def State.errorClass (s : State) (p : Nat) (e : HostError) : Nat :=
  match e with
  | .bufUncorr => if (s.fld .HT_ERR_SEVERITY_SEV p).testBit 0 then 2 else 1
  | .fencedHdm => if (s.fld .HT_ERR_SEVERITY_SEV p).testBit 1 then 2 else 1
  | _ => if (s.port p).reclassed.contains e then 3 - errClass e else errClass e

/-- The four words of HT_ERR_HDR_LOG for an error. -/
def State.errorWords (s : State) (i : ErrInfo) : List Nat :=
  [i.address, i.reqId % 65536 + 2 ^ 16 * (i.coil.getD 0) + 2 ^ 23 * b2n i.coil.isSome + 2 ^ 24 * i.source + 2 ^ 32 * i.unit,
   s.fld .CL_TIME_UTC_NS 0, i.detail]

/-- The first unmasked uncorrectable HT_ERR error is logged, and a later one while the log is held overflows it (R150). -/
def State.logFirst (s : State) (p bit : Nat) (i : ErrInfo) : State :=
  if s.flag .HT_ERR_FIRST_VALID p then s.setFld .HT_ERR_FIRST_OVERFLOW p 1
  else s.setFld .HT_ERR_FIRST_BIT p bit |>.setFld .HT_ERR_FIRST_VALID p 1 |>.setFld .HT_ERR_HDR_LOG0_ADDRESS p i.address
    |>.setFld .HT_ERR_HDR_LOG1_REQ_ID p i.reqId |>.setFld .HT_ERR_HDR_LOG1_COIL p (i.coil.getD 0)
    |>.setFld .HT_ERR_HDR_LOG1_COIL_VALID p (b2n i.coil.isSome) |>.setFld .HT_ERR_HDR_LOG1_SOURCE p i.source
    |>.setFld .HT_ERR_HDR_LOG1_UNIT p i.unit |>.setFld .HT_ERR_HDR_LOG2_TIME p (s.fld .CL_TIME_UTC_NS 0)
    |>.setFld .HT_ERR_HDR_LOG3_DETAIL p i.detail

/-- An error is recorded in its place, counted or logged, and signalled unless it is masked (R146, R149, R150). An IDE error makes its stream
Insecure and clears its keys (R172). -/
def State.recordError (s : State) (p : Nat) (e : HostError) (i : ErrInfo) : State :=
  let cls := s.errorClass p e
  let pt := s.port p
  let masked := match errBit e with
    | some (b, _) => (s.fld .HT_ERR_MASK_MASK p).testBit b
    | none => pt.masked.contains e
  let s := match errBit e with
    | some (_, f) => s.setFld f p 1
    | none => s.setPort p { pt with status := if pt.status.contains e then pt.status else pt.status ++ [e] }
  let s := if cls = 0 then s.bump .HT_ERR_CE_COUNT_COUNT p 1
    else
      let s := match errBit e with
        | some (b, _) => if masked then s else s.logFirst p b i
        | none => s
      match s.errorWords i with
      | [a, b, c, d] => s.event .hostError ⟨.hostPort, p⟩ i.coil a b c d
      | _ => s
  let s := if !masked && (s.port p).linkUp then s.send (.errMsg p cls) else s
  match e with
  | .ideCheckFailed | .misroutedIde => if i.stream < 5 then s.setIde p i.stream {} else s
  | .cxlIdeRx | .cxlIdeTx => s.setIde p 5 {}
  | _ => s

/-! ### Port Hold (R157, R158) -/

/-- Descriptors of the port's channels whose host-window side is active are BAD with FENCED. -/
def State.fenceDescriptors (s : State) (p : Nat) : State :=
  (span (12288 + 64 * p) 64).foldl (fun s i =>
    match (s.chan i).cur, s.chCoil i with
    | some d, some c =>
      let toHost := fun (dva : Nat) => match s.walk c dva with
        | .inl l => l.target = .host
        | .inr _ => false
      if (d.op = 0 && d.srcSpace = 0 && toHost d.src) || (d.dstSpace = 0 && toHost d.dst) then s.beatError i { reason := 3 } else s
    | _, _ => s) s

/-- A port enters Port Hold (Table 5.4); a cause that finds it held changes nothing. -/
def State.enterHold (s : State) (p cause : Nat) : State :=
  if s.flag .HT_HOLD_STATUS_HOLD p then s
  else
    let s := s.setFld .HT_HOLD_STATUS_HOLD p 1 |>.setFld .HT_HOLD_STATUS_DONE p 0 |>.setFld .HT_HOLD_STATUS_CAUSE p cause
      |>.setFld .HT_HOLD_STATUS_REENTERED p 0 |>.setFld .HT_LINK_STATUS_HOLD p 1
    let s := s.event .portHold ⟨.hostPort, p⟩ none 0 0 cause
    let s := s.fenceHostRequests p
    let viral := s.cfgVal p 0 .viralEnable ≠ 0 && (s.port p).linkUp
    let s := if viral then s.send (.viral p) else s
    let s := s.setFld .HT_HOLD_STATUS_VIRAL_SENT p (b2n viral)
    let r := s.dropHostLines p
    let s := r.2.setFld .HT_HOLD_STATUS_LINES_DROPPED p r.1
    let s := if r.1 = 0 then s else s.event .hostLinesLost ⟨.hostPort, p⟩ none 0 r.1
    (s.forgetHostHolder p).fenceDescriptors p

/-- An error is recorded; one of fatal class puts the port into Port Hold, masked or not. -/
def State.hostError (s : State) (p : Nat) (e : HostError) (i : ErrInfo) : State :=
  let fatal := s.errorClass p e = 2
  let s := s.recordError p e i
  if fatal then s.enterHold p 1 else s

/-- The CXL.cache opcodes of D2H requests, as CXL 3.1 numbers them (PRESUMED, log entry 34). -/
def D2hOp.code : D2hOp → Nat
  | .rdCurr => 0x01 | .rdOwn => 0x02 | .rdShared => 0x03 | .rdOwnNoData => 0x05 | .cleanEvict => 0x0B | .dirtyEvict => 0x0A
  | .woWrInv => 0x0C

/-! ### Ports, links and functions -/

/-- PERST_Nn is asserted. -/
def State.perst (s : State) (p : Nat) : Bool := SMap.get false s.module.pins.perst p

/-- The wake has reached the step that releases host ports: step 6, or the end of step 13 in full mode (R80, R90). -/
def State.releaseStep (s : State) : Bool :=
  s.module.railsOn && (s.ready || (!s.module.full && decide (6 ≤ s.module.wakeStep)))

/-- A present port whose PERST_N is deasserted is released once the wake allows it (R90, R91). -/
def State.releasePort (s : State) (p : Nat) : State :=
  let pt := s.port p
  if pt.present && !s.perst p && s.releaseStep then s.setPort p { pt with released := true } else s

/-- The rate of a rate code in tenths of GT/s (R125). -/
def rateOf : Nat → Nat
  | 1 => 25 | 2 => 50 | 3 => 80 | 4 => 160 | 5 => 320 | 6 => 640 | _ => 0

/-- L_max of R140: floor(B × 0.008 / 64) with B the trained rate, capped at the filter's size. -/
def lmaxOf (rate width : Nat) : Nat := min (rateOf rate * width * 15625 / 10) 2097152

/-- A function of the port that hosts see: the PF once the Hitch is ready, VF n while VF Enable is set (R93, R110). -/
def State.visible (s : State) (p fn : Nat) : Bool :=
  s.flag .HT_LINK_STATUS_READY p &&
    (fn = 0 || (decide (fn ≤ 32) && s.cfgVal p 0 .vfEnable != 0 && s.fld .HT_LINK_STATUS_PROTO p ≠ 1))

/-- A function, or the PF above it, is in a function-level reset. -/
def State.inFlr (s : State) (p fn : Nat) : Bool := (s.port p).flr.any (fun x => x.1 = fn || x.1 = 0)

/-! ### Hitch port reset (Table 3.5, R98, R105, R133, R165) -/

/-- The fields of port `p` that a Hitch port reset clears: the HT_ block but its sticky error registers (R151), what Cleat
loaded, and, in D3cold, the PME state (R133); and the port Tackle channels. -/
def hitchDrop (p : Nat) (d3cold : Bool) (n i : Nat) : Bool :=
  if inBlock .HT_ERR_STATUS_SF_CORR .HT_ERR_STATUS_VIRAL_RX n || inBlock .HT_ERR_FIRST_BIT .HT_ERR_HDR_LOG3_DETAIL n ||
      inBlock .HT_ID_PORT .HT_ID_CONTROL n then false
  else if d3cold && (n = Fld.HT_PM_STATUS_PME_PENDING.num || inBlock .HT_VF_BIND_COIL .HT_VF_BIND_STATUS n) then false
  else if inBlock .HT_VF_BIND_COIL .HT_VF_BIND_STATUS n then i / 32 = p
  else if inBlock .HT_TK_OWNER_FUNC .HT_TK_OWNER_COIL n then i / 64 = p
  else if n = Fld.HT_BIAS_BIAS.num then i / 512 = p
  else if inBlock .HT_LINK_STATUS_SPEED .HT_IDE_CTL_REQUIRE_CXL n then i = p
  else if inBlock .TK_CH_CTL_ENABLE .TK_CH_BYTES_COUNT n then decide (12288 + 64 * p ≤ i) && decide (i < 12288 + 64 * (p + 1))
  else false

/-- The coils whose home is port `p`. -/
def State.homedOn (s : State) (p : Nat) : List Nat := (List.range 32).filter (fun c => s.homeOf c = some p)

/-- Every coil homed on the port loses its binding with HT_VF_BIND (Table 3.6). -/
def State.unhome (s : State) (p : Nat) : State :=
  (s.homedOn p).foldl (fun s c => s.setFld .CP_COIL_ADMIN_HOME_VALID c 0) s

/-- A Hitch port reset: outstanding device-side requests are answered FENCED, dirty host lines are dropped and logged, the
coils homed on the port quiesce, and the port's state takes its reset values. D3cold entered in order (R133) loses no line
and quiesces no coil (DEDUCED, log entry 30). -/
def State.hitchReset (s : State) (p : Nat) (surprise perst : Bool) : State :=
  let pt := s.port p
  if pt.resetting then s.setPort p { pt with surprise := pt.surprise || surprise }
  else
    let d3cold := perst && s.fld .HT_PM_STATUS_DSTATE p = 3 && !s.flag .HT_PM_STATUS_WB_BUSY p
    let wasHeld := s.flag .HT_HOLD_STATUS_HOLD p
    let cause := s.fld .HT_HOLD_STATUS_CAUSE p
    let s := s.fenceHostRequests p
    let s := if d3cold then s else (s.homedOn p).foldl State.quiesceCoil s
    let r := s.dropHostLines p
    let s := if r.1 = 0 then r.2 else r.2.event .hostLinesLost ⟨.hostPort, p⟩ none 0 r.1
    let s := (s.forgetHostHolder p).stopPortChannels p
    let s := if d3cold then s else s.unhome p
    let s := s.resetFlds (hitchDrop p d3cold)
    let s := s.setPort p { present := pt.present, released := false, resetting := true, surprise := surprise, heldAtReset := wasHeld,
                           heldCause := cause, d3cold := d3cold, lost := r.1,
                           cfg := if d3cold then pt.cfg.filter (fun e => e.1 = CfgField.pmeEn.ctorIdx) else [],
                           status := pt.status, masked := if d3cold then pt.masked else [], reclassed := if d3cold then pt.reclassed else [],
                           msix := if d3cold then pt.msix else [] }
    let s := s.notice ⟨.hostPort, p⟩
    if d3cold && s.flag .HT_PM_STATUS_PME_PENDING p then s.raisePme p else s

/-- PERST_Nn asserted: the port takes its reset state (R90). -/
def execPerstNAssert (p : Nat) (s : State) := commit s (fun s =>
  if 8 ≤ p ∨ s.perst p then s
  else
    let s : State := { s with module := { s.module with pins := { s.module.pins with perst := SMap.set false s.module.pins.perst p true } } }
    if s.module.railsOn then
      let s := s.hitchReset p false true
      s.setPort p { s.port p with released := false, linkUp := false }
    else s)

/-- PERST_Nn deasserted: the port is released once the wake allows it (R90). -/
def execPerstNDeassert (p : Nat) (s : State) := commit s (fun s =>
  if 8 ≤ p ∨ !s.perst p then s
  else
    let s : State := { s with module := { s.module with pins := { s.module.pins with perst := SMap.set false s.module.pins.perst p false } } }
    s.releasePort p)

/-- The end of a Hitch port reset: Port Hold is entered again where R165 says so. -/
def State.endHitchReset (s : State) (p : Nat) : State :=
  let pt := s.port p
  if !pt.resetting then s
  else
    let s := s.setPort p { pt with resetting := false, surprise := false, heldAtReset := false, d3cold := false, lost := 0 }
    let s := (s.setFld .HT_PM_STATUS_WAKE p 0).clearNotice ⟨.hostPort, p⟩
    if pt.heldAtReset || pt.surprise then
      let s := s.setFld .HT_HOLD_STATUS_HOLD p 1 |>.setFld .HT_HOLD_STATUS_DONE p 1 |>.setFld .HT_HOLD_STATUS_REENTERED p 1
        |>.setFld .HT_HOLD_STATUS_CAUSE p (if pt.heldAtReset then pt.heldCause else 2)
        |>.setFld .HT_HOLD_STATUS_LINES_DROPPED p pt.lost |>.setFld .HT_LINK_STATUS_HOLD p 1
      s.event .portHold ⟨.hostPort, p⟩ none 0 0 (s.fld .HT_HOLD_STATUS_CAUSE p)
    else s.writeHeld p

/-- The Hitch becomes ready, 50 ms after the later of step 13 and PERST_Nn (R91): a Hitch port reset ends with it. -/
def execHitchReady (p : Nat) (s : State) := commit s (fun s =>
  let pt := s.port p
  if s.ready && pt.present && !s.perst p && !s.flag .HT_LINK_STATUS_READY p then
    let s := (s.endHitchReset p).releasePort p
    (s.setFld .HT_LINK_STATUS_READY p 1).setCfg p 0 .memoryInfoValid 1 |>.setCfg p 0 .memoryActive 1
  else s)

/-- The link has trained: Table 4.2 fixes the protocol and the device memory mode; L_max follows (R140). A port without CXL
logs LINK_NO_CXL (R108). -/
def execLinkTrained (p : Nat) (o : LinkOffer) (s : State) := commit s (fun s =>
  let pt := s.port p
  if pt.released && !s.perst p && decide (p < 8) && 0 < rateOf o.rate && (o.width = 4 || o.width = 8 || o.width = 16) then
    let proto := if o.proto = 0 || o.rate < 5 then 1 else if o.proto = 1 then 2 else 3
    let rate := if proto = 2 then 5 else o.rate
    let s := s.setPort p { pt with linkUp := true, trained := o.width, lmax := lmaxOf rate o.width }
    let s := s.setFld .HT_LINK_STATUS_SPEED p rate |>.setFld .HT_LINK_STATUS_WIDTH p o.width
      |>.setFld .HT_LINK_STATUS_PROTO p proto |>.setFld .HT_LINK_STATUS_HDM p (proto - 1)
      |>.setFld .HT_LINK_STATUS_L0P p 0 |>.setFld .HT_LINK_STATUS_L1 p 0
    let s := s.trimFilter p
    let s := if proto = 1 then s.event .linkNoCxl ⟨.hostPort, p⟩ else s
    if o.degraded then s.hostError p .linkDegraded {} else s
  else s)

/-- A hot reset or link disable from the host starts a Hitch port reset (Table 3.5). -/
def execHotReset (p : Nat) (s : State) := commit s (fun s =>
  if (s.port p).linkUp then (s.hitchReset p false false).releasePort p else s)

/-- A surprise link down: Surprise Down is recorded as fatal and a Hitch port reset starts (R166, R167). -/
def execSurpriseDown (p : Nat) (s : State) := commit s (fun s =>
  if (s.port p).linkUp && !s.perst p then
    ((s.recordError p .surpriseDown {}).hitchReset p true false).releasePort p
  else s)

/-- L0p narrows or widens the link; L_max follows (R134, R140). -/
def execL0pWidthChange (p width : Nat) (s : State) := commit s (fun s =>
  let pt := s.port p
  if pt.linkUp && s.fld .HT_LINK_STATUS_PROTO p ≠ 2 && (width = 4 || width = 8 || width = 16) && decide (width ≤ pt.trained) then
    let s := s.setPort p { pt with lmax := lmaxOf (s.fld .HT_LINK_STATUS_SPEED p) width }
    (s.setFld .HT_LINK_STATUS_WIDTH p width |>.setFld .HT_LINK_STATUS_L0P p (b2n (decide (width < pt.trained)))).trimFilter p
  else s)

/-- L1 entry and exit; not while a D3hot write-back runs (R131, R134). -/
def execL1Entry (p : Nat) (enter : Bool) (s : State) := commit s (fun s =>
  if (s.port p).linkUp && !(enter && s.flag .HT_PM_STATUS_WB_BUSY p) then s.setFld .HT_LINK_STATUS_L1 p (b2n enter) else s)

/-! ### Configuration space (R93, R109 to R113, R148, R149) -/

/-- The fixed values of Tables 4.3 to 4.5 and R110, R113, R152, by function. -/
def cfgFixed (pf : Bool) : CfgField → Option Nat
  | .vendorId => some 0x1F6E
  | .deviceId => some (if pf then 0x0B20 else 0x0B21)
  | .classCode => some 0x120000
  | .revisionId => some 0x10
  | .subsystemVendorId => some 0x1F6E
  | .subsystemId => some 0x0020
  | .msixVectors => some (if pf then 32 else 64)
  | .flrCapable => some 1
  | .readiness1 => some 0x80A1BA1B
  | .readiness2 => some 0x00732732
  | .ctoRanges => some 15
  | .ctoDisableSupported => some 0
  | f => if !pf then none else match f with
    | .totalVFs => some 32
    | .initialVFs => some 32
    | .firstVFOffset => some 1
    | .vfStride => some 1
    | .supportedPageSizes => some 1
    | .noSoftReset => some 1
    | .cacheCapable => some 1
    | .ioCapable => some 1
    | .memCapable => some 1
    | .memHwInitMode => some 0
    | .hdmCount => some 1
    | .cacheWbInvCapable => some 1
    | .cxlResetCapable => some 0
    | .viralCapable => some 1
    | .cacheSizeUnit => some 2
    | .cacheSize => some 128
    | .nonCxlFunctionMap => some 0x1FFFFFFFE
    | .registerLocator => some 0x110000
    | _ => none

/-- The fields that a configuration write sets. -/
def cfgWritable : CfgField → Bool
  | .vfEnable | .busMaster | .memEnable | .maxPayload | .maxReadRequest | .relaxedOrdering | .tag10 | .tag14
  | .ctoValue | .msixEnable | .msixMask | .pmeEn | .viralEnable | .atomicRequester | .hdmDecoder0 | .hdmDecoder1 => true
  | _ => false

/-- The limit of Table 4.11 that the host's tag modes give. -/
def npLimit (s : State) (p : Nat) : Nat :=
  if s.cfgVal p 0 .tag14 ≠ 0 then 8192 else if s.cfgVal p 0 .tag10 ≠ 0 then 768 else 256

/-- The messages that the PBA of a function held are sent once nothing holds them (R132, R163). -/
def State.sendHeldMsix (s : State) (p : Nat) : State :=
  let l := (s.port p).msix
  l.foldl (fun s m => s.raiseMsix p m.1 m.2) (s.setPort p { s.port p with msix := [] })

/-- A configuration write's further effects: tag limits, MSI-X enables, VF Enable cleared. -/
def State.cfgEffect (s : State) (p fn : Nat) (f : CfgField) : State :=
  match f with
  | .tag10 | .tag14 => s.setFld .HT_OUTSTANDING_NP_LIMIT p (npLimit s p)
  | .msixEnable | .msixMask =>
    let on := s.cfgVal p fn .msixEnable ≠ 0 && s.cfgVal p fn .msixMask = 0
    let pt := s.port p
    let s := s.setPort p { pt with msixOn := if on then insertNat fn pt.msixOn else pt.msixOn.filter (· ≠ fn) }
    if on then s.sendHeldMsix p else s
  | .pmeEn => if s.flag .HT_PM_STATUS_PME_PENDING p && s.fld .HT_PM_STATUS_DSTATE p = 3 then s.raisePme p else s
  | _ => s

/-- The recording place of an error that has a programmable class (Table 5.1); HT_ERR errors use HT_ERR_SEVERITY. -/
def errReclassable : HostError → Bool
  | .completionTimeout | .poisonedTlp | .unexpectedCompletion | .unsupportedRequest | .cxlPoison | .dataLinkProtocol
  | .flowControlProtocol | .receiverOverflow | .malformedTlp | .cxlParity | .cxlReservedEncoding | .cxlReceiverOverflow => true
  | _ => false

/-- A configuration request: Request Retry Status from a PF that is not ready and from a function in reset, Unsupported
Request from a function that is not visible, else served (R93, R115, R132, R159). -/
def execConfigRequest (p fn : Nat) (r : CfgReq) (s : State) := commit s (fun s =>
  if !(s.port p).linkUp then s
  else if !s.flag .HT_LINK_STATUS_READY p then s.send (.cfgReply p fn (if fn = 0 then 2 else 1) 0)
  else if !s.visible p fn then s.send (.cfgReply p fn 1 0)
  else if s.inFlr p fn then s.send (.cfgReply p fn 2 0)
  else match r with
  | .read f => s.send (.cfgReply p fn 0 ((cfgFixed (fn = 0) f).getD (s.cfgVal p fn f)))
  | .write f v =>
    let s := if cfgWritable f && (fn = 0 || (f ≠ .vfEnable && f ≠ .pmeEn && f ≠ .viralEnable)) then
      (s.setCfg p fn f v).cfgEffect p fn f else s
    s.send (.cfgReply p fn 0 0)
  | .maskVector vec masked =>
    let pt := s.port p
    let s := s.setPort p { pt with vecMask := if masked then (fn, vec) :: pt.vecMask.filter (· ≠ (fn, vec))
                                              else pt.vecMask.filter (· ≠ (fn, vec)) }
    (if masked then s else s.sendHeldMsix p).send (.cfgReply p fn 0 0)
  | .setMask e masked =>
    let pt := s.port p
    (s.setPort p { pt with masked := if masked then e :: pt.masked.filter (· ≠ e) else pt.masked.filter (· ≠ e) }).send
      (.cfgReply p fn 0 0)
  | .setSeverity e fatal =>
    let pt := s.port p
    let flip := fatal != (errClass e = 2)
    (if errReclassable e then
      s.setPort p { pt with reclassed := if flip then e :: pt.reclassed.filter (· ≠ e) else pt.reclassed.filter (· ≠ e) }
     else s).send (.cfgReply p fn 0 0)
  | .clearStatus e =>
    let pt := s.port p
    (s.setPort p { pt with status := pt.status.filter (· ≠ e) }).send (.cfgReply p fn 0 0))

/-! ### Power states (R131 to R133) -/

/-- PowerState written to D3hot; WB_BUSY stands while host lines are written back, and clears at once in Port Hold
(R164). -/
def execSetD3hot (p : Nat) (s : State) := commit s (fun s =>
  if s.visible p 0 && s.fld .HT_PM_STATUS_DSTATE p = 0 then
    (s.setFld .HT_PM_STATUS_DSTATE p 3).setFld .HT_PM_STATUS_WB_BUSY p (b2n (!s.flag .HT_HOLD_STATUS_HOLD p))
  else s)

/-- The write-back of D3hot is done: no device cache holds a host line of the port. -/
def execD3hotWritebackDone (p : Nat) (s : State) := commit s (fun s =>
  if s.flag .HT_PM_STATUS_WB_BUSY p then (s.flushHostLines p none).setFld .HT_PM_STATUS_WB_BUSY p 0 else s)

/-- The PF returns to D0: WAKE_N is released, held records are written and held messages sent (R132). -/
def execReturnToD0 (p : Nat) (s : State) := commit s (fun s =>
  if s.visible p 0 && s.fld .HT_PM_STATUS_DSTATE p = 3 then
    let s := (s.setFld .HT_PM_STATUS_DSTATE p 0).setFld .HT_PM_STATUS_WAKE p 0
    if s.flag .HT_HOLD_STATUS_HOLD p then s else (s.writeHeld p).sendHeldMsix p
  else s)

/-- PME_Status is cleared: WAKE_N is released. -/
def execPmeStatusClear (p : Nat) (s : State) := commit s (fun s =>
  (s.setFld .HT_PM_STATUS_PME_PENDING p 0).setFld .HT_PM_STATUS_WAKE p 0)

/-! ### Function-level reset (Table 4.12) -/

/-- The VF of port `p` to which a coil is bound, and the coils of a function. -/
def State.fnCoils (s : State) (p fn : Nat) : List Nat :=
  if fn = 0 then s.homedOn p
  else if s.flag .HT_VF_BIND_VALID (32 * p + (fn - 1)) then [s.fld .HT_VF_BIND_COIL (32 * p + (fn - 1))] else []

/-- The port Tackle channels that a function owns. -/
def State.fnChannels (s : State) (p fn : Nat) : List Nat :=
  (List.range 64).filter (fun j => s.flag .HT_TK_OWNER_VALID (64 * p + j) && (fn = 0 || s.fld .HT_TK_OWNER_FUNC (64 * p + j) = fn))

/-- Initiate Function Level Reset: step 1 ends with the write; a second one, or one of a VF during the PF's, has no separate
effect (R138) (DEDUCED, log entry 35). -/
def execInitiateFlr (p fn : Nat) (s : State) := commit s (fun s =>
  if s.visible p fn && !s.inFlr p fn then
    let pt := s.port p
    let s := s.setPort p { pt with flr := (if fn = 0 then [] else pt.flr) ++ [(fn, 2)],
                                   msix := pt.msix.filter (fun m => !(fn = 0 || m.1 = fn)) }
    s.setFld .HT_FLR_STATUS_IN_FLR p (if fn = 0 then 1 else s.fld .HT_FLR_STATUS_IN_FLR p ||| 2 ^ fn)
  else s)

/-- The MSI-X and configuration state of a function takes its reset values (step 5). -/
def State.resetFunction (s : State) (p fn : Nat) : State :=
  let pt := s.port p
  let mine := fun x => fn = 0 || x = fn
  s.setPort p { pt with cfg := pt.cfg.filter (fun e => !mine (e.1 / 64) || e.1 = CfgField.pmeEn.ctorIdx), msix := pt.msix.filter (fun m => !mine m.1),
                        msixOn := pt.msixOn.filter (fun f => !mine f), vecMask := pt.vecMask.filter (fun m => !mine m.1) }

/-- The registers that a reset of the PF returns to their reset values (R135). -/
def pfDrop (p n i : Nat) : Bool :=
  (n = Fld.HT_BAY_WINDOW_BAY.num && i = p) || (inBlock .HT_VF_BIND_COIL .HT_VF_BIND_STATUS n && i / 32 = p) ||
    (inBlock .HT_TK_OWNER_FUNC .HT_TK_OWNER_COIL n && i / 64 = p)

/-- A step of Table 4.12 ends: sources stopped and coils reset, silence, host lines written back, function state reset, the
status bit cleared. -/
def execFlrStepEnd (p fn : Nat) (s : State) := commit s (fun s =>
  let pt := s.port p
  match pt.flr.find? (fun x => x.1 = fn) with
  | none => s
  | some (_, n) =>
    if n = 3 && !((s.fnCoils p fn).all s.coilQuiet) then s
    else
    let s := s.setPort p { pt with flr := pt.flr.map (fun x => if x.1 = fn then (fn, n + 1) else x) }
    match n with
    | 2 => (s.fnCoils p fn).foldl State.flrCoil ((s.fnChannels p fn).foldl (fun s j => s.stopChannel (12288 + 64 * p + j)) s)
    | 3 =>
      let pt := s.port p
      s.setPort p { pt with tags := pt.tags.map (fun t => if fn = 0 || t.fn = fn then { t with discard := true } else t) }
    | 4 => if fn = 0 then s.flushHostLines p none else (s.fnCoils p fn).foldl (fun s c => s.flushHostLines p (some c)) s
    | 5 =>
      let s := s.resetFunction p fn
      if fn = 0 then ((s.unhome p).resetFlds (pfDrop p)).setFld .HT_OUTSTANDING_NP_LIMIT p 256 else s
    | _ =>
      let pt := s.port p
      let s := s.setPort p { pt with flr := pt.flr.filter (fun x => x.1 ≠ fn) }
      s.setFld .HT_FLR_STATUS_IN_FLR p (if fn = 0 then 0 else setBit (s.fld .HT_FLR_STATUS_IN_FLR p) fn false))

/-- Initiate Cache Write Back and Invalidation (R139). -/
def execInitiateCacheWriteback (p : Nat) (s : State) := commit s (fun s =>
  if s.visible p 0 then (s.flushHostLines p none).setCfg p 0 .cacheInvalid 1 else s)

/-! ### Bus mastering (R129, R137, R153 to R155) -/

/-- A completion piece arrives. The last byte frees the tag and answers the source; a completion for no outstanding tag is
an Unexpected Completion (R154). -/
def execCxlIoCompletion (p tag : Nat) (data : List Byte) (poison : Bool) (s : State) := commit s (fun s =>
  let pt := s.port p
  match pt.tags.find? (fun t => t.tag = tag) with
  | none => if pt.linkUp then s.hostError p .unexpectedCompletion {} else s
  | some t =>
    let got := t.got ++ data
    let bad := t.poison || poison
    if got.length < t.len then
      s.setPort p { pt with tags := pt.tags.map (fun x => if x.tag = tag then { x with got := got, poison := bad } else x) }
    else
      let s := s.dropTag p tag
      if t.discard then s
      else if bad then (s.hostError p .poisonedTlp { address := t.addr, reqId := tag }).completeRead t.src (.poison got)
      else s.completeRead t.src (.data got))

/-- A CXL.io read times out: the tag is freed, the error recorded, the source failed as Table 5.2 gives. -/
def execCompletionTimeout (p tag : Nat) (s : State) := commit s (fun s =>
  match (s.port p).tags.find? (fun t => t.tag = tag) with
  | none => s
  | some t =>
    let s := (s.dropTag p tag).hostError p .completionTimeout { address := t.addr, reqId := tag }
    if t.discard then s else s.completeRead t.src .timeout)

/-- A CXL.cache request goes unanswered for 100 ms (R155): always fatal. -/
def execD2hTimeout (p id : Nat) (s : State) := commit s (fun s =>
  match (s.port p).d2h.find? (fun d => d.id = id) with
  | none => s
  | some d => s.hostError p .d2hTimeout { address := 64 * d.line, reqId := id, detail := d.op.code })

/-! ### Errors and Port Hold (R146 to R165) -/

/-- The Hitch detects an error. -/
def execHostPortError (p : Nat) (e : HostError) (i : ErrInfo) (s : State) := commit s (fun s =>
  if (s.port p).present && decide (p < 8) && s.module.railsOn then s.hostError p e i else s)

/-- Every entry action of Table 5.4 has completed. -/
def execPortHoldDone (p : Nat) (s : State) := commit s (fun s =>
  if s.flag .HT_HOLD_STATUS_HOLD p then s.setFld .HT_HOLD_STATUS_DONE p 1 else s)

/-- A write of HT_HOLD_RELEASE (R162, R163). -/
def State.holdRelease (s : State) (p key : Nat) (go : Bool) : State :=
  if key ≠ 0xC1EA ∨ !go then s.setFld .HT_HOLD_STATUS_RELEASE_STATUS p 2
  else if !s.flag .HT_HOLD_STATUS_HOLD p then s.setFld .HT_HOLD_STATUS_RELEASE_STATUS p 3
  else if !s.flag .HT_HOLD_STATUS_DONE p then s.setFld .HT_HOLD_STATUS_RELEASE_STATUS p 1
  else
    let s := s.setFld .HT_HOLD_STATUS_RELEASE_STATUS p 0 |>.setFld .HT_HOLD_STATUS_HOLD p 0 |>.setFld .HT_LINK_STATUS_HOLD p 0
    if s.fld .HT_PM_STATUS_DSTATE p = 3 then s else (s.writeHeld p).sendHeldMsix p

def execHoldRelease (p key : Nat) (go : Bool) (s : State) := commit s (fun s =>
  if s.module.railsOn then s.holdRelease p key go else s)

/-- PLDM PORT_HOLD: Port Hold with CAUSE 3 (R157). -/
def execPortHold (p : Nat) (s : State) := commit s (fun s => s.pldm (fun s =>
  if 8 ≤ p then s.reply ccRange else (s.enterHold p 3).reply ccOk))

/-- PLDM PORT_RELEASE: Cleat writes HT_HOLD_RELEASE and returns RELEASE_STATUS (R162). -/
def execPortRelease (p : Nat) (s : State) := commit s (fun s => s.pldm (fun s =>
  if 8 ≤ p then s.reply ccRange
  else
    let s := s.holdRelease p 0xC1EA true
    s.reply ccOk [s.fld .HT_HOLD_STATUS_RELEASE_STATUS p]))

/-! ### Link security (R170 to R173) -/

/-- HT_IDE_CTL: each bit stays set until the next Hitch port reset. -/
def execIdeRequire (p : Nat) (io cxl : Bool) (s : State) := commit s (fun s =>
  if (s.port p).present then
    let s := if io then s.setFld .HT_IDE_CTL_REQUIRE_IO p 1 else s
    if cxl then s.setFld .HT_IDE_CTL_REQUIRE_CXL p 1 else s
  else s)

/-- IDE_KM is reached through DOE on a ready PF. Stream 0 is the link stream, 1 to 4 are selective, 5 is CXL IDE. -/
def State.ideOpen (s : State) (p : Nat) : Bool := s.visible p 0

/-- The substream, direction and key set that a message names exist (Table 5.6). -/
def ideArgs (stream sub dir set : Nat) : Bool :=
  decide (stream ≤ 5) && decide (sub < if stream = 5 then 1 else 3) && decide (dir < 2) && decide (set < 2)

/-- KEY_PROG: the key set is programmed; a set in use is not overwritten. -/
def State.keyProg (s : State) (p stream sub dir set : Nat) : State :=
  if !s.ideOpen p then s
  else
    let v := s.ide p stream
    if ideArgs stream sub dir set && !v.active.contains (sub, dir, set) then
      (s.setIde p stream { v with programmed := (sub, dir, set) :: v.programmed.filter (· ≠ (sub, dir, set)) }).send
        (.ideReply p true [])
    else s.send (.ideReply p false [])

/-- K_SET_GO: a programmed key set comes into use; the previous set stays valid (R171). -/
def State.kSetGo (s : State) (p stream sub dir set : Nat) : State :=
  if !s.ideOpen p then s
  else
    let v := s.ide p stream
    if v.programmed.contains (sub, dir, set) then
      (s.setIde p stream { v with active := (sub, dir, set) :: v.active.filter (· ≠ (sub, dir, set)) }).send (.ideReply p true [])
    else s.send (.ideReply p false [])

/-- K_SET_STOP: the key set is dropped. -/
def State.kSetStop (s : State) (p stream sub dir set : Nat) : State :=
  if !s.ideOpen p then s
  else
    let v := s.ide p stream
    (s.setIde p stream { v with active := v.active.filter (· ≠ (sub, dir, set)), programmed := v.programmed.filter (· ≠ (sub, dir, set)) }).send
      (.ideReply p true [])

/-- IDE_KM QUERY: one link stream and four selective streams (Table 5.6). -/
def execQuery (p : Nat) (s : State) := commit s (fun s =>
  if s.ideOpen p then s.send (.ideReply p true [1, 4]) else s)

def execKeyProg (p stream sub dir set : Nat) (s : State) := commit s (fun s =>
  if stream < 5 then s.keyProg p stream sub dir set else s)

def execKSetGo (p stream sub dir set : Nat) (s : State) := commit s (fun s =>
  if stream < 5 then s.kSetGo p stream sub dir set else s)

def execKSetStop (p stream sub dir set : Nat) (s : State) := commit s (fun s =>
  if stream < 5 then s.kSetStop p stream sub dir set else s)

/-- CXL_QUERY: containment mode only. -/
def execCxlQuery (p : Nat) (s : State) := commit s (fun s =>
  if s.ideOpen p then s.send (.ideReply p true [1]) else s)

def execCxlKeyProg (p dir set : Nat) (s : State) := commit s (fun s => s.keyProg p 5 0 dir set)

def execCxlKSetGo (p dir set : Nat) (s : State) := commit s (fun s => s.kSetGo p 5 0 dir set)

def execCxlKSetStop (p dir set : Nat) (s : State) := commit s (fun s => s.kSetStop p 5 0 dir set)

/-- CXL_GETKEY: a key that the Hitch generates, a free value, is programmed and returned once. -/
def execCxlGetkey (p dir set : Nat) (s : State) := commit s (fun s =>
  if s.ideOpen p && ideArgs 5 0 dir set then
    let k := s.freshWord
    let v := k.2.ide p 5
    (k.2.setIde p 5 { v with programmed := (0, dir, set) :: v.programmed.filter (· ≠ (0, dir, set)) }).send
      (.ideReply p true [k.1.toNat])
  else s)

/-! ### Bindings and channel owners (R115, R142, R145, R605, R606) -/

/-- HT_VF_BIND[n] written with VALID set. -/
def execVfBind (p n coil : Nat) (s : State) := commit s (fun s =>
  if 8 ≤ p ∨ n = 0 ∨ 32 < n ∨ 32 ≤ coil ∨ !s.flag .HT_LINK_STATUS_READY p then s
  else
    let i := 32 * p + (n - 1)
    let st := s.fld .CP_COIL_ADMIN_STATE coil
    if s.flag .HT_VF_BIND_VALID i && s.fld .HT_VF_BIND_COIL i = coil then s.setFld .HT_VF_BIND_STATUS i 0
    else if s.inFlr p n || st = 0 || st = 3 || s.fld .HT_LINK_STATUS_PROTO p < 2 then s.setFld .HT_VF_BIND_STATUS i 2
    else if s.flag .HT_VF_BIND_VALID i || s.flag .CP_COIL_ADMIN_HOME_VALID coil then s.setFld .HT_VF_BIND_STATUS i 1
    else
      let s := s.setFld .HT_VF_BIND_COIL i coil |>.setFld .HT_VF_BIND_VALID i 1 |>.setFld .HT_VF_BIND_STATUS i 0
        |>.setFld .CP_COIL_ADMIN_HOME coil p |>.setFld .CP_COIL_ADMIN_HOME_VALID coil 1
      s.writeHeld p)

/-- HT_VF_BIND[n] written with VALID clear: refused while the VF is in reset or a task of the coil is in flight. -/
def execVfUnbind (p n : Nat) (s : State) := commit s (fun s =>
  if 8 ≤ p ∨ n = 0 ∨ 32 < n then s
  else
    let i := 32 * p + (n - 1)
    let coil := s.fld .HT_VF_BIND_COIL i
    if !s.flag .HT_VF_BIND_VALID i then s.setFld .HT_VF_BIND_STATUS i 0
    else if s.inFlr p n || decide (0 < s.coilInFlight coil) then s.setFld .HT_VF_BIND_STATUS i 2
    else
      let s := s.setFld .HT_VF_BIND_VALID i 0 |>.setFld .HT_VF_BIND_COIL i 0 |>.setFld .HT_VF_BIND_STATUS i 0
        |>.setFld .CP_COIL_ADMIN_HOME_VALID coil 0
      s.dropTkCoil p coil)

/-- HT_TK_OWNER[j]: a reserved function leaves the register unchanged; a channel owned by another function is CLAIMED, one
that is not idle is BUSY, a PF-owned channel works for a coil homed on the port (R142, R145). -/
def execTkOwnerWrite (p j func coil : Nat) (valid : Bool) (s : State) := commit s (fun s =>
  if 8 ≤ p ∨ 64 ≤ j ∨ 32 < func ∨ !s.flag .HT_LINK_STATUS_READY p then s
  else
    let i := 64 * p + j
    let owned := s.flag .HT_TK_OWNER_VALID i
    let same := s.fld .HT_TK_OWNER_FUNC i = func && (func ≠ 0 || s.fld .HT_TK_OWNER_COIL i = coil)
    if valid && owned && same then s.setFld .HT_TK_OWNER_STATUS i 0
    else if valid && owned && s.fld .HT_TK_OWNER_FUNC i ≠ func then s.setFld .HT_TK_OWNER_STATUS i 1
    else if owned && !s.channelIdle (12288 + i) then s.setFld .HT_TK_OWNER_STATUS i 2
    else if valid && func = 0 && s.homeOf coil ≠ some p then s.setFld .HT_TK_OWNER_STATUS i 3
    else if valid && func ≠ 0 && !s.flag .HT_VF_BIND_VALID (32 * p + (func - 1)) then s.setFld .HT_TK_OWNER_STATUS i 3
    else
      s.setFld .HT_TK_OWNER_FUNC i (if valid then func else 0) |>.setFld .HT_TK_OWNER_COIL i (if valid then coil else 0)
        |>.setFld .HT_TK_OWNER_VALID i (b2n valid) |>.setFld .HT_TK_OWNER_STATUS i 0)

end Sys2Proof.Machine
end

