-- ==== Sys2Proof/Machine/HostMem.lean ====
section
/-!
DEFINITION. What a host does to device memory: CXL.mem requests at their homes in both modes of Table 4.2, and CXL.io accesses to HDM.
-/
namespace Sys2Proof.Machine

/-! ### Host memory requests (R241, R358, R361) -/

/-- A host access to a device-bias fathom starts the flip to host bias (R361). -/
def State.autoFlip (s : State) (p f : Nat) : State :=
  if s.flag .HT_BIAS_FLIP_BUSY p then s
  else (s.setFld .HT_BIAS_FLIP_FATHOM p f |>.setFld .HT_BIAS_FLIP_TO_DEVICE p 0 |>.setFld .HT_BIAS_FLIP_BUSY p 1).event .biasAutoFlip
    ⟨.hostPort, p⟩ none f

/-- What an access to HDM finds before it reaches a line: nothing mapped, a vault that is down, a line whose bias flips or whose fathom is in
device bias, or a line and its coil. -/
inductive HdmAt where
  | unmapped
  | fenced
  | wait
  | flip (f : Nat)
  | at (line coil : Nat)

def State.hdmAt (s : State) (p dpa : Nat) : HdmAt :=
  match s.hdmLine p dpa with
  | none => .unmapped
  | some (line, coil) =>
    if s.vaultCheck (64 * line / vaultSize) none none = spFenced then .fenced
    else if s.flipping line then .wait
    else if s.fld .HT_LINK_STATUS_HDM p = 1 && s.deviceBias p (dpa / 0x1000000) then .flip (dpa / 0x1000000)
    else .at line coil

/-- The answer of a CXL.mem request that reaches no line: poison, or a bare acknowledgement (Tables 5.5, 5.8, R173, R241). -/
def State.memVoid (s : State) (p : Nat) (write : Bool) : State :=
  if write then s.send (.memAck p) else s.send (.memReply p s2mCmp 0 true)

/-- An access to an entry whose vault is fenced or resets. -/
def State.hdmFenced (s : State) (p dpa : Nat) : State :=
  (s.bump .SP_HDM_STATUS_FENCED p 1).hostError p .fencedHdm { address := dpa }

/-- A host M2S access at a DPA: `plain` serves it as memory in HDM-D mode, `db` at the home in HDM-DB mode. -/
def State.hostAccess (s : State) (p dpa : Nat) (write : Bool) (plain db : State → Nat → State) : State :=
  if !(s.port p).linkUp || s.fld .HT_LINK_STATUS_HDM p = 0 then s
  else if s.flag .HT_HOLD_STATUS_HOLD p || (s.flag .HT_IDE_CTL_REQUIRE_CXL p && !s.flag .HT_IDE_STATUS_CXL_SECURE p) then s.memVoid p write
  else match s.hdmAt p dpa with
  | .unmapped => (s.bump .SP_HDM_STATUS_UNMAPPED p 1).memVoid p write
  | .fenced => (s.hdmFenced p dpa).memVoid p write
  | .wait => s
  | .flip f => s.autoFlip p f
  | .at line _ => if s.fld .HT_LINK_STATUS_HDM p = 1 then plain s line else db s line

/-- Queued behind the line's transaction, or served at once. -/
def State.hostRequest (s : State) (line p : Nat) (op : HomeOp) : State :=
  if s.quietLine line then s.serveHost line p op else s.request line { op := op, src := 96 + p }

def State.plainRead (s : State) (p line : Nat) : State :=
  let r := s.homeData line
  r.2.2.send (.memReply p s2mCmp r.1 r.2.1)

def State.plainWrite (s : State) (p line : Nat) (data : LineData) (mask : BitVec 64) (poison : Bool) : State :=
  match lineVault line with
  | some v => (s.writeLine line v data mask poison).send (.memAck p)
  | none => s

def execMemrd (p dpa mv snp : Nat) (s : State) := commit s (fun s =>
  s.hostAccess p dpa false (fun s l => s.plainRead p l) (fun s l => s.hostRequest l p (.memRd mv snp)))
def execMemrddata (p dpa : Nat) (s : State) := commit s (fun s =>
  s.hostAccess p dpa false (fun s l => s.plainRead p l) (fun s l => s.hostRequest l p .memRdData))
def execMeminv (p dpa mv : Nat) (s : State) := commit s (fun s =>
  s.hostAccess p dpa true (fun s _ => s.send (.memAck p)) (fun s l => s.hostRequest l p (.memInv mv)))
def execMemclnevct (p dpa : Nat) (s : State) := commit s (fun s =>
  s.hostAccess p dpa true (fun s _ => s.send (.memAck p)) (fun s l => s.hostRequest l p .memClnEvct))
def execMemwr (p dpa mv : Nat) (data : LineData) (poison : Bool) (s : State) := commit s (fun s =>
  s.hostAccess p dpa true (fun s l => s.plainWrite p l data (BitVec.allOnes 64) poison)
    (fun s l => s.hostRequest l p (.memWr mv data (BitVec.allOnes 64) poison)))
def execMemwrptl (p dpa mv : Nat) (data : LineData) (mask : BitVec 64) (poison : Bool) (s : State) := commit s (fun s =>
  s.hostAccess p dpa true (fun s l => s.plainWrite p l data mask poison)
    (fun s l => s.hostRequest l p (.memWr mv data mask poison)))

/-- MemSpecRd may open a row and does nothing else. -/
def execMemspecrd (_p _dpa : Nat) (s : State) := commit s (fun s => s)

/-- MemRdFwd (R361): the vault controller delivers the data to the original requester of a host-bias line. -/
def execMemrdfwd (p dpa : Nat) (s : State) := commit s (fun s =>
  s.hostAccess p dpa false (fun s l =>
    let t := s.txn l
    let r := s.homeData l
    match (s.port p).d2h.find? (fun x => x.line = l && some x.op = t.d2h) with
    | some x =>
      if t.busy then (r.2.2.endD2h p x.id).hitchGrant p l t
        { st := if x.op = .rdShared then .s else .m, data := some r.1, poison := r.2.1 }
      else r.2.2
    | none => r.2.2) (fun s _ => s))

/-- MemWrFwd (R361): the vault controller accepts the data of the original requester's eviction or write. -/
def execMemwrfwd (p dpa : Nat) (s : State) := commit s (fun s =>
  s.hostAccess p dpa true (fun s l =>
    match (s.port p).d2h.find? (fun x => x.line = l && (x.op = .dirtyEvict ∨ x.op = .woWrInv)) with
    | some x =>
      let s := s.plainWrite p l x.data x.mask x.poison
      if x.op = .dirtyEvict then
        let s := s.endD2h p x.id
        if x.again then s.issueD2h p { id := 0, op := .rdShared, line := l, bay := x.bay }
        else s.serveQueue l ((s.txn l).queue.length + 1)
      else s
    | none => s) (fun s _ => s))

/-! ### HDM over CXL.io (R159, R173, R239, R241) -/

/-- A CXL.io request that the port does not serve: Unsupported Request, or discarded if it is posted. -/
def State.ioVoid (s : State) (p : Nat) (write : Bool) : State := if write then s else s.send (.ioReply p 1 0 false)

/-- A host access to HDM. Over CXL.mem it is the MemRd or MemWr of MetaValue I. Over CXL.io it is served at the home without caching, on
behalf of the entry's coil; a write with EP set poisons its line (DEDUCED, log entry 33). -/
def execHdmAccess (p dpa : Nat) (r : HdmReq) (s : State) := commit s (fun s =>
  if 8 ≤ p ∨ !(s.port p).linkUp ∨ !s.flag .HT_LINK_STATUS_READY p then s
  else if !r.io then
    if r.write then s.hostAccess p dpa true (fun s l => s.plainWrite p l r.data r.mask r.poison) (fun s l => s.hostRequest l p (.memWr 0 r.data r.mask r.poison))
    else s.hostAccess p dpa false (fun s l => s.plainRead p l) (fun s l => s.hostRequest l p (.memRd 0 0))
  else if s.flag .HT_HOLD_STATUS_HOLD p then
    if r.write then s.bump .HT_HOLD_COUNT_POSTED_DROPPED p 1 else (s.bump .HT_HOLD_COUNT_NP_UR p 1).ioVoid p false
  else if s.fld .HT_PM_STATUS_DSTATE p = 3 ∨ s.fld .HT_LINK_STATUS_HDM p = 0 ∨ (s.flag .HT_IDE_CTL_REQUIRE_IO p && !r.secure) then s.ioVoid p r.write
  else match s.hdmAt p dpa with
  | .unmapped => (s.bump .SP_HDM_STATUS_UNMAPPED p 1).ioVoid p r.write
  | .fenced => if r.write then s.hdmFenced p dpa else (s.hdmFenced p dpa).send (.ioReply p 0 0 true)
  | .wait => s
  | .flip f => s.autoFlip p f
  | .at line coil =>
    if !s.quietLine line then s
    else if r.write then (s.ncWrite line (some coil) none r.data r.mask r.poison).2
    else
      let x := s.ncRead line (some coil) none
      x.2.2.2.send (.ioReply p (if x.1 = spOk then 0 else 1) x.2.1 x.2.2.1))

end Sys2Proof.Machine
end

