-- ==== Sys2Proof/Machine/Rigging.lean ====
section
/-!
DEFINITION. The Rigging Table that Cleat builds at each wake (R122 to R125), and the CRC-32 of IEEE 802.3 that it and the event
entries carry.
-/
namespace Sys2Proof.Machine

/-- One byte into a reflected CRC-32 with the IEEE 802.3 polynomial. -/
def crc32Byte (c : Nat) (b : Byte) : Nat :=
  (List.range 8).foldl (fun c _ => if c.testBit 0 then (c >>> 1) ^^^ 0xEDB88320 else c >>> 1) (c ^^^ b.toNat)

/-- CRC-32 of a list of bytes. -/
def crc32 (l : List Byte) : Nat := l.foldl crc32Byte 0xFFFFFFFF ^^^ 0xFFFFFFFF

/-- A map of `n` bits as bytes, bit `i` in byte `i / 8`. -/
def bitBytes (n : Nat) (f : Nat → Bool) : List Byte :=
  (List.range ((n + 7) / 8)).map (fun i => BitVec.ofNat 8 ((List.range 8).foldl (fun x j => x + b2n (f (8 * i + j)) * 2 ^ j) 0))

/-- Fields laid out in order, each as its size and value. -/
def packed (l : List (Nat × Nat)) : List Byte := l.flatMap (fun x => leBytes x.1 x.2)

/-- An entry with its header (R123). -/
def rigEntryBytes (ty inst : Nat) (body : List Byte) : List Byte :=
  packed [(2, ty), (2, inst), (4, 16 + body.length), (2, 1), (6, 0)] ++ body

/-- The entries of Table 4.9 (DEDUCED, log entry 39). -/
def State.rigEntries (s : State) : List Byte :=
  let m := s.fences
  let cores := Config.cores - m.cores.length
  let vaults := Config.vaults - m.vaults.length
  let at_ := fun (l : List (Nat × Nat)) (i : Nat) => l[i]?.bind s.attach
  rigEntryBytes 1 0 (packed [(1, 12), (1, 8), (1, 4), (1, 8), (2, cores), (2, vaults), (4, 384), (4, 0)] ++
    bitBytes 96 (fun k => !m.routers.contains k) ++ leBytes 4 0) ++
  rigEntryBytes 2 0 (bitBytes 3072 (fun c => !m.cores.contains c)) ++
  rigEntryBytes 3 0 (packed [(8, vaults * vaultSize), (8, 0)] ++ bitBytes 3072 (fun v => !m.vaults.contains v)) ++
  (List.range 8).flatMap (fun p =>
    let a := (at_ hostBays p).getD (0, false)
    rigEntryBytes 4 p (packed [(1, b2n (s.port p).present), (1, b2n a.2), (1, a.1), (1, 6), (1, 16), (1, b2n (p = s.module.controlPort)), (2, 32),
      (8, 0x4000000000), (4, 2097152), (2, 64), (2, 8192), (2, 4096), (2, 32), (4, 0)])) ++
  (List.range 6).flatMap (fun b =>
    let a := (at_ bendBays b).getD (0, false)
    rigEntryBytes 5 b (packed [(1, b2n (s.bend b).present), (1, b2n a.2), (1, a.1), (1, 32), (2, 256), (2, 0),
      (4, (Config.bendLaneMap s.module.wakeCount b).toNat), (4, 0)])) ++
  rigEntryBytes 6 0 (packed [(1, 32), (1, 64), (1, 64), (1, 64), (4, 1048576), (4, 65536), (4, 65536), (1, 4), (1, 16), (2, 8), (4, 1), (8, 0)]) ++
  rigEntryBytes 7 0 (packed [(8, 0x7FF), (8, 0)]) ++
  rigEntryBytes 8 0 (packed [(4, 20000), (4, 21500), (4, s.capW), (2, 60), (2, 50), (2, 10), (2, 80), (4, 64000), (2, 64), (2, 4096), (4, 0)]) ++
  rigEntryBytes 9 0 (packed [(1, 105), (1, 95), (1, 115), (1, 120), (1, 85), (1, 20), (1, 60), (1, 0), (2, 180), (2, 3456), (4, 0)]) ++
  rigEntryBytes 10 0 (packed [(1, b2n s.cleat.booted), (3, 0), (4, Config.bootRomVersion), (4, s.cleat.slotA.version), (4, s.cleat.slotB.version),
    (4, s.cleat.fusedMin), (4, Config.halyardVersion), (8, 0)])

/-- The table with its header (Table 4.8); the CRC covers it with the CRC field zero. -/
def State.buildRigTable (s : State) : List Byte :=
  let body := s.rigEntries
  let head := fun (crc : Nat) => packed [(4, 0x54474952), (2, 1), (2, 0), (4, 64 + body.length), (2, 22), (2, 0), (8, s.module.wakeCount),
    (8, s.fld .CL_TIME_UTC_NS 0), (12, s.cleat.serial), (4, crc), (16, 0)]
  head (crc32 (head 0 ++ body)) ++ body

end Sys2Proof.Machine
end

