-- ==== Sys2Proof/Machine/Module.lean ====
section
/-!
DEFINITION. The module at the rack and its wake (chapters 2 and 3): the always-on domain, the wake sequence of Table 3.1,
the stopper-map merge, the wafer reset, and the test access port.
-/
namespace Sys2Proof.Machine

/-! ### Loads at wake -/

/-- The registers that report the fenced units (R639). -/
def State.setFenced (s : State) : State :=
  let s := s.fences.cores.foldl (fun s c => s.setFld .CR_STATUS_FENCED c 1) s
  s.fences.vaults.foldl (fun s v => s.setFld .SP_VAULT_STATUS_STATE v 3) s

/-- Step 8 (R87, R88): the failures of step 7 join the fence journal, and the merged map takes the factory map, the journal
and the consequences of fenced routers, pawls and plies. -/
def failedMap (us : List UnitRef) : StopMap :=
  us.foldl (fun m u => match u.kind with
    | .core => { m with cores := insertNat u.id m.cores }
    | .ply => { m with cores := unionNat m.cores (span (8 * u.id) 8) }
    | .bay => { m with cores := unionNat m.cores (span (32 * u.id) 32) }
    | .vault => { m with vaults := insertNat u.id m.vaults }
    | .router => { m with routers := insertNat u.id m.routers }
    | .walker => if (List.range 8).all (fun w => us.contains ⟨.walker, u.id / 8 * 8 + w⟩) then
        { m with cores := unionNat m.cores (span (u.id / 8 * 32) 32) } else m
    | _ => m) {}

def State.mergeMaps (s : State) : State :=
  let f := failedMap s.module.step7
  let live := s.nvm.live
  let rec7 := (s.module.step7.filter (fun u => u.kind ≠ .central ∧ u.kind ≠ .hostPort ∧ u.kind ≠ .bendPort ∧ u.kind ≠ .walker)).map
    (fun u => ({ unit := u, cause := 1, wake := s.module.wakeCount, time := s.fld .CL_TIME_UTC_NS 0 } : CauseRec))
  let new := rec7.filter (fun r => !(live.causes.any (fun c => c.unit = r.unit)))
  let j := live.fences.union f
  let m := (s.cleat.factory.union j).close
  let s : State := { s with fences := m, cleat := { s.cleat with merged := m } }
  if j = live.fences && new.isEmpty then s
  else ({ s with nvm := { s.nvm with live := { live with fences := j, causes := addCauses live.causes new } } } : State).journal 1

/-! ### Wafer reset -/

/-- WAFER_RESET: accepted before READY and in FAILED as well, refused in RECOVERY (R84, R86, R756). -/
def execWaferReset (s : State) := commit s (fun s => s.served (fun s =>
  if s.module.wakeState = .recovery then s.reply ccNotReady else s.warmWake.reply ccOk))

/-! ### Always-on domain -/

/-- The always-on domain starts (R50): Cleat's state and the CL_ registers take their reset values, the NVM's valid copies
stand, and a cold wake begins with step 1 done. -/
def execAlwaysOnStart (s : State) := commit s (fun s =>
  if s.module.aoOn then s
  else
    let s := s.waferOff
    let c : Cleat := { slotA := s.cleat.slotA, slotB := s.cleat.slotB, booted := s.cleat.booted, trial := s.cleat.trial,
                       fusedMin := s.cleat.fusedMin, raises := s.cleat.raises, factory := s.cleat.factory,
                       serial := s.cleat.serial, keyGen := s.cleat.keyGen }
    let m := { s.module with aoOn := true, wakeStep := 2, full := false, wakeState := .boot,
                             wakeCount := s.module.wakeCount + 1, tripped := none, rated := false,
                             pins := { s.module.pins with aoEn := true }, tap := .testLogicReset }
    { s with module := m, cleat := c, regs := [], log := {}, fences := {},
             nvm := { s.nvm with live := s.nvm.stored, writing := none, queue := [] },
             plate := { s.plate with step := 0, urgent := false, whole := false, wanted := { s.plate.shown with word := .waking } } })

/-- AO_EN falls (R51): the compute rails are removed, the NVM update in progress completes, SAFE TO REMOVE is drawn, and the
always-on domain goes off. -/
def execAoEnFall (s : State) := commit s (fun s =>
  let s : State := { s with module := { s.module with pins := { s.module.pins with aoEn := false } } }
  if !s.module.aoOn then s
  else
    let s := s.waferOff
    let nvm := match s.nvm.writing with
      | some (obj, c) => { s.nvm with stored := NvmObjects.copy obj c s.nvm.stored, writing := none, queue := [] }
      | none => { s.nvm with queue := [] }
    let n := s.plate.seq + 1
    let img : PlateImage := { s.plate.wanted with word := .safeToRemove, identity := s.identityArea }
    let drawn := !s.module.inputBad
    let plate := if drawn then { s.plate with shown := img, hatch := false, step := 0, seq := n } else s.plate
    let nvm := if drawn then { nvm with stored := { nvm.stored with plateBegin := some (n, img), plateEnd := n } } else nvm
    { s with module := { s.module with aoOn := false, wakeState := .off, controlPort := s.module.controlPort },
             nvm := nvm, plate := plate, cleat := { s.cleat with running := false } })

/-! ### The steps of Table 3.1 -/

/-- Step 2 (R83, R84, R760): the boot ROM takes image A if its signature verifies and its version is not below the fused
minimum, else image B, else recovery. A trial image it chooses is committed. -/
def State.bootImage (s : State) (o : WakeObs) : State :=
  let good := fun (i : Image) (sig : Bool) => i.valid && sig && decide (s.cleat.fusedMin ≤ i.version)
  let a := good s.cleat.slotA o.imageA
  let b := good s.cleat.slotB o.imageB
  if a || b then
    let pick := !a
    let trial := s.cleat.trial && decide (pick ≠ s.cleat.booted)
    let c := { s.cleat with booted := pick, trial := false, running := true, copying := trial || s.cleat.copying }
    let s : State := { s with cleat := c, module := { s.module with wakeStep := 3 } }
    let s := if trial then s.setSlot (!pick) { s.slot (!pick) with valid := false } else s
    if a then s else s.event .imageFallback
  else
    let s : State := { s with cleat := { s.cleat with running := true }, module := { s.module with wakeStep := 0, wakeState := .recovery } }
    s.event .bootFail

/-- One journaled object at its factory value (Table 19.9). -/
def State.loseObject (s : State) (obj : Nat) : State :=
  let n := { s.nvm with live := NvmObjects.copy obj {} s.nvm.live, stored := NvmObjects.copy obj {} s.nvm.stored }
  ({ s with nvm := n } : State).event .nvmLost ⟨.none, 0⟩ none 0 0 obj

/-- Step 3: the journal is replayed (R657), stored claims are applied (R65), a torn plate is redrawn whole (R75), and the
self-test mode is read (R80). -/
def State.replayJournal (s : State) (o : WakeObs) : State :=
  let torn := s.nvm.torn.filter (fun x => !o.lost.contains x)
  let s := o.lost.foldl State.loseObject s
  let s := torn.foldl (fun s obj => s.event .nvmTorn ⟨.none, 0⟩ none 0 0 obj) s
  let s : State := { s with nvm := { s.nvm with torn := [] } }
  let s := s.nvm.live.gpio.foldl (fun s c => (s.setFld .CL_GPIO_FUNC c.1 c.2).setFld .CL_GPIO_VIA c.1 3) s
  let s : State := match s.nvm.live.plateBegin with
    | some (n, img) => { s with plate := { s.plate with seq := n, whole := s.plate.whole || decide (n ≠ s.nvm.live.plateEnd)
                                                        wanted := if n = s.nvm.live.plateEnd then s.plate.wanted else { img with word := .waking } } }
    | none => s
  let s := s.plateFaults
  { s with module := { s.module with wakeStep := 4, full := decide (s.nvm.live.testMode ≠ .quick) } }

/-- Whether the wake fails after step 8 (R85). -/
def State.wakeFails (s : State) : Bool :=
  s.module.step7.any (fun u => u.kind = .central) || decide (Config.cores ≤ s.fences.cores.length) ||
    decide (Config.vaults ≤ s.fences.vaults.length) || hostBays.all (fun x => s.attach x = none)

/-- The wake fails: WAKE_FAIL is logged, the compute rails are removed, no port is released (R85). -/
def State.failWake (s : State) : State :=
  let s := s.waferOff.event .wakeFail
  { s with module := { s.module with wakeState := .failed } }

/-- Whether a port is present: a router attaches it and step 7 did not find it failed (R26, Table 3.2). -/
def State.portPresent (s : State) (p : Nat) : Bool :=
  ((hostBays[p]?).bind s.attach).isSome && !s.module.step7.contains ⟨.hostPort, p⟩
def State.bendPresent (s : State) (b : Nat) : Bool :=
  ((bendBays[b]?).bind s.attach).isSome && !s.module.step7.contains ⟨.bendPort, b⟩

/-- The "ld" values of one Bend port (Table 20.13): its stored settings (Table 23.3) and its attachment. -/
def State.loadBend (s : State) (b : Nat) : State :=
  let v := SMap.get {} s.nvm.live.bend b
  let a := ((bendBays[b]?).bind s.attach).getD (0, false)
  let s := s.setBend b { s.bend b with present := s.bendPresent b, bay := a.1 }
  let s := s.setFld .BD_CTL_ENABLE b (bits v.ctl 0 0) |>.setFld .BD_CTL_WAFER_ID b (bits v.ctl 6 1)
    |>.setFld .BD_CTL_SYSTEM_ID b (bits v.ctl 22 7) |>.setFld .BD_CTL_MAX_WIDTH b (bits v.ctl 24 23)
    |>.setFld .BD_CTL_DATELINE b (bits v.ctl 25 25)
  (List.range 64).foldl (fun s d =>
    let r := v.routes.getD d 0
    s.setFld .BD_ROUTE_PORT (64 * b + d) (bits r 2 0) |>.setFld .BD_ROUTE_VALID (64 * b + d) (bits r 3 3)
      |>.setFld .BD_ROUTE_CLASS_RESET (64 * b + d) (bits r 4 4)) s

/-- Step 9: route and detour tables of both banks avoid what is lost, the escape tree takes its root (R190), and Cleat loses the Net if
both its routers are fenced (Table 6.3). -/
def State.loadRoutes (s : State) : State :=
  let l := s.lostNow
  let s : State := { s with net := { s.net with lost := [l, l], routes := [] } }
  let s := s.setFld .NT_ESC_ROOT_ROOT 0 (escRoot l)
  if s.fences.routers.contains 0 && s.fences.routers.contains 11 then s.event .cleatUnreachable ⟨.central, 1⟩ else s

/-- Step 12: the "ld" values of the wafer's registers, the control port (R118), the units that report their state. -/
def State.loadRegisters (s : State) : State :=
  let ports := (List.range 8).filter s.portPresent
  let ctl := if ports.contains s.nvm.live.controlPort then s.nvm.live.controlPort else ports.headD 0
  let s : State := { s with module := { s.module with controlPort := ctl, rigLoaded := true } }
  let s := ports.foldl (fun s p =>
    let a := ((hostBays[p]?).bind s.attach).getD (0, false)
    s.setFld .HT_ID_ALT p (b2n a.2) |>.setFld .HT_ID_BAY p a.1 |>.setFld .HT_ID_CONTROL p (b2n (p = ctl))) s
  let s := (List.range 6).foldl State.loadBend s
  let s := (s.module.step7.filter (fun u => u.kind = .walker)).foldl (fun s u =>
    s.setBay (u.id / 8) { s.bay (u.id / 8) with dead := insertNat (u.id % 8) (s.bay (u.id / 8)).dead }) s
  let s := s.setFenced.setCapacity
  let s := s.nvm.live.spares.foldl (fun s x => s.setFld .SP_VAULT_STATUS_SPARES_USED x.1 x.2) s
  let s := s.setFld .SP_GOV_CAPACITY 0 s.vaultRate
  let s := (s.setFld .CL_STATUS_IMAGE 0 (b2n s.cleat.booted)).loadPower
  { s with module := { s.module with rigTable := s.buildRigTable } }

/-- Step 13 ends: the ports may become ready, Bend ports are released, the plate draws LIVE or DEGRADED, and a wake below
the rated count logs it (R644). ONCE reverts to QUICK. -/
def State.endWake (s : State) : State :=
  let s : State := { s with module := { s.module with wakeStep := 0, wakeState := .ready } }
  let s := (List.range 8).foldl State.releasePort s
  let s := (List.range 6).foldl State.startTraining s
  let s := if s.flag .CL_CAPACITY_BELOW_RATED 0 then
      (({ s with module := { s.module with rated := true } } : State).event .capacityBelowRated ⟨.none, 0⟩ none 0 0
        (s.fld .CL_CAPACITY_CORES 0) (s.fld .CL_CAPACITY_VAULTS 0)).plateWord .degraded
    else s.plateWord .live
  let s := if s.nvm.live.testMode = .once then
      ({ s with nvm := { s.nvm with live := { s.nvm.live with testMode := .quick } } } : State).journal 7 else s
  s.nvmPump

/-- A step of the wake ends and the next begins (R78) (DEDUCED, log entry 38). -/
def execWakeStepEnd (o : WakeObs) (s : State) := commit s (fun s =>
  let at_ := fun (s : State) (n : Nat) (w : WakeState) => { s with module := { s.module with wakeStep := n, wakeState := w } }
  if !s.module.aoOn then s
  else match s.module.wakeStep with
  | 2 => s.bootImage o
  | 3 => s.replayJournal o
  | 4 => at_ { s with module := { s.module with railsOn := true } } 5 .test
  | 5 =>
    if s.module.full then at_ s 7 .test
    else
      let s := (List.range 8).foldl (fun s p => s.setPort p { s.port p with present := true }) s
      (List.range 8).foldl State.releasePort (at_ s 6 .test)
  | 6 => at_ s 7 .test
  | 7 => at_ { s with module := { s.module with step7 := o.failed } } 8 .test
  | 8 =>
    let s := s.mergeMaps
    if s.wakeFails then s.failWake
    else
      let s := (List.range 8).foldl (fun s p =>
        s.setPort p (if s.portPresent p then { s.port p with present := true } else { s.port p with present := false, released := false, linkUp := false })) s
      at_ s 9 .train
  | 9 => at_ (o.links.foldl (fun s l => s.setRouter l.1 { s.router l.1 with down := insertNat l.2 (s.router l.1).down }) s).loadRoutes 10 .train
  | 10 =>
    let s := if o.retrained.isEmpty then s else
      ({ s with nvm := { s.nvm with live := { s.nvm.live with trained := unionNat s.nvm.live.trained o.retrained } } } : State).journal 6
    at_ s 11 .train
  | 11 => at_ { s with mem := [], lines := [] } 12 .train
  | 12 => at_ s.loadRegisters 13 .train
  | 13 => s.endWake
  | _ => s)

/-- PORT_RESET through PLDM: a Hitch port reset or a Bend port reset (Table 3.5, Table 23.3). -/
def execPortReset (isBend : Bool) (p : Nat) (s : State) := commit s (fun s => s.pldm (fun s =>
  if isBend then
    if 6 ≤ p then s.reply ccRange else (s.bendReset p).reply ccOk
  else if 8 ≤ p then s.reply ccRange
  else ((s.hitchReset p false false).releasePort p).reply ccOk))

/-! ### Test access port (R53) -/

/-- The IEEE 1149.1 controller's next state at a rising edge of TCK. -/
def TapState.next (t : TapState) (tms : Bool) : TapState :=
  match t with
  | .testLogicReset => if tms then .testLogicReset else .runTestIdle
  | .runTestIdle => if tms then .selectDr else .runTestIdle
  | .selectDr => if tms then .selectIr else .captureDr
  | .captureDr => if tms then .exit1Dr else .shiftDr
  | .shiftDr => if tms then .exit1Dr else .shiftDr
  | .exit1Dr => if tms then .updateDr else .pauseDr
  | .pauseDr => if tms then .exit2Dr else .pauseDr
  | .exit2Dr => if tms then .updateDr else .shiftDr
  | .updateDr => if tms then .selectDr else .runTestIdle
  | .selectIr => if tms then .testLogicReset else .captureIr
  | .captureIr => if tms then .exit1Ir else .shiftIr
  | .shiftIr => if tms then .exit1Ir else .shiftIr
  | .exit1Ir => if tms then .updateIr else .pauseIr
  | .pauseIr => if tms then .exit2Ir else .pauseIr
  | .exit2Ir => if tms then .updateIr else .shiftIr
  | .updateIr => if tms then .selectDr else .runTestIdle

/-- An edge of TCK with its TMS, or TRST_N low; only while the always-on domain runs. -/
def execTestAccessPort (tms trst : Bool) (s : State) := commit s (fun s =>
  if s.module.aoOn then
    { s with module := { s.module with tap := if trst then .testLogicReset else s.module.tap.next tms } }
  else s)

end Sys2Proof.Machine
end

