-- ==== Sys2Proof/Machine/RegRead.lean ====
section
/-!
DEFINITION. What a read of register space returns: the fields that the state holds, and those that are functions of the rest of the state.
-/
namespace Sys2Proof.Machine

/-! ### Event entries as words (Table 19.4, R646) -/

def unitKindCode : UnitKind → Nat
  | .none => 0 | .core => 1 | .ply => 2 | .bay => 3 | .router => 4 | .vault => 5 | .hostPort => 6 | .bendPort => 7 | .sensor => 8
  | .central => 9 | .walker => 10

def EvClass.code : EvClass → Nat
  | .info => 0 | .warning => 1 | .fatal => 2 | .maintenance => 3

/-- The first seven words of an entry, and its CRC as the eighth. -/
def Event.words (e : Event) : List Nat :=
  let w := [e.wake * 2 ^ 40 + e.index % 2 ^ 40, e.time % 2 ^ 64,
    e.code + e.cls.code * 2 ^ 16 + (e.coil.getD 0) * 2 ^ 18 + b2n e.coil.isSome * 2 ^ 23 + unitKindCode e.kind * 2 ^ 24 + e.unit % 4096 * 2 ^ 28 +
      e.count * 2 ^ 48,
    e.data0 % 2 ^ 64, e.data1 % 2 ^ 64, e.data2 % 2 ^ 64, e.data3 % 2 ^ 64]
  w ++ [crc32 (w.flatMap (leBytes 8))]

/-- The entry that CL_PLOG_SEL of port `p` selects, `none` if there is none or Table 19.5 hides it. -/
def State.plogEntry (s : State) (p : Nat) : Option Event :=
  match s.nvm.live.plog.reverse[s.fld .CL_PLOG_SEL_INDEX p]? with
  | some e => if s.sees p e.entry then some e.entry.ev else none
  | none => none

/-! ### Fields that follow from the state -/

def WakeState.code : WakeState → Nat
  | .off => 0 | .boot => 1 | .test => 2 | .train => 3 | .ready => 4 | .recovery => 5 | .failed => 6
def StateWord.code : StateWord → Nat
  | .waking => 0 | .live => 1 | .degraded => 2 | .tripped => 3 | .safeToRemove => 4
def TestMode.code : TestMode → Nat
  | .quick => 0 | .once => 1 | .always => 2
def SyncState.code : SyncState → Nat
  | .free => 0 | .locked => 1 | .holdover => 2

/-- A set of small numbers as the bits of a word. -/
def bitsOf (l : List Nat) : Nat := l.foldl (fun x i => x ||| 2 ^ i) 0

/-- The router ports that exist at router `k`, and those that are up (Table 6.1). -/
def attachBays : List Nat := hostBays.flatMap (fun x => [x.1, x.2]) ++ bendBays.flatMap (fun x => [x.1, x.2]) ++ [0, 11, 53, 54]
def routerHas (k q : Nat) : Bool := if q < 4 then (neighbour k q).isSome else q < 6 || attachBays.contains k
def State.routerUp (s : State) (k q : Nat) : Bool :=
  routerHas k q && !s.fences.routers.contains k && (decide (4 ≤ q) || linkLive s.lostNow k q)

/-- Flits in the hold buffer of a router (DEDUCED, log entry 56). -/
def State.heldFlits (s : State) (k : Nat) : Nat := ((s.router k).packets.filter (·.held)).length

/-- Walkers enabled at a bay, as bits. -/
def State.walkersOn (s : State) (k : Nat) : List Nat :=
  if s.fencedUnit ⟨.bay, k⟩ then [] else (List.range 8).filter (fun w => !(s.bay k).dead.contains w)

/-- Channels of an engine in ACTIVE or PAUSING. -/
def State.activeChannels (s : State) (y : Nat) : Nat :=
  ((span (32 * y) 32).filter (fun i => s.chState i = stActive ∨ s.chState i = stPausing)).length

/-- A task in flight that is ready and does not run. -/
def TaskState.isReady : TaskState → Bool
  | .ready => true
  | .queued _ => true
  | .starting _ => true
  | _ => false
def TaskState.isWaiting : TaskState → Bool
  | .waiting => true
  | _ => false
def TaskState.isRunning : TaskState → Bool
  | .running _ => true
  | _ => false

/-- The coil of a ply as the COIL and COIL_VALID fields show it. -/
def State.plyCoilFld (s : State) (y : Nat) : Nat := (s.plyCoil y).getD 0

/-- The source or destination address of the first byte that channel `i` has not written (R529). -/
def State.chAddr (s : State) (i : Nat) (f : TackleDesc → Nat → Nat → Nat) : Nat :=
  let x := s.chan i
  match x.cur with
  | some d => f d x.progress.1 x.progress.2
  | none => 0

/-- The level of GPIO pin `n`: low while the module pulls it, else as the outside drives it (DESIGN CHOICE, log entry 51). -/
def State.gpioLevel (s : State) (n : Nat) : Bool := !s.gpioLow n && SMap.get false s.module.pins.gpioIn n

/-- What field `f` of instance `i` reads as through port `p`; a write-only field reads as zero. Fields that repeat inside their register are
numbered on from instance to instance (DEDUCED, log entry 62). -/
def State.readFld (s : State) (p : Nat) (f : Fld) (i : Nat) : Nat :=
  match f with
  | .HT_ID_PORT => i
  | .HT_OUTSTANDING_NP => (s.port i).tags.length
  | .HT_OUTSTANDING_D2H => (s.port i).d2h.length
  | .HT_SF_OCCUPANCY_LINES => (s.port i).sf.length
  | .HT_SF_OCCUPANCY_DIRTY => ((s.dirtyCopies (fun l c => linePort l = some i && !c.str)).map (·.1)).eraseDups.length
  | .NT_STATUS_HELD => (s.routers.map (fun e => s.heldFlits e.1)).foldl (· + ·) 0
  | .NT_PORT_STATUS_UP => bitsOf ((List.range 7).filter (s.routerUp i))
  | .NT_PORT_STATUS_PRESENT => bitsOf ((List.range 7).filter (routerHas i))
  | .NT_LEDGER_OCC => (s.ledger i).length
  | .NT_HOLD_HELD => s.heldFlits i
  | .NT_PROXY_COUNT_DISCARDED => (Config.freeWord s.fresh).toNat % 2 ^ 32
  | .NT_FLITS_FLITS => (Config.freeWord s.fresh).toNat
  | .NT_ROUTE_VC0_PORT => s.routeEntry (i / 96 % 2) (i / 192) (i % 96) false
  | .NT_ROUTE_ESC_PORT => s.routeEntry (i / 96 % 2) (i / 192) (i % 96) true
  | .DT_STATUS_WALKERS => ((List.range 96).map (fun k => (s.walkersOn k).length)).foldl (· + ·) 0
  | .DT_STATUS_ACTIVE => (s.bays.map (fun e => e.2.walks.length)).foldl (· + ·) 0
  | .DTW_STATUS_ENABLED => bitsOf (s.walkersOn i)
  | .DTW_STATUS_BUSY => bitsOf ((s.bay i).walks.map (·.walker))
  | .DTW_STATUS_QUEUED => (s.bay i).queue.length
  | .PC_STATUS_MISS_USED => s.missUsed i
  | .PC_STATUS_VICTIM_USED => (s.ply i).victim.length
  | .CR_STATUS_TASK => b2n (s.core i).task.isSome
  | .CR_STATUS_COIL => s.plyCoilFld (i / 8)
  | .CR_STATUS_COIL_VALID => b2n (s.plyCoil (i / 8)).isSome
  | .CR_STATUS_REPEATABLE => b2n ((s.plyCoil (i / 8)).any (fun c => s.flag .CP_COIL_ADMIN_REPEATABLE c))
  | .CR_STATUS_RIG => b2n (s.core i).rig
  | .CR_STATUS_FENCED => b2n (s.fences.cores.contains i)
  | .TK_ENG_STATUS_ACTIVE => s.activeChannels i
  | .TK_ENG_STATUS_R_QUEUE => (s.engine i).queue.length
  | .TK_ENG_STATUS_COIL => s.plyCoilFld i
  | .TK_ENG_STATUS_COIL_VALID => b2n (s.plyCoil i).isSome
  | .TK_CH_PROGRESS_ROW => (s.chan i).progress.1
  | .TK_CH_PROGRESS_OFFSET => (s.chan i).progress.2
  | .TK_CH_CUR_SRC_ADDR => s.chAddr i TackleDesc.srcAt
  | .TK_CH_CUR_DST_ADDR => s.chAddr i TackleDesc.dstAt
  | .TK_CH_STAGE_STAGED => (s.chan i).staged
  | .TK_CH_STAGE_IN_FLIGHT => (s.chan i).inFlight
  | .CP_STATUS_INFLIGHT => s.cap.tasks.length
  | .CP_STATUS_READY => (s.tasksOf (fun t => t.state.isReady)).length
  | .CP_STATUS_WAITING => (s.tasksOf (fun t => t.state.isWaiting)).length
  | .CP_BAY_QUEUED => s.queuedUj i
  | .CP_COIL_COUNT_INFLIGHT => s.coilInFlight i
  | .CP_COIL_COUNT_READY => (s.tasksOf (fun t => t.coil = i && t.state.isReady)).length
  | .CP_COIL_COUNT_RUNNING => (s.tasksOf (fun t => t.coil = i && t.state.isRunning)).length
  | .CP_CRING_MOD_HELD => min 65535 (s.heldOf (i / 64) (i % 64)).length
  | .CPW_STATUS_RUNNING => (s.runningIn i).length
  | .CPW_STATUS_HOT => b2n (decide (840 ≤ s.bayTemp i))
  | .CPW_STATUS_TBAY => s.bayTemp i / 8
  | .CPW_STATUS_QUEUED => (s.queuedAt i).length
  | .CPW_STATUS_BALANCE => ofSigned 32 (s.pawl i).bal
  | .CPW_OPCOST_COST => opCost (i % 5)
  | .CPW_CORE_CEILING => s.ceiling i
  | .CPW_CORE_POINT => s.fld .CR_STATUS_OP i
  | .CPW_CORE_BUSY => b2n (s.core i).task.isSome
  | .CPW_CORE_TJ => s.coreTemp i / 8
  | .BD_OUTSTANDING_REQ => (s.bend i).tags.length
  | .BD_OUTSTANDING_PENDING => ((s.bend i).pend.filter (·.counted)).length
  | .BD_WIN_OUTSTANDING => (s.bend (i / 256)).outstanding (i % 256)
  | .BD_SPLICE_A_PENDING => (s.bend (i / 256)).pendingOf (i % 256)
  | .CL_ID_PORT => p
  | .CL_ID_CONTROL => b2n (decide (p = s.module.controlPort))
  | .CL_STATUS_WAKE_STATE => s.module.wakeState.code
  | .CL_STATUS_STATE_WORD => s.plate.wanted.word.code
  | .CL_STATUS_TRIAL => b2n s.cleat.trial
  | .CL_STATUS_TEST_MODE => s.nvm.live.testMode.code
  | .CL_TIME_STATUS_SYNC => s.cleat.sync.code
  | .CL_BUNDLE_LEN_BYTES => Config.bundleLen
  | .CL_GPIO_LEVEL => b2n (s.gpioLevel i)
  | .CL_EVT_STATUS_AVAIL => ((s.log.ring.zipIdx s.log.dropped).filter (fun x => decide (s.readPos i ≤ x.2) && s.sees i x.1)).length
  | .CL_EVT_ENTRY_WORD => ((s.nextVisible p).bind (fun x => x.2.ev.words[i % 8]?)).getD 0
  | .CL_PLOG_SEL_COUNT => min 4095 s.nvm.live.plog.length
  | .CL_PLOG_ENTRY_WORD => ((s.plogEntry p).bind (fun e => e.words[i % 8]?)).getD 0
  | f => if f.desc.acc = .wo then 0 else s.fld f i

/-- The 64 bits of a register; bits that no field covers read as zero (R15). -/
def State.readReg (s : State) (p : Nat) (r : Reg) (i : Nat) : Nat :=
  r.fields.foldl (fun x f => (List.range f.desc.reps).foldl (fun x j =>
    x + s.readFld p f (f.desc.reps * i + j) % 2 ^ f.desc.w * 2 ^ (f.desc.lo + f.desc.stride * j)) x) 0

/-- A place in a register that an access to the named halves covers wholly (R778). -/
def Desc.within (d : Desc) (lo hi : Bool) (j : Nat) : Bool :=
  let a := d.lo + d.stride * j
  if lo && hi then true else if lo then decide (a + d.w ≤ 32) else hi && decide (32 ≤ a)

/-- A read of the named halves clears the read-to-clear fields that lie wholly in them (R13, R778). -/
def State.clearRead (s : State) (r : Reg) (i : Nat) (lo hi : Bool) : State :=
  r.fields.foldl (fun s f => if f.desc.acc = .rc && f.desc.within lo hi 0 then s.setFld f i 0 else s) s

/-! ### Register addresses (R776, Table 4.7, Table 24.4) -/

/-- What an offset of BAR0 names: register space, a pending-bit array, the bundle window, or nothing (R777). -/
inductive BarPlace where
  | space (x : Nat)
  | pba
  | void
  deriving DecidableEq, Repr

/-- Table 4.7 of port `p`, whose bay window shows bay `k`; the bay codes 96 to 127 are reserved. -/
def pfPlace (p k off : Nat) : BarPlace :=
  if off < 0x100000 then .space (0x2000000 + 0x100000 * p + off)
  else if off < 0x200000 then if off = 0x108000 ∨ off = 0x108004 then .pba else .void
  else if off < 0x400000 then .space (off - 0x200000)
  else if off < 0x800000 then .space (0x1000000 + (off - 0x400000))
  else if off < 0xC00000 then .space (0x4000000 + (off - 0x800000))
  else if off < 0x1000000 then .space (0x5000000 + (off - 0xC00000))
  else if off < 0x1600000 then .space (0x3000000 + (off - 0x1000000))
  else if off < 0x2000000 then .void
  else if off < 0x3000000 then .space (0x10000000 + 0x1000000 * k + (off - 0x2000000))
  else .void

/-- Table 24.4 for coil `c`. -/
def vfPlace (c off : Nat) : BarPlace :=
  if off < 0x4000 then .space (cpOff c off) else if off = 0xC000 ∨ off = 0xC004 then .pba else .void

/-- The messages of a function that wait in its PBA, as bits. -/
def State.pbaBits (s : State) (p fn : Nat) : Nat := bitsOf (((s.port p).msix.filter (fun x => x.1 = fn)).map (·.2))

/-- A block of register space lies in a unit that is fenced or resetting (R779); CR_ registers of a fenced core stay readable, since
they report it (DEDUCED, log entry 84). -/
def State.spaceDown (s : State) (x : Nat) : Bool :=
  if 0x10000000 ≤ x then
    let k := (x - 0x10000000) / 0x1000000
    let o := x % 0x1000000
    s.unitDown ⟨.bay, k⟩ || s.fences.routers.contains k ||
      (decide (0x400000 ≤ o) && decide (o < 0x600000) && s.unitDown ⟨.ply, 4 * k + o / 0x10000 % 4⟩) ||
      (decide (0x800000 ≤ o) && decide (o < 0xA00000) && (s.core (32 * k + (o - 0x800000) / 0x10000)).resetting)
  else if 0x3000000 ≤ x ∧ x < 0x3600000 then s.fences.routers.contains (s.bend ((x - 0x3000000) / 0x100000)).bay
  else decide (0x2000000 ≤ x) && decide (x < 0x2800000) && s.unitDown ⟨.hostPort, (x - 0x2000000) / 0x100000⟩

/-- Both of Cleat's routers are fenced: CL_ windows read as zero and discard writes (Table 6.3). -/
def State.cleatCut (s : State) : Bool := s.fences.routers.contains 0 && s.fences.routers.contains 11

/-- The register whose field a CL_ per-port offset reaches through port `p` (R769). -/
def perPort (r : Reg) : Bool := r = .CL_EVT_CTL || r = .CL_EVT_STATUS || r = .CL_EVT_POP || r = .CL_PLOG_SEL

/-- The registers that `size` bytes at offset `x` reach, as (register, instance, low half, high half), lowest first; HT_BIAS is 32 bits wide
(R778). -/
def regsAt (p x size : Nat) : List (Reg × Nat × Bool × Bool) :=
  let at_ := fun (x : Nat) (lo hi : Bool) => match regAt x with
    | some (r, i) => [(r, if perPort r then p else i, lo, hi)]
    | none => []
  if (regAt x).any (fun r => r.1 = .HT_BIAS) then
    if size = 4 then at_ x true false else at_ x true false ++ at_ (x + 4) true false
  else if size = 8 then at_ x true true
  else if x % 8 = 0 then at_ x true false else at_ x false true

/-- A naturally aligned access of 4 B or 8 B (R778). -/
def regAligned (off size : Nat) : Bool := (size = 4 || size = 8) && off % size = 0

/-- What a read of `size` bytes at register-space offset `x` returns, and the state after it. -/
def State.readSpace (s : State) (p x size : Nat) : Nat × State :=
  if 0x100000 ≤ x ∧ x < 0x200000 then
    let o := x - 0x100000
    (if Config.bundleLen ≤ o then 0 else (Config.bundle (o / 8)).toNat >>> (8 * (o % 8)) % 2 ^ (8 * size), s)
  else
    let free := (regsAt p x size).any (fun r => r.1 = .NT_FLITS || r.1 = .NT_PROXY_COUNT)
    let r := (regsAt p x size).foldl (fun (a : Nat × Nat × State) r =>
      let v := s.readReg p r.1 r.2.1
      let v := if r.2.2.1 && r.2.2.2 then v else if r.2.2.1 then v % 2 ^ 32 else v / 2 ^ 32
      (a.1 + v * 2 ^ a.2.1, a.2.1 + 32, a.2.2.clearRead r.1 r.2.1 r.2.2.1 r.2.2.2)) (0, 0, s)
    (r.1, if free then { r.2.2 with fresh := r.2.2.fresh + 1 } else r.2.2)

end Sys2Proof.Machine
end

