-- ==== Sys2Proof/Machine/RegWrite.lean ====
section
/-!
DEFINITION. Writes of register space: the value that each field takes under R17 and R778, the scope of every register (R119, R142, R239,
R769), and the effect of each register, which for most is the meaning of the command that its row names.
-/
namespace Sys2Proof.Machine

/-- A row's meaning as a part of a larger one: the messages it sends follow those sent before. -/
def State.also (s : State) (f : State → Host.Outcome State Fault Refusal) : State :=
  match f s with
  | .next t => { t with out := s.out ++ t.out }
  | _ => s

/-- A write of register instance `i` through port `p`: the halves written, and the 64-bit image with the other half zero; `off` is its
register-space offset and `vf` tells that it came through VF BAR0 (DEDUCED, log entry 81). -/
structure RegWr where
  p : Nat
  i : Nat
  lo : Bool
  hi : Bool
  v : Nat
  off : Nat
  vf : Bool := false
  deriving DecidableEq, Repr

/-! ### Values (R17, R778) -/

/-- The write covers the field wholly; a field that spans the halves needs both. -/
def RegWr.has (w : RegWr) (f : Fld) (j : Nat := 0) : Bool := f.desc.within w.lo w.hi j

/-- The value that the write carries for a field: the current one for an RW or RWL field that it does not cover, else zero. -/
def RegWr.raw (w : RegWr) (s : State) (f : Fld) (j : Nat := 0) : Nat :=
  if w.has f j then w.v >>> (f.desc.lo + f.desc.stride * j) % 2 ^ f.desc.w
  else if f.desc.acc = .rw ∨ f.desc.acc = .rwl then s.fld f (f.desc.reps * w.i + j)
  else 0

/-- The reserved encodings of enumerated RW fields (R17). -/
def reservedCode (s : State) (f : Fld) (i v : Nat) : Bool :=
  match f with
  | .HT_BAY_WINDOW_BAY => 96 ≤ v
  | .HT_TK_OWNER_FUNC => 32 < v
  | .NT_ROUTE_VC0_PORT => 3 < v && v ≠ 7 && v ≠ 15
  | .NT_ROUTE_ESC_PORT => 3 < v && v ≠ 7 && v ≠ 15
  | .NT_ESC_ROOT_ROOT => 96 ≤ v
  | .SP_SCRUB_CTL_PERIOD => v = 0 || 168 < v
  | .DT_CTX_TBL_COUNT => 8 < v
  | .PC_SCRATCH_WAYS => 8 < v
  | .TK_CH_RING_LOG2 => 16 < v
  | .TK_CH_CTL_IRQ_VEC => 12288 ≤ i && s.fld .HT_TK_OWNER_FUNC (i - 12288) = 0 && 32 ≤ v
  | .CP_COIL_CTL_FIXED_OP => v = 5 || v = 6
  | .CP_COIL_CTL_INFLIGHT_MAX => 65536 < v
  | .CP_COIL_KNOTS_LOG2 => 20 < v
  | .CP_SRING_CFG_LOG2 => v < 4 || 16 < v
  | .CP_CRING_CFG_LOG2 => v < 4 || 16 < v
  | .BD_CTL_MAX_WIDTH => v = 3
  | .BD_ROUTE_PORT => 6 ≤ v
  | .BD_WIN_DST_PORT => 6 ≤ v
  | .BD_SPLICE_A_KIND => v = 3
  | .CL_EVT_CTL_THRESHOLD => v = 3
  | .CL_FENCE_REQ_KIND => fenceKind v = .none
  | _ => false

/-- The value that a field has after an accepted write. -/
def RegWr.new (w : RegWr) (s : State) (f : Fld) (j : Nat := 0) : Nat :=
  let v := w.raw s f j
  if reservedCode s f (f.desc.reps * w.i + j) v then s.fld f (f.desc.reps * w.i + j) else v

/-- A field of the write as a truth value. -/
def RegWr.on (w : RegWr) (s : State) (f : Fld) : Bool := w.new s f != 0

/-- The effect of an access type alone (Table 0.3): RW fields take their value, a one clears in W1C and sets in W1S fields. -/
def RegWr.put (w : RegWr) (s : State) (f : Fld) : State :=
  (List.range f.desc.reps).foldl (fun s j =>
    let i := f.desc.reps * w.i + j
    match f.desc.acc with
    | .rw => s.setFld f i (w.new s f j)
    | .rwl => s.setFld f i (w.new s f j)
    | .w1c => s.setFld f i (s.fld f i - (s.fld f i &&& w.raw s f j))
    | .w1s => s.setFld f i (s.fld f i ||| w.raw s f j)
    | _ => s) s

/-- Fields written by their access types alone. -/
def RegWr.plain (w : RegWr) (s : State) (fs : List Fld) : State := fs.foldl w.put s

/-! ### Host ports -/

/-- HT_ registers of port `p` (R143, R152). -/
def State.writeHt (s : State) (r : Reg) (w : RegWr) : State :=
  let p := w.p
  match r with
  | .HT_BAY_WINDOW => w.put s .HT_BAY_WINDOW_BAY
  | .HT_VF_BIND =>
    if w.on s .HT_VF_BIND_VALID then s.also (execVfBind p (w.i % 32 + 1) (w.new s .HT_VF_BIND_COIL)) else s.also (execVfUnbind p (w.i % 32 + 1))
  | .HT_TK_OWNER =>
    s.also (execTkOwnerWrite p (w.i % 64) (w.new s .HT_TK_OWNER_FUNC) (w.new s .HT_TK_OWNER_COIL) (w.on s .HT_TK_OWNER_VALID))
  | .HT_BIAS_FLIP =>
    if w.raw s .HT_BIAS_FLIP_GO = 1 then s.also (execBiasFlip p (w.new s .HT_BIAS_FLIP_FATHOM) (w.on s .HT_BIAS_FLIP_TO_DEVICE))
    else if s.flag .HT_BIAS_FLIP_BUSY p then s.setFld .HT_BIAS_FLIP_STATUS p 1
    else w.plain s [.HT_BIAS_FLIP_FATHOM, .HT_BIAS_FLIP_TO_DEVICE]
  | .HT_ERR_STATUS =>
    let named := Reg.HT_ERR_STATUS.fields.any (fun f => f.desc.lo = s.fld .HT_ERR_FIRST_BIT p && w.raw s f = 1)
    let s := w.plain s Reg.HT_ERR_STATUS.fields
    if named then s.setFld .HT_ERR_FIRST_VALID p 0 else s
  | .HT_ERR_MASK => w.put s .HT_ERR_MASK_MASK
  | .HT_ERR_SEVERITY => w.put s .HT_ERR_SEVERITY_SEV
  | .HT_ERR_FIRST => w.put s .HT_ERR_FIRST_OVERFLOW
  | .HT_HOLD_RELEASE =>
    if w.lo then s.also (execHoldRelease p (w.raw s .HT_HOLD_RELEASE_KEY) (w.raw s .HT_HOLD_RELEASE_GO = 1)) else s
  | .HT_IDE_CTL => s.also (execIdeRequire p (w.on s .HT_IDE_CTL_REQUIRE_IO) (w.on s .HT_IDE_CTL_REQUIRE_CXL))
  | _ => s

/-! ### The Net, written by Cleat (R206) -/

def State.writeNt (s : State) (r : Reg) (w : RegWr) : State :=
  match r with
  | .NT_CTL => w.plain s [.NT_CTL_BANK, .NT_CTL_PAUSE, .NT_CTL_ESC_WAIT]
  | .NT_ESC_ROOT => w.put s .NT_ESC_ROOT_ROOT
  | .NT_ROUTE =>
    let one := fun (s : State) (f : Fld) (esc : Bool) (j : Nat) =>
      let i := 8 * w.i + j
      let v := w.raw s f j
      if w.has f j && !reservedCode s f i v then
        { s with net := { s.net with routes := SMap.set 0 s.net.routes (routeKey (i / 96 % 2) (i / 192) (i % 96) esc) (v + 1) } }
      else s
    (List.range 8).foldl (fun s j => one (one s .NT_ROUTE_VC0_PORT false j) .NT_ROUTE_ESC_PORT true j) s
  | _ => s

/-! ### Spool -/

/-- SP_ registers (R257). -/
def State.writeSp (s : State) (r : Reg) (w : RegWr) : State :=
  let p := w.p
  let c := w.i
  match r with
  | .SP_SCRUB_CTL => s.waferScoped p w.off (fun s => w.plain s [.SP_SCRUB_CTL_PERIOD, .SP_SCRUB_CTL_ENABLE])
  | .SP_RSV => s.also (execReservationWrite p c (w.new s .SP_RSV_GBPS))
  | .SP_KEY_CTL =>
    let g := w.raw s .SP_KEY_CTL_GENERATE = 1
    let k := w.raw s .SP_KEY_CTL_CLEAR = 1
    if g && k then s.coilScoped p c w.off (fun s => s.setFld .SP_KEY_CTL_STATUS c 3)
    else if g then s.also (execKeyGenerate p c)
    else if k then s.also (execKeyClear p c)
    else s.coilScoped p c w.off (fun s => s)
  | .SP_STRIPE_CTL =>
    if !w.on s .SP_STRIPE_CTL_ACTIVE then
      (s.also (execStripeDeactivate p c)).coilScoped p c w.off (fun s => w.put s .SP_STRIPE_CTL_COUNT)
    else s.coilScoped p c w.off (fun s =>
      if s.flag .SP_STRIPE_CTL_ACTIVE c then s.setFld .SP_STRIPE_CTL_STATUS c 2
      else
        let old := s.fld .SP_STRIPE_CTL_COUNT c
        let t := (w.put s .SP_STRIPE_CTL_COUNT).also (execStripeActivate p c)
        if t.flag .SP_STRIPE_CTL_ACTIVE c then t else t.setFld .SP_STRIPE_CTL_COUNT c old)
  | .SP_STRIPE_LIST =>
    let c := w.i / 768
    s.coilScoped p c w.off (fun s => if s.flag .SP_STRIPE_CTL_ACTIVE c then s.setFld .SP_STRIPE_CTL_STATUS c 2 else w.put s .SP_STRIPE_LIST_VAULT)
  | .SP_VAULT_OWNER =>
    if w.on s .SP_VAULT_OWNER_VALID then s.also (execVaultAssign p w.i (w.new s .SP_VAULT_OWNER_COIL)) else s.also (execVaultRelease p w.i)
  | .SP_HDM_MAP =>
    if p ≠ w.i / 16384 then s.denied p w.off
    else s.also (execHdmMapWrite p (w.i % 16384) (w.new s .SP_HDM_MAP_FATHOM) (w.new s .SP_HDM_MAP_COIL) (w.on s .SP_HDM_MAP_VALID))
  | _ => s.waferScoped p w.off (fun s => s)

/-! ### Translation -/

/-- DT_ registers (R294). -/
def State.writeDt (s : State) (r : Reg) (w : RegWr) : State :=
  let p := w.p
  let c := w.i
  match r with
  | .DT_CTX_ROOT => s.also (execCtxTableWrite p c true (w.new s .DT_CTX_ROOT_ROOT) 0)
  | .DT_CTX_TBL => s.also (execCtxTableWrite p c false (w.new s .DT_CTX_TBL_BASE) (w.new s .DT_CTX_TBL_COUNT))
  | .DT_CTX_CTL =>
    s.coilScoped p c w.off (fun s =>
      let want := w.on s .DT_CTX_CTL_ENABLE
      let t := if want && s.flag .DT_CTX_CTL_ENABLE c then s.setFld .DT_CTX_CTL_STATUS c 0
        else if want then s.also (execContextEnable p c) else s.also (execContextDisable p c)
      if want && !t.flag .DT_CTX_CTL_ENABLE c then t else w.plain t [.DT_CTX_CTL_IRQ_EN, .DT_CTX_CTL_IRQ_VEC])
  | .DT_INV_CMD =>
    if !w.has .DT_INV_CMD_KIND then s.coilScoped p c w.off (fun s => s)
    else match w.raw s .DT_INV_CMD_KIND with
    | 1 => s.also (execInvRange p c (w.raw s .DT_INV_CMD_BASE) (w.raw s .DT_INV_CMD_COUNT))
    | 2 => s.also (execInvAll p c)
    | _ => s.coilScoped p c w.off (fun s => s.setFld .DT_INV_STATUS_STATUS c 2)
  | .DT_FAULT_INFO => s.coilScoped p c w.off (fun s => w.put s .DT_FAULT_INFO_VALID)
  | .DT_SHARE_A =>
    let g := w.i
    let owner := w.new s .DT_SHARE_A_OWNER
    if w.on s .DT_SHARE_A_VALID then s.also (execShareGrant p g owner (w.new s .DT_SHARE_A_GRANTEE) (w.new s .DT_SHARE_A_PERM))
    else if s.flag .DT_SHARE_A_VALID g ∨ s.flag .DT_SHARE_A_BUSY g then s.also (execShareRevoke p g)
    else s.coilScoped p owner w.off (fun s =>
      (w.plain s [.DT_SHARE_A_OWNER, .DT_SHARE_A_GRANTEE, .DT_SHARE_A_PERM]).setFld .DT_SHARE_A_STATUS g 0)
  | .DT_SHARE_B =>
    let g := w.i
    s.coilScoped p (s.fld .DT_SHARE_A_OWNER g) w.off (fun s =>
      if s.flag .DT_SHARE_A_VALID g ∨ s.flag .DT_SHARE_A_BUSY g then s.setFld .DT_SHARE_A_STATUS g 2
      else (w.plain s [.DT_SHARE_B_BASE, .DT_SHARE_B_COUNT]).setFld .DT_SHARE_A_STATUS g 0)
  | .DT_STATUS => s.waferScoped p w.off (fun s => s)
  | _ => s.coilScoped p c w.off (fun s => s)

/-! ### Plies and bays -/

/-- TK_CH_CTL: a change of CLASS, PRIO or WATCH is refused unless the channel is DISABLED or IDLE; then ENABLE and PAUSE take effect, and a
newly watched tail word is read (R507, R531). A refusal to enable leaves the rest of the register as it was. -/
def State.writeChCtl (s : State) (w : RegWr) : State :=
  let ch := w.i
  let lock := (s.chCoil ch).any s.sealed
  let cls := if lock then s.fld .TK_CH_CTL_CLASS ch else w.new s .TK_CH_CTL_CLASS
  let prio := if lock then s.fld .TK_CH_CTL_PRIO ch else w.new s .TK_CH_CTL_PRIO
  let watch := if (chPly ch).isSome then w.new s .TK_CH_CTL_WATCH else 0
  let same := cls = s.fld .TK_CH_CTL_CLASS ch && prio = s.fld .TK_CH_CTL_PRIO ch && watch = s.fld .TK_CH_CTL_WATCH ch
  if !same ∧ s.chState ch ≠ stDisabled ∧ s.chState ch ≠ stIdle then s.setFld .TK_CH_CTL_STATUS ch 3
  else
    let enabled := s.flag .TK_CH_CTL_ENABLE ch
    let want := w.on s .TK_CH_CTL_ENABLE
    let pause := w.on s .TK_CH_CTL_PAUSE
    let t := (w.plain (s.setFld .TK_CH_CTL_CLASS ch cls |>.setFld .TK_CH_CTL_PRIO ch prio |>.setFld .TK_CH_CTL_WATCH ch watch)
      [.TK_CH_CTL_IRQ_EN, .TK_CH_CTL_IRQ_VEC]).setFld .TK_CH_CTL_STATUS ch 0
    let t := if want && !enabled then t.also (execChannelEnable w.p ch) else if enabled && !want then t.also (execChannelDisable w.p ch) else t
    if want && !enabled && t.fld .TK_CH_CTL_STATUS ch ≠ 0 then s.setFld .TK_CH_CTL_STATUS ch (t.fld .TK_CH_CTL_STATUS ch)
    else
      let t := if pause && !t.flag .TK_CH_CTL_PAUSE ch then t.also (execPause w.p ch)
        else if !pause && t.flag .TK_CH_CTL_PAUSE ch then t.also (execPauseClear w.p ch) else t
      if watch = 1 ∧ (s.fld .TK_CH_CTL_WATCH ch = 0 ∨ (want && !enabled)) then t.also (execTailWordChange ch) else t

/-- TK_ channel registers (R531, R532). -/
def State.writeTk (s : State) (r : Reg) (w : RegWr) : State :=
  let ch := w.i
  let moved := fun (fs : List Fld) => s.chScoped w.p ch (fun s =>
    if s.chState ch ≠ stDisabled ∧ s.chState ch ≠ stIdle then s.setFld .TK_CH_CTL_STATUS ch 3
    else (w.plain s fs).setFld .TK_CH_CTL_STATUS ch 0)
  match r with
  | .TK_CH_CTL => s.chScoped w.p ch (fun s => s.writeChCtl w)
  | .TK_CH_RING => moved [.TK_CH_RING_BASE, .TK_CH_RING_LOG2]
  | .TK_CH_WATCH => moved [.TK_CH_WATCH_ADDR]
  | .TK_CH_TAIL => if w.has .TK_CH_TAIL_TAIL then s.also (execTailWrite w.p ch (w.raw s .TK_CH_TAIL_TAIL)) else s.chScoped w.p ch (fun s => s)
  | .TK_CH_STATUS => s.chScoped w.p ch (fun s => w.put s .TK_CH_STATUS_EOC)
  | .TK_ENG_STATUS => s.waferScoped w.p w.off (fun s => s)
  | .TK_ENG_BEATS => s.waferScoped w.p w.off (fun s => s)
  | .TK_ENG_PREEMPTS => s.waferScoped w.p w.off (fun s => s)
  | _ => s.chScoped w.p ch (fun s => s)

/-- Registers of the other per-bay blocks (R327 to R329, R365, R440, R599). -/
def State.writeBay (s : State) (r : Reg) (w : RegWr) : State :=
  let p := w.p
  let y := w.i
  match r with
  | .PC_CTL => s.plyScoped p y 0x8 (fun s => if (s.plyCoil y).any s.sealed then s else w.plain s [.PC_CTL_PREFETCH, .PC_CTL_VICTIM])
  | .PC_SCRATCH =>
    let ways := w.raw s .PC_SCRATCH_WAYS
    if w.has .PC_SCRATCH_WAYS && !reservedCode s .PC_SCRATCH_WAYS y ways then s.also (execCarve p y ways) else s.plyScoped p y 0x10 (fun s => s)
  | .PC_MAINT =>
    if !w.has .PC_MAINT_OP then s.plyScoped p y 0x18 (fun s => s)
    else match w.raw s .PC_MAINT_OP with
    | 1 => s.also (execCleanWay p y (w.raw s .PC_MAINT_WAY) (w.raw s .PC_MAINT_SET))
    | 2 => s.also (execInvWay p y (w.raw s .PC_MAINT_WAY) (w.raw s .PC_MAINT_SET))
    | 3 => s.also (execCleanInvWay p y (w.raw s .PC_MAINT_WAY) (w.raw s .PC_MAINT_SET))
    | 4 => s.also (execCleanInvAll p y)
    | _ => s.plyScoped p y 0x18 (fun s => s.setFld .PC_MAINT_STATUS y 3)
  | .BA_CTL => s.waferScoped p w.off (fun s => w.plain s [.BA_CTL_FREEZE, .BA_CTL_STARVE_LIMIT])
  | _ => s.waferScoped p w.off (fun s => s)

/-! ### Capstan and coils -/

/-- A ring's configuration: changes of `fixed` fields are refused with BUSY while the ring is enabled; a refusal to enable leaves
the register as it was (R570, R600). -/
def State.writeRing (s : State) (w : RegWr) (enable st : Fld) (fixed free : List Fld) (changed : State → State)
    (on off : State → Host.Outcome State Fault Refusal) : State :=
  let r := w.i
  let differ := fixed.any (fun f => w.new s f ≠ s.fld f r)
  let enabled := s.flag enable r
  let want := w.on s enable
  if enabled && differ then s.setFld st r 2
  else
    let t := w.plain s (fixed ++ free)
    let t := if !enabled && differ then changed t else t
    let t := t.setFld st r 0
    if want && !enabled then
      let u := t.also on
      if u.flag enable r then u else s.setFld st r (u.fld st r)
    else if enabled && !want then t.also off
    else t

/-- Registers of coil block `c` (R599, R600, R624, R783). -/
def State.writeCoil (s : State) (r : Reg) (w : RegWr) : State :=
  let p := w.p
  let c := w.i
  let mine := fun (f : State → State) => s.coilScoped p c w.off f
  match r with
  | .CP_COIL_CTL =>
    let others := bits w.v 6 4 + bits w.v 9 8 + bits w.v 48 32
    let s := if w.raw s .CP_COIL_CTL_SKFLUSH = 1 then s.also (execSkflush p c) else s
    if w.vf then if others = 0 then s else s.denied p w.off (some c)
    else s.coilScoped p c w.off (fun s =>
      let s := w.put s .CP_COIL_CTL_REDISPATCH_MAX
      if s.sealed c then s else w.plain s [.CP_COIL_CTL_FIXED_OP, .CP_COIL_CTL_INFLIGHT_MAX])
  | .CP_COIL_POWER => if w.has .CP_COIL_POWER_SHARE_W then s.also (execShareWrite p c (w.raw s .CP_COIL_POWER_SHARE_W)) else mine (fun s => s)
  | .CP_COIL_LIMIT => mine (fun s => w.put s .CP_COIL_LIMIT_DEFAULT_US)
  | .CP_COIL_SKDIR => mine (fun s => w.plain s [.CP_COIL_SKDIR_BASE, .CP_COIL_SKDIR_VALID])
  | .CP_COIL_KNOTS => mine (fun s =>
    if 0 < s.coilInFlight c then s.setFld .CP_COIL_KNOTS_STATUS c 1
    else (w.plain s [.CP_COIL_KNOTS_BASE, .CP_COIL_KNOTS_LOG2]).setFld .CP_COIL_KNOTS_STATUS c 0)
  | .CP_KNOT_CMD =>
    let k := w.raw s .CP_KNOT_CMD_KNOT
    let n := w.raw s .CP_KNOT_CMD_COUNT
    if !w.has .CP_KNOT_CMD_OP then mine (fun s => s)
    else match w.raw s .CP_KNOT_CMD_OP with
    | 0 => s.also (execKnotRead p c k)
    | 1 => s.also (execKnotArm p c k n)
    | 2 => s.also (execKnotDec p c k n)
    | 3 => s.also (execKnotReset p c k)
    | 4 => s.also (execKnotMarkedDec p c k n)
    | _ => mine (fun s => s.setFld .CP_CMD_STATUS_KNOT_STATUS c 2)
  | .CP_CANCEL => if w.has .CP_CANCEL_TASK_ID then s.also (execCancel p c (w.raw s .CP_CANCEL_TASK_ID)) else mine (fun s => s)
  | .CP_COIL_RUN =>
    match w.raw s .CP_COIL_RUN_QUIESCE, w.raw s .CP_COIL_RUN_RESUME, w.raw s .CP_COIL_RUN_RESET with
    | 1, 0, 0 => s.also (execQuiesce p c)
    | 0, 1, 0 => s.also (execResume p c)
    | 0, 0, 1 => s.also (execReset p c)
    | _, _, _ => mine (fun s => s)
  | .CP_SRING_CFG =>
    s.coilScoped p (c / 64) w.off (fun s => s.writeRing w .CP_SRING_CFG_ENABLE .CP_SRING_CFG_STATUS
      [.CP_SRING_CFG_BASE, .CP_SRING_CFG_LOG2, .CP_SRING_CFG_SPAWN] []
      (fun t => if t.fld .CP_SRING_CFG_BASE c = s.fld .CP_SRING_CFG_BASE c ∧ t.fld .CP_SRING_CFG_LOG2 c = s.fld .CP_SRING_CFG_LOG2 c then t
        else (t.setFld .CP_SRING_FAULT_HALTED c 0).setFld .CP_SRING_FAULT_REASON c 0)
      (execSubmissionRingEnable p (c / 64) (c % 64)) (execSubmissionRingDisable p (c / 64) (c % 64)))
  | .CP_CRING_CFG =>
    s.coilScoped p (c / 64) w.off (fun s => s.writeRing w .CP_CRING_CFG_ENABLE .CP_CRING_MOD_STATUS
      [.CP_CRING_CFG_BASE, .CP_CRING_CFG_LOG2] [.CP_CRING_CFG_IRQ_EN, .CP_CRING_CFG_VEC] (fun t => t)
      (execCompletionRingEnable p (c / 64) (c % 64)) (execCompletionRingDisable p (c / 64) (c % 64)))
  | .CP_CRING_MOD => s.coilScoped p (c / 64) w.off (fun s => w.put s .CP_CRING_MOD_MODERATE_US)
  | .CP_SRING_PTR => s.coilScoped p (c / 64) w.off (fun s => s)
  | .CP_SRING_FAULT => s.coilScoped p (c / 64) w.off (fun s => s)
  | .CP_CRING_PTR => s.coilScoped p (c / 64) w.off (fun s => s)
  | _ => mine (fun s => s)

/-- CP_ registers outside the coil blocks (R599, R628). REPEATABLE takes effect before CMD. -/
def State.writeCp (s : State) (r : Reg) (w : RegWr) : State :=
  let p := w.p
  match r with
  | .CP_PARK => s.waferScoped p w.off (fun s => w.plain s [.CP_PARK_CLK_US, .CP_PARK_DARK_MS])
  | .CP_COIL_ADMIN => s.waferScoped p w.off (fun s =>
    let c := w.i
    let s := if w.on s .CP_COIL_ADMIN_REPEATABLE = s.flag .CP_COIL_ADMIN_REPEATABLE c then s
      else s.also (execCoilRepeatableWrite p c (w.on s .CP_COIL_ADMIN_REPEATABLE))
    match w.raw s .CP_COIL_ADMIN_CMD with
    | 1 => s.also (execCreate p c)
    | 2 => s.also (execSeal p c)
    | 3 => s.also (execDestroy p c)
    | _ => s)
  | .CP_PLY_OWNER =>
    if w.on s .CP_PLY_OWNER_VALID then s.also (execPlyAssign p w.i (w.new s .CP_PLY_OWNER_COIL)) else s.also (execPlyRelease p w.i)
  | _ => s.waferScoped p w.off (fun s => s)

/-! ### Bend -/

/-- BD_CTL: identifiers, MAX_WIDTH and DATELINE change only while ENABLE is clear and the port is DOWN or FAILED; a refusal to enable leaves
the register as it was (R663, R701). -/
def State.writeBdCtl (s : State) (w : RegWr) : State :=
  let b := w.i
  let fixed := [Fld.BD_CTL_WAFER_ID, .BD_CTL_SYSTEM_ID, .BD_CTL_MAX_WIDTH, .BD_CTL_DATELINE]
  let differ := fixed.any (fun f => w.new s f ≠ s.fld f b)
  let enabled := s.flag .BD_CTL_ENABLE b
  let want := w.on s .BD_CTL_ENABLE
  if differ && (enabled || (s.bdState b ≠ bdDown && s.bdState b ≠ bdFailed)) then s.setFld .BD_CTL_STATUS b 1
  else
    let t := (w.plain s (.BD_CTL_LOOPBACK :: fixed)).setFld .BD_CTL_STATUS b 0
    if want && !enabled then
      let u := t.bendEnable b
      if u.flag .BD_CTL_ENABLE b then u else s.setFld .BD_CTL_STATUS b (u.fld .BD_CTL_STATUS b)
    else if enabled && !want then t.bendDisable b
    else if s.flag .BD_CTL_LOOPBACK b && !t.flag .BD_CTL_LOOPBACK b then t.startTraining b
    else t

/-- BD_ registers of port `b` (R701, R702). -/
def State.writeBd (s : State) (r : Reg) (w : RegWr) : State :=
  let p := w.p
  let n := fun (f : Fld) => w.new s f
  let b := w.i / 256
  let e := w.i % 256
  match r with
  | .BD_CTL => s.waferScoped p w.off (fun s => s.writeBdCtl w)
  | .BD_RETRAIN => if w.raw s .BD_RETRAIN_GO = 1 then s.also (execRetrain p w.i) else s.waferScoped p w.off (fun s => s)
  | .BD_ROUTE => s.waferScoped p w.off (fun s => w.plain s [.BD_ROUTE_PORT, .BD_ROUTE_VALID, .BD_ROUTE_CLASS_RESET])
  | .BD_WIN =>
    if n .BD_WIN_OPEN = 1 then
      s.also (execWindowOpen p b e (n .BD_WIN_COIL) (n .BD_WIN_DST_WAFER) (n .BD_WIN_DST_PORT) (n .BD_WIN_ENTRY) (n .BD_WIN_KIND) (n .BD_WIN_FATHOMS))
    else if s.flag .BD_WIN_OPEN w.i then s.also (execWindowClose p b e)
    else s.coilScoped p (n .BD_WIN_COIL) w.off (fun s =>
      if s.flag .BD_WIN_BUSY w.i then s.setFld .BD_WIN_STATUS w.i 6
      else (w.plain s [.BD_WIN_COIL, .BD_WIN_DST_WAFER, .BD_WIN_DST_PORT, .BD_WIN_ENTRY, .BD_WIN_KIND, .BD_WIN_FATHOMS]).setFld .BD_WIN_STATUS w.i 0)
  | .BD_SPLICE_A =>
    if n .BD_SPLICE_A_VALID = 1 then
      s.also (execSpliceEntryValid p b e (n .BD_SPLICE_A_COIL) (n .BD_SPLICE_A_KIND) (w.on s .BD_SPLICE_A_R) (w.on s .BD_SPLICE_A_W)
        (n .BD_SPLICE_A_SRC_WAFER) (n .BD_SPLICE_A_SRC_COIL))
    else if s.flag .BD_SPLICE_A_VALID w.i then s.also (execSpliceEntryInvalidate p b e)
    else s.coilScoped p (n .BD_SPLICE_A_COIL) w.off (fun s =>
      if s.flag .BD_SPLICE_A_BUSY w.i then s.setFld .BD_SPLICE_A_STATUS w.i 6
      else (w.plain s [.BD_SPLICE_A_COIL, .BD_SPLICE_A_KIND, .BD_SPLICE_A_R, .BD_SPLICE_A_W, .BD_SPLICE_A_SRC_WAFER,
        .BD_SPLICE_A_SRC_COIL]).setFld .BD_SPLICE_A_STATUS w.i 0)
  | .BD_SPLICE_B =>
    s.coilScoped p (s.fld .BD_SPLICE_A_COIL w.i) w.off (fun s =>
      if s.flag .BD_SPLICE_A_VALID w.i ∨ s.flag .BD_SPLICE_A_BUSY w.i then s.setFld .BD_SPLICE_A_STATUS w.i 6
      else
        let x := s.fld .BD_SPLICE_B_WORD w.i
        let x := if w.lo then setBits x 0 32 w.v else x
        s.setFld .BD_SPLICE_B_WORD w.i (if w.hi then setBits x 32 9 (w.v / 2 ^ 32) else x))
  | .BD_SPLICE_C => s.coilScoped p (s.fld .BD_SPLICE_A_COIL w.i) w.off (fun s => s)
  | _ => s.waferScoped p w.off (fun s => s)

/-! ### Cleat -/

/-- CL_ registers (R769, R770). -/
def State.writeCl (s : State) (r : Reg) (w : RegWr) : State :=
  let p := w.p
  match r with
  | .CL_GPIO => s.also (execClGpioWrite p w.i (w.new s .CL_GPIO_FUNC) (w.on s .CL_GPIO_OUT))
  | .CL_FENCE_REQ =>
    if w.raw s .CL_FENCE_REQ_GO = 1 then s.also (execClFenceReq p (w.new s .CL_FENCE_REQ_KIND) (w.new s .CL_FENCE_REQ_UNIT))
    else if p ≠ s.module.controlPort then s.denied p w.off
    else w.plain s [.CL_FENCE_REQ_KIND, .CL_FENCE_REQ_UNIT]
  | .CL_SKV_CMD =>
    let c := w.new s .CL_SKV_CMD_COIL
    if w.raw s .CL_SKV_CMD_GO = 1 then s.also (execSkeinVerify p c)
    else if s.homeOf c ≠ some p then s.denied p w.off (some c)
    else if s.flag .CL_SKV_CMD_BUSY 0 then s.setFld .CL_SKV_CMD_STATUS 0 1
    else w.put s .CL_SKV_CMD_COIL
  | .CL_SKV_FILE =>
    if s.homeOf (s.fld .CL_SKV_CMD_COIL 0) ≠ some p then s.denied p w.off (some (s.fld .CL_SKV_CMD_COIL 0)) else w.put s .CL_SKV_FILE_DVA
  | .CL_SKV_BASE =>
    if s.homeOf (s.fld .CL_SKV_CMD_COIL 0) ≠ some p then s.denied p w.off (some (s.fld .CL_SKV_CMD_COIL 0)) else w.put s .CL_SKV_BASE_LOAD_BASE
  | .CL_EVT_CTL => w.plain s [.CL_EVT_CTL_ENABLE, .CL_EVT_CTL_VEC, .CL_EVT_CTL_THRESHOLD]
  | .CL_EVT_STATUS => s
  | .CL_EVT_POP => if w.raw s .CL_EVT_POP_GO = 1 then s.also (execEventPop p) else s
  | .CL_EVT_ENTRY => s
  | .CL_PLOG_SEL => w.put s .CL_PLOG_SEL_INDEX
  | .CL_PLOG_ENTRY => s
  | _ => s.denied p w.off

/-! ### Any register -/

/-- A register write by a host, through port `w.p`. -/
def State.writeReg (s : State) (r : Reg) (w : RegWr) : State :=
  let x := w.off
  if x < 0x1000000 then s.writeCl r w
  else if x < 0x1100000 then s.writeCp r w
  else if x < 0x2000000 then s.writeCoil r w
  else if x < 0x3000000 then if 12288 ≤ w.i && decide (0x80000 ≤ x % 0x100000) then s.writeTk r w else s.writeHt r w
  else if x < 0x4000000 then s.writeBd r w
  else if x < 0x5000000 then s.writeDt r w
  else if x < 0x6000000 then s.writeSp r w
  else if x < 0x10000000 then s
  else
    let o := x % 0x1000000
    if 0x400000 ≤ o ∧ o < 0x500000 then s.writeTk r w else s.writeBay r w

end Sys2Proof.Machine
end

