-- ==== Sys2Proof/Machine/RegAccess.lean ====
section
/-!
DEFINITION. The register accesses of hosts, of RIG-level code and of Cleat: REGISTER_WRITE and RC_READ (R13 to R17, R117, R119, R122, R139,
R159, R206, R776 to R784).
-/
namespace Sys2Proof.Machine

/-! ### Hosts -/

/-- What becomes of a host's memory request to a function of port `p` before any register sees it. -/
inductive Gate where
  | lost
  | hold
  | refuse
  | open'
  deriving DecidableEq, Repr

/-- No answer without a link; Unsupported Request before READY, in D3, in a function-level reset, for a function that is not there, and in
Port Hold but for the error registers of the PF (R91, R132, R136, R159). -/
def State.gate (s : State) (p fn : Nat) (exempt : Bool) : Gate :=
  if 8 ≤ p ∨ !(s.port p).linkUp then .lost
  else if !s.visible p fn ∨ s.inFlr p fn ∨ s.fld .HT_PM_STATUS_DSTATE p = 3 then .refuse
  else if s.flag .HT_HOLD_STATUS_HOLD p ∧ !exempt then .hold
  else .open'

/-- A host request passes the gate, or ends as the gate says; in Port Hold it is counted. -/
def State.hostGate (s : State) (p fn : Nat) (write exempt : Bool) (f : State → State) : State :=
  match s.gate p fn exempt with
  | .lost => s
  | .refuse => s.ioVoid p write
  | .hold => if write then s.bump .HT_HOLD_COUNT_POSTED_DROPPED p 1 else (s.bump .HT_HOLD_COUNT_NP_UR p 1).ioVoid p false
  | .open' => f s

/-- What BAR0 of a function maps at an offset: of the PF, or of VF `fn` bound to a coil. -/
def State.barPlace (s : State) (p fn off : Nat) : Option BarPlace :=
  if fn = 0 then some (pfPlace p (s.fld .HT_BAY_WINDOW_BAY p) off)
  else
    let b := 32 * p + (fn - 1)
    if s.flag .HT_VF_BIND_VALID b then some (vfPlace (s.fld .HT_VF_BIND_COIL b) off) else none

/-- The coil-block offsets that a VF may write (R783) (DEDUCED, log entry 83). -/
def vfWritable (off : Nat) : Bool :=
  [0x0, 0x10, 0x18, 0x20, 0x28, 0x30, 0x58].contains (off - off % 8) || (decide (0x1000 ≤ off) && decide (off < 0x3000))

/-- A write of `size` bytes at register-space offset `x` through port `p`, one register at a time. -/
def State.writeSpace (s : State) (p x size v : Nat) (vf : Bool) : State :=
  (regsAt p x size).foldl (fun s r =>
    s.writeReg r.1 { p := p, i := r.2.1, lo := r.2.2.1, hi := r.2.2.2, off := x - x % 8, vf := vf
                     v := if r.2.2.1 then v % 2 ^ (8 * size) else v % 2 ^ 32 * 2 ^ 32 }) s

/-- A host's write through BAR0: no effect at a wrong size, at a unit that is down and at reserved offsets; a VF's write where R783 allows
none is denied. -/
def State.hostWrite (s : State) (p fn off size v : Nat) : State :=
  let exempt := fn = 0 && decide (0x4000 ≤ off) && decide (off < 0x5000)
  s.hostGate p fn true exempt (fun s =>
    match s.barPlace p fn off with
    | some (.space x) =>
      if !regAligned off size ∨ s.spaceDown x ∨ (decide (x < 0x1000000) && s.cleatCut) then s
      else if 0x100000 ≤ x ∧ x < 0x200000 then s.denied p x
      else if fn ≠ 0 ∧ !vfWritable off then
        if (regAt x).isSome then s.denied p x (some (s.fld .HT_VF_BIND_COIL (32 * p + (fn - 1)))) else s
      else s.writeSpace p x size v (fn ≠ 0)
    | _ => s)

/-- A host's read through BAR0: Unsupported Request at a wrong size, at a unit that is down and through an unbound VF. -/
def State.hostRead (s : State) (p fn off size : Nat) : State :=
  let exempt := fn = 0 && decide (0x4000 ≤ off) && decide (off < 0x5000)
  let answer := fun (s : State) (v : Nat) => s.send (.ioReply p 0 (BitVec.ofNat 512 v) false)
  s.hostGate p fn false exempt (fun s =>
    if !regAligned off size then s.ioVoid p false
    else match s.barPlace p fn off with
    | some (.space x) =>
      if s.spaceDown x then s.ioVoid p false
      else if x < 0x1000000 ∧ s.cleatCut then answer s 0
      else
        let r := s.readSpace p x size
        answer r.2 r.1
    | some .pba => answer s (s.pbaBits p fn >>> (8 * (off % 8)) % 2 ^ (8 * size))
    | some .void => answer s 0
    | none => s.ioVoid p false)

/-- A host's read of the Rigging Table: bytes beyond its length read as zero. -/
def State.tableRead (s : State) (p off size : Nat) : State :=
  s.hostGate p 0 false false (fun s =>
    if 0x100000 < off + size ∨ size = 0 ∨ 64 < size then s.ioVoid p false
    else s.send (.ioReply p 0 (BitVec.ofNat 512 (leNat ((s.module.rigTable.drop off).take size))) false))

/-! ### RIG-level code (R414, R779) -/

/-- A register write of core `c` at RIG level: scoped registers and those of Cleat discard it and log it, the Net's discard it, a host port's act
as through that port (DEDUCED). The status is FENCED for a unit that is down (DEDUCED, log entry 82). -/
def State.rigWrite (s : State) (c x size v : Nat) : Nat × State :=
  if s.spaceDown x ∨ (decide (x < 0x1000000) && s.cleatCut) then (spFenced, s)
  else if (regAt x).isNone && !(decide (0x100000 ≤ x) && decide (x < 0x200000)) then (spOk, s)
  else if 0x2000000 ≤ x ∧ x < 0x3000000 then (spOk, s.writeSpace ((x - 0x2000000) / 0x100000) x size v false)
  else if 0x6000000 ≤ x ∧ x < 0x10000000 then (spOk, s)
  else (spOk, (s.send .regDenied).event .regWriteDenied ⟨.core, c⟩ none x)

/-- A register read of a core at RIG level; a per-port register has no instance for it and reads as at reset. -/
def State.rigRead (s : State) (x size : Nat) : Nat × Nat × State :=
  if s.spaceDown x ∨ (decide (x < 0x1000000) && s.cleatCut) then (spFenced, 0, s)
  else
    let r := s.readSpace 8 x size
    (spOk, r.1, r.2)

/-! ### The commands -/

/-- A register write. Cleat writes the Net's registers over the configuration ring. -/
def execRegisterWrite (a : Agent) (off size v : Nat) (s : State) := commit s (fun s =>
  match a with
  | .pf p => s.hostWrite p 0 off size v
  | .vf p n => if n = 0 then s else s.hostWrite p n off size v
  | .table p => s.hostGate p 0 true false (fun s => s)
  | .rig c => if (s.core c).rig && regAligned off size then (s.rigWrite c off size v).2 else s
  | .cleat =>
    if s.cleatUp && s.module.railsOn && regAligned off size && decide (0x6000000 ≤ off) && decide (off < 0x10000000) then
      (regsAt 8 off size).foldl (fun s r => s.writeNt r.1
        { p := 8, i := r.2.1, lo := r.2.2.1, hi := r.2.2.2, off := off
          v := if r.2.2.1 then v % 2 ^ (8 * size) else v % 2 ^ 32 * 2 ^ 32 }) s
    else s)

/-- A register read: it returns the value, and clears the read-to-clear fields that it covers wholly. -/
def execRcRead (a : Agent) (off size : Nat) (s : State) := commit s (fun s =>
  match a with
  | .pf p => s.hostRead p 0 off size
  | .vf p n => if n = 0 then s else s.hostRead p n off size
  | .table p => s.tableRead p off size
  | .rig c =>
    if (s.core c).rig && regAligned off size then
      let r := s.rigRead off size
      if r.1 = spOk then r.2.2.send (.regData r.2.1) else s.send (.status spFenced)
    else s
  | .cleat =>
    if s.cleatUp && s.module.railsOn && regAligned off size && decide (0x6000000 ≤ off) && decide (off < 0x10000000) then
      let r := s.readSpace 8 off size
      r.2.send (.regData r.1)
    else s)

end Sys2Proof.Machine
end

