-- ==== Sys2Proof/Machine/Response.lean ====
section
/-!
DEFINITION. CORE_ACCESS_RESPONSE (R385, R386, R393, R435, R490, Tables 11.7 and 14.6): the response to an outstanding access of a core arrives,
and binds its value or delivers a deferred fault.
-/
namespace Sys2Proof.Machine

/-- The coil with which a core's accesses are checked; RIG level has none. -/
def State.accCoil (s : State) (c : Nat) : Option Nat := if (s.core c).rig then none else (s.core c).coil

/-- The fault of a target's refusal (DEDUCED, log entry 27). -/
def State.failStatus (s : State) (c : Nat) (a : CoreAccess) (st : Nat) : State :=
  if st = spPerm then s.failAccess c a fcPerm Cause.access.code else s.failAccess c a fcFenced 0

/-- A value bound to the destination of an access that ends with it. -/
def State.bindAccess (s : State) (c : Nat) (a : CoreAccess) (v : Nat) : State :=
  (s.setCore c ((s.core c).bindAcc a v)).dropAccess c a.id

/-- A line of another ply's scratch as its ply cache reads it: its poison, and the value of a part. -/
def State.scratchPoisoned (s : State) (wpa : Nat) : Bool :=
  match placeOf wpa with
  | .scratch y off => (s.ply y).scratchPoison.contains (off / 64)
  | _ => false

/-- The responses to the parts of a load that its ply cache cannot serve: a refusal, poison, or the bytes of another ply's scratch. -/
def State.loadResponse (s : State) (c : Nat) (a : CoreAccess) : State :=
  let y := plyOfCore c
  let shared := leafShared a.leaf
  let bad := fun (p : Part) => !s.carveHolds p.wpa && s.targetCheck (s.accCoil c) shared (p.wpa / 64) ≠ spOk
  let foreign := fun (p : Part) => match placeOf p.wpa with
    | .scratch z _ => decide (z ≠ y)
    | _ => false
  match a.parts.find? bad with
  | some p => s.failStatus c a (s.targetCheck (s.accCoil c) shared (p.wpa / 64))
  | none =>
    match a.parts.find? (fun p => s.refused y (p.wpa / 64) ≠ 0) with
    | some p => (s.forgive y (p.wpa / 64)).failStatus c a (s.refused y (p.wpa / 64))
    | none =>
      match a.parts.find? (fun p => (s.ply y).poisonedMiss.contains (p.wpa / 64)) with
      | some p =>
        (s.setPly y { s.ply y with poisonedMiss := (s.ply y).poisonedMiss.filter (· ≠ p.wpa / 64) }).failAccess c a fcEcc 0
      | none =>
        let ready := a.parts.filter (fun p => foreign p && !s.carveHolds p.wpa)
        if ready.any (fun p => s.scratchPoisoned p.wpa) then s.failAccess c a fcEcc 0
        else
          let a' := { a with got := a.got ++ ready.map (fun p => (p.elem, s.load p.wpa p.size)), parts := a.parts.filter (fun p => !ready.contains p) }
          (s.setCore c { s.core c with accesses := (s.core c).accesses.map (fun z => if z.id = a.id then a' else z) }).bindReady c

/-- The response to a DEV read of register space; a host's answers come as completions of its link. -/
def State.devReadResponse (s : State) (c : Nat) (a : CoreAccess) (p : Part) : State :=
  match placeOf p.wpa with
  | .regs off =>
    let r := s.rigRead off p.size
    if r.1 = spOk then r.2.2.answerAccess c a.id (.data (leBytes p.size r.2.1)) else s.failStatus c a r.1
  | .host q _ => if s.hostUp q then s else s.failStatus c a spFenced
  | _ => s.failStatus c a spPerm

/-- One DEV write reaches its target: a posted write of a host, or a register. -/
def State.devWrite (s : State) (c : Nat) (p : Part) : Nat × State :=
  match placeOf p.wpa with
  | .regs off => s.rigWrite c off p.size p.value
  | .host q addr =>
    if s.hostUp q then
      let s := (s.recallLine q (hostLine q addr)).send (.ioWrite q addr (leBytes p.size p.value) false)
      (spOk, s.setCore c ((s.core c).posted q addr))
    else (spFenced, s)
  | _ => (spPerm, s)

/-- The writes of a DEV store in the order of its elements; the first refusal ends them (R386). -/
def State.devWrites (s : State) (c : Nat) : List Part → Nat × State
  | [] => (spOk, s)
  | p :: ps =>
    let r := s.devWrite c p
    if r.1 = spOk then r.2.devWrites c ps else r

/-- The old bytes at a part's target and whether they are poisoned, for accesses that are performed there: an STR line at its vault, or another
ply's scratch. -/
def State.targetRead (s : State) (p : Part) (ck : LineCheck) : Option (Nat × Bool × State) :=
  match placeOf p.wpa with
  | .spool v _ =>
    let r := (s.checkLine (p.wpa / 64) v ck).readLine (p.wpa / 64) v
    some (lineField r.1 (p.wpa % 64) p.size, r.2.1, r.2.2)
  | .scratch _ _ => some (s.load p.wpa p.size, s.scratchPoisoned p.wpa, s)
  | _ => none

/-- New bytes written at a part's target. -/
def State.targetWrite (s : State) (c : Nat) (shared : Option Nat) (p : Part) (v : Nat) : Nat × State :=
  let line := p.wpa / 64
  let o := p.wpa % 64
  match placeOf p.wpa with
  | .scratch _ _ => (spOk, s.scratchWrite line (setLineField 0 o p.size v) (fieldMask o p.size) (some c))
  | .host q _ =>
    let r := s.writeTarget (s.accCoil c) shared line (setLineField 0 o p.size v) (fieldMask o p.size) false (some c)
    (r.1, r.2.setCore c ((r.2.core c).posted q (p.wpa % 2 ^ 48)))
  | _ => s.writeTarget (s.accCoil c) shared line (setLineField 0 o p.size v) (fieldMask o p.size) false (some c)

/-- The reservation on a part's granule that STCND finds at its target. -/
def State.heldAtTarget (s : State) (c : Nat) (p : Part) : Bool :=
  match placeOf p.wpa with
  | .scratch _ _ => (s.core c).rsv = some { base := 64 * (p.wpa / 64), size := 64 }
  | _ => s.strRsv.contains { core := c, granule := p.wpa / 256 }

/-- The response to an access of class 0x7 that is performed at its target. -/
def State.targetResponse (s : State) (c : Nat) (a : CoreAccess) (p : Part) (ck : LineCheck) : State :=
  let shared := leafShared a.leaf
  let st := s.targetCheck (s.accCoil c) shared (p.wpa / 64)
  if s.carveHolds p.wpa then s
  else if st ≠ spOk then
    (match st, lineVault (p.wpa / 64) with
      | 1, some v => s.permEvent v (s.accCoil c) (64 * (p.wpa / 64))
      | _, _ => s).failStatus c a st
  else if s.slicedOut (p.wpa / 64) (s.accCoil c) then s
  else match a.op with
  | .amo op b cc _ =>
    match s.targetRead p ck with
    | some (old, poison, s) =>
      if poison then s.failAccess c a fcEcc 0
      else
        let r := s.targetWrite c shared p (amoValue op p.size old b cc)
        if r.1 = spOk then r.2.bindAccess c a old else r.2.failStatus c a r.1
    | none => s
  | .ldrsv _ =>
    match s.targetRead p ck with
    | some (old, poison, s) =>
      if poison then s.failAccess c a fcEcc 0
      else
        let s := s.bindAccess c a old
        match placeOf p.wpa with
        | .scratch _ _ => s.setCore c { s.core c with rsv := some { base := 64 * (p.wpa / 64), size := 64 } }
        | _ => s.holdAtTarget c p.wpa
    | none => s
  | .stcnd v _ =>
    if s.heldAtTarget c p then
      let r := s.targetWrite c shared p v
      if r.1 = spOk then
        let s := r.2.clearRsv c
        (s.setCore c ((s.core c).stcResult (p.wpa / 64) true)).bindAccess c a 0
      else (r.2.clearRsv c).failStatus c a r.1
    else
      let s := s.clearRsv c
      (s.setCore c ((s.core c).stcResult (p.wpa / 64) false)).bindAccess c a 1
  | _ => s

/-- The response to access `id` of core `c`; data that arrives during termination is discarded. -/
def execCoreAccessResponse (c id : Nat) (ck : LineCheck) (s : State) := commit s (fun s =>
  match (s.core c).accesses.find? (fun a => a.id = id) with
  | none => s
  | some a =>
    match a.parts with
    | [] => s
    | p :: _ =>
      match a.op with
      | .load _ =>
        if a.dev then s.devReadResponse c a p
        else if (s.core c).ending then s.dropAccess c id
        else s.loadResponse c a
      | .store =>
        if a.dev then
          let r := s.devWrites c a.parts
          if r.1 = spOk then r.2.dropAccess c id else r.2.failStatus c a r.1
        else s
      | .maint _ => s
      | .wfence => s
      | _ => (s.targetResponse c a p ck).ueFence (lineVault (p.wpa / 64)))

end Sys2Proof.Machine
end

