-- ==== Sys2Proof/Machine/Sensors.lean ====
section
/-!
DEFINITION. PLDM telemetry (R753, Table 23.2), and the passing of time on an empty queue.
-/
namespace Sys2Proof.Machine

/-- PLDM's sensorOperationalState "unavailable" and its code for an unknown sensor (DSP0248; PRESUMED). -/
def opUnavailable : Nat := 2
def ccInvalidSensor : Nat := 0x80

/-- A reading: the sensor is unknown, unavailable, or reads a value. -/
inductive Reading where
  | unknown
  | unavailable
  | value (v : Nat)
  deriving DecidableEq, Repr

/-- A unit that is absent, fenced or unpowered gives no reading. -/
def State.readingOf (s : State) (u : UnitRef) (v : Nat) : Reading :=
  if !s.module.railsOn || s.unitDown u then .unavailable else .value v

/-- The numeric sensors; what Cleat measures outside the registers is the command's. -/
def State.numericSensor (s : State) (id measured : Nat) : Reading :=
  let rails := fun (v : Nat) => if s.module.railsOn then Reading.value v else .unavailable
  if 1 ≤ id ∧ id ≤ 5 then .value measured
  else if id = 6 then rails measured
  else if id = 7 then rails (s.fld .CP_POWER_E_W 0)
  else if id = 8 then .value s.power.coolant
  else if id = 9 then .value s.capW
  else if id = 0xA then rails (s.fld .SP_GOV_CAPACITY 0)
  else if id = 0xB then rails (s.fld .CL_CAPACITY_CORES 0)
  else if id = 0xC then rails (s.fld .CL_CAPACITY_VAULTS 0)
  else if 0x100 ≤ id ∧ id < 0x160 then s.readingOf ⟨.bay, id - 0x100⟩ (s.bayTemp (id - 0x100))
  else if 0x200 ≤ id ∧ id < 0x260 then s.readingOf ⟨.bay, id - 0x200⟩ measured
  else if 0x400 ≤ id ∧ id < 0x460 then s.readingOf ⟨.router, id - 0x400⟩ measured
  else if 0x500 ≤ id ∧ id < 0x506 then s.readingOf ⟨.bendPort, id - 0x500⟩ measured
  else if 0x510 ≤ id ∧ id < 0x516 then
    if (List.range 4).all (fun q => SMap.get 0 s.cleat.osfp (4 * (id - 0x510) + q) = 0) then .unavailable else .value measured
  else .unknown

/-- The states of a host port, in the order of Table 23.2: DOWN, TRAINING, READY, PORT_HOLD, D3. -/
def State.portState (s : State) (p : Nat) : Nat :=
  if s.flag .HT_HOLD_STATUS_HOLD p then 3
  else if s.fld .HT_PM_STATUS_DSTATE p = 3 ∨ (s.port p).d3cold then 4
  else if s.flag .HT_LINK_STATUS_READY p then 2
  else if (s.port p).present && (s.port p).released && !s.perst p then 1
  else 0

/-- The state sensors; a state's number is its place in Table 23.2, or the register's code where the table names the register (DESIGN CHOICE, log entry 46). -/
def State.stateSensor (s : State) (id : Nat) : Reading :=
  if id = 0x800 then .value s.module.wakeState.code
  else if id = 0x801 then .value s.plate.wanted.word.code
  else if id = 0x802 then .value (b2n (s.cleat.booted != s.cleat.trial) + 2 * b2n s.cleat.trial)
  else if 0x810 ≤ id ∧ id < 0x818 then s.readingOf ⟨.hostPort, id - 0x810⟩ (s.portState (id - 0x810))
  else if 0x820 ≤ id ∧ id < 0x826 then s.readingOf ⟨.bendPort, id - 0x820⟩ (s.bdState (id - 0x820))
  else if id = 0x830 then .value s.cleat.sync.code
  else if id = 0x840 then if s.module.railsOn then .value (s.fld .SP_GOV_STATE 0) else .unavailable
  else .unknown

/-- The answer to a sensor read: the operational state, and the reading where there is one. -/
def State.replyReading (s : State) : Reading → State
  | .unknown => s.reply ccInvalidSensor
  | .unavailable => s.reply ccOk [opUnavailable]
  | .value v => s.reply ccOk [0, v]

/-- GetSensorReading. -/
def execGetSensorReading (id measured : Nat) (s : State) := commit s (fun s => s.pldm (fun s => s.replyReading (s.numericSensor id measured)))

/-- GetStateSensorReadings. -/
def execGetStateSensorReadings (id : Nat) (s : State) := commit s (fun s => s.pldm (fun s => s.replyReading (s.stateSensor id)))

/-! ### Time -/

/-- One microsecond passes: Cleat's time runs on, and accepted writes of peers are performed (R690; DESIGN CHOICE). -/
def State.tick (s : State) : State :=
  let s : State := { s with clockUs := s.clockUs + 1 }
  let s := if s.module.aoOn then s.setFld .CL_TIME_UTC_NS 0 (s.fld .CL_TIME_UTC_NS 0 + 1000) else s
  s.performAll

/-- What the block does while no command waits (DESIGN CHOICE, log entry 5). -/
def idle (s : State) : Host.Outcome State Fault Refusal := commit s (fun s => s.tick)

end Sys2Proof.Machine
end

