-- ==== Sys2Proof/Machine/Halyard.lean ====
section
/-!
DEFINITION. The Halyard service (chapter 21): its accesses to the coil's memory, the check of its configuration block, the reading of requests,
and sampling. The instructions that its tasks execute are commands of the cores; the commands here carry the service's effect on its
memory structures.
-/
namespace Sys2Proof.Machine

/-! ### The coil's memory as the service sees it (R703) -/

def State.hal (s : State) (coil : Nat) : Halyard := SMap.get {} s.halyards coil
def State.setHal (s : State) (coil : Nat) (h : Halyard) : State := { s with halyards := SMap.set {} s.halyards coil h }

/-- The WPA of a DVA of the coil, with the owner of its shared mark, if an access of the kind is allowed. -/
def State.svcAt (s : State) (coil dva : Nat) (k : AccKind) : Option (Nat × Option Nat) :=
  match s.walk coil dva with
  | .inr _ => none
  | .inl l =>
    if (l.denies k).isSome then none
    else match s.leafWpa l dva with
    | .inr _ => none
    | .inl w => some (w, l.shared)

/-- `n` bytes inside one line, as coherent memory holds them; zero where the coil may not read. -/
def State.svcRead (s : State) (coil dva n : Nat) : Nat :=
  match s.svcAt coil dva .read with
  | some (w, sh) =>
    match lineVault (w / 64) with
    | some v => if s.vaultCheck v (some coil) sh = spOk then s.cohLoad w n else 0
    | none => 0
  | none => 0

/-- One 8 B word. -/
def State.svcWord (s : State) (coil dva : Nat) : Nat := s.svcRead coil dva 8

/-- `n` bytes inside one line written; a write that the coil may not make is lost. -/
def State.svcWrite (s : State) (coil dva n v : Nat) : State :=
  match s.svcAt coil dva .write with
  | some (w, sh) =>
    match lineVault (w / 64) with
    | some _ => (s.ncWrite (w / 64) (some coil) sh (setLineField 0 (w % 64) n v) (fieldMask (w % 64) n) false).2
    | none => s
  | none => s

/-- Words written from a DVA on, each inside its line. -/
def State.svcWords (s : State) (coil dva : Nat) : List Nat → State
  | [] => s
  | w :: ws => (s.svcWrite coil dva 8 w).svcWords coil (dva + 8) ws

/-- An event that Halyard reports through RIGCALL LOG, at most 16 in a millisecond (R730, Table 14.9). -/
def State.hEvent (s : State) (coil : Nat) (ev : EvName) (d2 : Nat) : State :=
  let ms := s.clockUs / 1000
  let e := SMap.get (0, 0) s.cap.logs coil
  let n := if e.1 = ms then e.2 else 0
  let s : State := { s with cap := { s.cap with logs := SMap.set (0, 0) s.cap.logs coil (ms, n + 1) } }
  if 16 ≤ n then s else s.event ev ⟨.none, 0⟩ (some coil) (s.hal coil).taskId 0 d2

/-- The counters of the status area, in their order (Table 21.1). -/
def hAdmitted : Nat := 0
def hCompleted : Nat := 1
def hShed : Nat := 2
def hRejected : Nat := 3
def hCancelled : Nat := 4
def hFwdOut : Nat := 5
def hFwdIn : Nat := 6
def hFwdLost : Nat := 7
def hPreempts : Nat := 8
def hRunning : Nat := 9
def hWaiting : Nat := 10
def hKvFree : Nat := 11
def hSteps : Nat := 12
def hNotifyBad : Nat := 13
def hCringFill : Nat := 14
def hRecoveries : Nat := 15

def State.hStat (s : State) (coil i v : Nat) : State := s.svcWrite coil ((s.hal coil).scb + 0x400 + 8 * i) 8 (v % 2 ^ 64)
def State.hCount (s : State) (coil i n : Nat) : State := s.hStat coil i (s.svcWord coil ((s.hal coil).scb + 0x400 + 8 * i) + n)

/-- STATE and CAUSE of the SCB. -/
def State.hState (s : State) (coil st cause : Nat) : State :=
  (s.svcWrite coil ((s.hal coil).scb + 0x10) 8 (st + cause * 2 ^ 8)).setHal coil { s.hal coil with state := st }

/-! ### The configuration block (Table 21.1, R704, R706, R708, R714) -/

/-- A range of DVAs translates through COH leaves to Spool. -/
def State.cohRange (s : State) (coil dva size : Nat) : Bool :=
  (List.range ((dva % 0x1000000 + size + 0xFFFFFF) / 0x1000000)).all (fun i =>
    match s.walk coil ((dva / 0x1000000 + i) * 0x1000000) with
    | .inl l => l.region = .coh && (l.target = .near || l.target = .stripe)
    | .inr _ => false)

/-- The work area that R714 asks for, in fathoms. -/
def workNeed (c : HCfg) : Nat :=
  ceilDiv (c.maxBatch * (4 * c.layerGroups * ceilDiv c.maxContext c.blockTokens + 4 * c.vocab + 4 * c.maxContext + 512) + c.kvFathoms * 32) (2 ^ 24) + 1

def hReqRing (w0 w1 : Nat) : HReqRing := { valid := bit w1 15, base := w0, count := bits w1 4 0, slot := bits w1 12 8, rsp := bits w1 18 16 }
def hPlace (w0 w1 num : Nat) : HPlace := { valid := bit w1 15, dva := w0, num := num }

/-- The configuration that the words of an SCB spell. -/
def hCfg (w : Nat → Nat) : HCfg :=
  { vocab := bits (w 0x20) 19 0, eos := bits (w 0x20) 51 32
    kvFathoms := bits (w 0x30) 15 0, blockTokens := bits (w 0x30) 31 16, layerGroups := bits (w 0x30) 39 32
    maxContext := bits (w 0x38) 31 0
    maxBatch := bits (w 0x40) 15 0, tokenBudget := bits (w 0x40) 31 16, prefillChunk := bits (w 0x40) 47 32, group := bits (w 0x40) 55 48
    queueMax := bits (w 0x48) 15 0, stallMs := bits (w 0x48) 31 16, fwdThreshold := bits (w 0x48) 47 32
    notifyCh := bits (w 0x58) 19 16, cring := bits (w 0x58) 45 40, notify := bit (w 0x58) 46, notifyAddr := w 0x60
    reqs := (List.range 8).map (fun r => hReqRing (w (0x80 + 16 * r)) (w (0x88 + 16 * r)))
    rsps := (List.range 8).map (fun q => hPlace (w (0x180 + 16 * q)) (w (0x188 + 16 * q)) (bits (w (0x188 + 16 * q)) 4 0))
    peers := (List.range 8).map (fun i => hPlace (w (0x300 + 16 * i)) (w (0x308 + 16 * i)) (bits (w (0x308 + 16 * i)) 5 0))
    mailbox := hPlace (w 0x380) (w 0x388) (bits (w 0x388) 4 0) }

/-- The model skein's directory entry is VALID and lists the template. -/
def State.skeinHas (s : State) (coil skein template : Nat) : Bool :=
  let a := s.fld .CP_COIL_SKDIR_BASE coil * 4096 + 16 * skein
  s.flag .CP_COIL_SKDIR_VALID coil && s.svcWord coil (a + 8) = 1 && decide (template < bits (s.svcWord coil a) 63 48)

/-- The word of the SCB at `off` passes its check. -/
def State.scbWordOk (s : State) (coil : Nat) (w : Nat → Nat) (off : Nat) : Bool :=
  let x := w off
  let c := hCfg w
  let dva := fun (a align : Nat) => decide (a < 2 ^ 48) && a % align = 0
  if off = 0 then x = 0x44525948 + 2 ^ 32
  else if off = 0x8 then x < 2
  else if off = 0x10 then true
  else if off = 0x18 then
    bits x 63 41 = 0 && s.skeinHas coil (bits x 7 0) (bits x 23 8) && s.skeinHas coil (bits x 7 0) (bits x 39 24)
  else if off = 0x20 then c.vocab ≠ 0 && bits x 31 20 = 0 && bits x 63 52 = 0
  else if off = 0x28 then dva x 0x1000000
  else if off = 0x30 then c.kvFathoms ≠ 0 && c.blockTokens ≠ 0 && c.blockTokens ≤ 4096 && c.layerGroups ≠ 0 && bits x 63 40 = 0
  else if off = 0x38 then bits x 63 32 = 0
  else if off = 0x40 then
    c.maxBatch ≠ 0 && c.maxBatch ≤ 1024 && c.maxBatch ≤ c.tokenBudget && c.prefillChunk ≠ 0 && c.prefillChunk ≤ c.tokenBudget &&
      c.group ≠ 0 && c.group ≤ 64 && bits x 63 56 = 0
  else if off = 0x48 then bits x 63 48 = 0
  else if off = 0x50 then dva x 0x1000000
  else if off = 0x58 then
    let sr := 64 * coil + bits x 37 32
    let cr := 64 * coil + c.cring
    workNeed c ≤ bits x 15 0 && bits x 31 30 = 0 && bits x 39 38 = 0 && bits x 63 47 = 0 &&
      bits x 29 20 * 1024 + 64 ≤ s.knotCount coil && s.flag .CP_SRING_CFG_ENABLE sr && s.flag .CP_SRING_CFG_SPAWN sr &&
      s.flag .CP_CRING_CFG_ENABLE cr && s.fld .CP_CRING_CFG_LOG2 cr = 16 && !s.flag .CP_CRING_CFG_IRQ_EN cr
  else if off = 0x60 then
    !c.notify || (dva x 8 && (match s.walk coil x with
      | .inl l => l.region = .str && l.target = .host
      | .inr _ => false))
  else if 0x80 ≤ off ∧ off < 0x100 then
    match c.reqs[(off - 0x80) / 16]? with
    | none => false
    | some r =>
      if off % 16 = 0 then !r.valid || (dva x (2 ^ (r.count + r.slot)) && s.cohRange coil x (2 ^ (r.count + r.slot)))
      else bits x 63 19 = 0 && bits x 14 13 = 0 && bits x 7 5 = 0 &&
        (!r.valid || (r.count ≤ 16 && 8 ≤ r.slot && r.slot ≤ 16 && (c.rsps[r.rsp]?).any (·.valid)))
  else if 0x100 ≤ off ∧ off < 0x180 then bits x 63 32 = 0
  else if 0x180 ≤ off ∧ off < 0x200 then
    match c.rsps[(off - 0x180) / 16]? with
    | none => false
    | some q =>
      if off % 16 = 0 then !q.valid || (dva x 256 && s.cohRange coil x (256 * 2 ^ q.num))
      else bits x 63 16 = 0 && bits x 14 5 = 0 && (!q.valid || (4 ≤ q.num && q.num ≤ 16))
  else if 0x200 ≤ off ∧ off < 0x280 then bits x 63 32 = 0
  else if 0x300 ≤ off ∧ off < 0x380 then
    match c.peers[(off - 0x300) / 16]? with
    | none => false
    | some e => if off % 16 = 0 then !e.valid || dva x 256 else bits x 63 16 = 0 && bits x 14 6 = 0 && !(e.valid && s.sealed coil)
  else if off = 0x380 then !c.mailbox.valid || (dva x (256 * 2 ^ c.mailbox.num) && s.cohRange coil x (256 * 2 ^ c.mailbox.num + 8))
  else if off = 0x388 then bits x 63 16 = 0 && bits x 14 5 = 0 && (!c.mailbox.valid || (4 ≤ c.mailbox.num && c.mailbox.num ≤ 16))
  else if 0x400 ≤ off ∧ off < 0x500 then true
  else x = 0

/-- The first word of the SCB that fails its check, as its byte offset / 8. -/
def State.scbFault (s : State) (coil scb : Nat) : Option Nat :=
  let w := fun (off : Nat) => s.svcWord coil (scb + off)
  (List.range 512).find? (fun i => !s.scbWordOk coil w (8 * i))

/-! ### Requests (Table 21.2, R710, R716) -/

/-- A request as it was read: CANCEL or GENERATE, whether it passes the checks that give BAD_PARAM. -/
structure HReq where
  cancel : Bool
  bad : Bool
  seq : HSeq
  deriving DecidableEq, Repr

/-- The request that words spell; `room` is the number of tokens that its slot can hold. -/
def hReq (c : HCfg) (room : Nat) (w : Nat → Nat) : HReq :=
  let n := bits (w 1) 63 32
  let token := fun (k : Nat) => let x := w (8 + k / 2); if k % 2 = 0 then x % 2 ^ 32 else x / 2 ^ 32
  let stops := [bits (w 6) 19 0, bits (w 6) 51 32, bits (w 7) 19 0, bits (w 7) 51 32]
  let temp := w 4 % 2 ^ 32
  let topP := w 4 / 2 ^ 32
  let isCancel := bits (w 1) 1 0 = 1
  let neg := fun (x : Nat) => FpVal.lt false (fp32.decode x) (.fin false 0 0)
  let badTemp := neg temp || bits temp 30 23 = 255
  let pv := fp32.decode topP
  let badP := pv.isNan || !FpVal.lt false (.fin false 0 0) pv || FpVal.lt false (.fin false 1 0) pv
  let reserved := bits (w 1) 31 5 ≠ 0 || bits (w 5) 63 20 ≠ 0 || bits (w 6) 31 20 ≠ 0 || bits (w 6) 63 52 ≠ 0 || bits (w 7) 31 20 ≠ 0 ||
    bits (w 7) 63 52 ≠ 0
  let long := decide (room < n)
  let prompt := if long then [] else (List.range n).map token
  { cancel := isCancel
    bad := if isCancel then decide (w 1 ≠ 1) || (List.range 6).any (fun i => w (2 + i) ≠ 0)
      else decide (2 ≤ bits (w 1) 1 0) || reserved || n = 0 || long || badTemp || badP || decide (c.vocab ≤ bits (w 5) 19 0 ∧ bits (w 5) 19 0 ≠ 0) ||
        stops.any (fun t => t ≠ 0xFFFFF && decide (c.vocab ≤ t)) || prompt.any (fun t => decide (c.vocab ≤ t))
    seq := { reqId := w 0, prio := bits (w 1) 3 2, stream := bit (w 1) 4, prompt := prompt, maxNew := w 2 % 2 ^ 32, deadline := w 2 / 2 ^ 32,
             seed := w 3, temp := temp, topP := topP, topK := bits (w 5) 19 0, stops := stops } }

/-! ### Sampling (R722) -/

def f32 (op : Rm → FpVal → FpVal → Nat × Nat) (a b : Nat) : Nat := (op .rne (fp32.decode a) (fp32.decode b)).1

/-- log2 e in FP32. -/
def log2e : Nat := 0x3FB8AA3B

/-- A value ranks before another: the higher value, the lower token on a tie. -/
def ranks (a b : Nat × Nat) : Bool :=
  let x := fp32.decode a.2
  let y := fp32.decode b.2
  FpVal.lt false y x || (!FpVal.lt false x y && decide (a.1 ≤ b.1))

/-- The prefix of a ranked list whose running sum reaches `p`. -/
def topPrefix (p : Nat) : Nat → List (Nat × Nat) → List (Nat × Nat)
  | _, [] => []
  | sum, e :: es =>
    let t := f32 fp32.add sum e.2
    if FpVal.lt false (fp32.decode t) (fp32.decode p) then e :: topPrefix p t es else [e]

/-- The first token whose running sum exceeds a bound. -/
def firstOver (bound : Nat) : Nat → List (Nat × Nat) → Option Nat
  | _, [] => none
  | sum, e :: es =>
    let t := f32 fp32.add sum e.2
    if FpVal.lt false (fp32.decode bound) (fp32.decode t) then some e.1 else firstOver bound t es

/-- The token chosen from a row of logits for the `n`-th generated token; `none` where the rule names no token (a row with no number in it). -/
def sampleToken (x : HSeq) (row : List Nat) (n : Nat) : Option Nat :=
  let all := row.zipIdx.map (fun e => (e.2, e.1))
  let best := all.foldl (fun (b : Option (Nat × Nat)) e => match b with
    | none => some e
    | some b => if ranks b e then some b else some e) none
  if x.temp % 2 ^ 31 = 0 then best.map (·.1)
  else
    let scaled := all.map (fun e => (e.1, f32 fp32.div e.2 x.temp))
    let kept := if x.topK = 0 then scaled else (sortBy ranks scaled).take x.topK
    let kept := sortBy (fun a b => decide (a.1 ≤ b.1)) kept
    let top := kept.foldl (fun (m : Option Nat) e => match m with
      | none => some e.2
      | some m => some (if FpVal.lt false (fp32.decode m) (fp32.decode e.2) then e.2 else m)) none
    let top := top.getD 0
    let power := kept.map (fun e =>
      let d := f32 fp32.add e.2 (top ^^^ 2 ^ 31)
      (e.1, (fp32.exp2 .rne (fp32.decode (f32 fp32.mul d log2e))).1))
    let sum := power.foldl (fun a e => f32 fp32.add a e.2) 0
    let probs := power.map (fun e => (e.1, f32 fp32.div e.2 sum))
    let chosen := if FpVal.lt false (fp32.decode x.topP) (.fin false 1 0) then
        (sortBy (fun a b => decide (a.1 ≤ b.1)) (topPrefix x.topP 0 (sortBy ranks probs)))
      else probs
    let total := chosen.foldl (fun a e => f32 fp32.add a e.2) 0
    let u := (fp32.round .rne .ieee false (srHash x.seed n 0xFFFF / 2 ^ 40) (-24)).1
    firstOver (f32 fp32.mul u total) 0 chosen

end Sys2Proof.Machine
end

