-- ==== Sys2Proof/Machine/Serving.lean ====
section
/-!
DEFINITION. The steps of the Halyard service (R716): settling, responses and their rings, cancellation, admission, key/value-cache paging,
shedding, forwarding over Bend, notification and recovery.
-/
namespace Sys2Proof.Machine

/-! ### The requests that Halyard knows -/

def Halyard.find (h : Halyard) (id : Nat) : Option HSeq := h.seqs.find? (fun x => x.id = id)

def State.updHal (s : State) (coil : Nat) (f : Halyard → Halyard) : State := s.setHal coil (f (s.hal coil))

def State.updSeq (s : State) (coil id : Nat) (f : HSeq → HSeq) : State :=
  s.updHal coil (fun h => { h with seqs := h.seqs.map (fun x => if x.id = id then f x else x) })

/-- The tokens of a sequence's context. -/
def HSeq.ctx (x : HSeq) : Nat := x.prompt.length + x.gen.length

/-- Only the newest token of a running sequence has no KV yet. -/
def HSeq.decoding (x : HSeq) : Bool := x.loc == .running && !x.gen.isEmpty && x.kv + 1 == x.ctx
def HSeq.prefilling (x : HSeq) : Bool := x.loc == .running && !x.decoding

def Halyard.waiting (h : Halyard) : List HSeq := h.seqs.filter (fun x => x.loc == .waiting)
def Halyard.running (h : Halyard) : List HSeq := h.seqs.filter (fun x => x.loc == .running)

/-- The order of PRIO, then of the place in a queue. -/
def byPrio (key : HSeq → Int) (l : List HSeq) : List HSeq :=
  sortBy (fun a b => decide (a.prio < b.prio ∨ (a.prio = b.prio ∧ key a ≤ key b))) l

/-! ### Messages to peers (Table 21.6, R727) -/

/-- A message block of one fragment. -/
def hMsg (kind : Nat) (last : Bool) (frag serial size status : Nat) (final : Bool) (count first data : Nat) : Nat :=
  1 + (16 + size) * 2 ^ 16 + (kind + b2n last * 2 ^ 8 + frag % 2 ^ 16 * 2 ^ 16 + serial * 2 ^ 32) * 2 ^ 128 +
    (size + status * 2 ^ 16 + b2n final * 2 ^ 20 + count * 2 ^ 24 + first * 2 ^ 32) * 2 ^ 192 + data * 2 ^ 256

/-- A message written to the next block of the window of PEER `i`; one that the coil may not write is lost. -/
def State.toPeer (s : State) (coil i msg : Nat) : State :=
  let h := s.hal coil
  match h.cfg.peers[i]? with
  | none => s
  | some p =>
    match s.svcAt coil (p.dva + 256 * (h.nextBlock % 16)) .write with
    | some (w, _) =>
      match placeOf w with
      | .splice b win off =>
        if (s.spliceDenies coil w .write).isSome || !s.bendUp b then s
        else
          let s : State := s.updHal coil (fun h => { h with nextBlock := h.nextBlock + 1 })
          let r : BendReq := { src := .cleat, op := .write, window := win, addr := off, size := 256, data := msg, mask := 2 ^ 256 - 1, coil := coil }
          s.toBend b r
      | _ => s
    | none => s

/-- The peers in round robin after the last one served. -/
def Halyard.peerTurn (h : Halyard) : Option Nat :=
  ((List.range 8).map (fun k => (h.nextPeer + k) % 8)).find? (fun i => (h.cfg.peers[i]?).any (·.valid))

/-- Words of 8 B, the first the lowest. -/
def wordsNat : List Nat → Nat
  | [] => 0
  | w :: ws => w + 2 ^ 64 * wordsNat ws

def tokensNat : List Nat → Nat
  | [] => 0
  | t :: ts => t + 2 ^ 32 * tokensNat ts

/-- The bytes of a request (Table 21.2) with another deadline. -/
def HSeq.image (x : HSeq) (deadline : Nat) : Nat :=
  let stop := fun (k : Nat) => x.stops[k]?.getD 0xFFFFF
  wordsNat [x.reqId, x.prio * 4 + b2n x.stream * 16 + x.prompt.length * 2 ^ 32, x.maxNew + deadline * 2 ^ 32, x.seed, x.temp + x.topP * 2 ^ 32,
    x.topK, stop 0 + stop 1 * 2 ^ 32, stop 2 + stop 3 * 2 ^ 32] + tokensNat x.prompt * 2 ^ 512

/-- A request goes to a peer in fragments of 224 B; its deadline is what is left of it (DEDUCED, log entry 88). -/
def State.forwardTo (s : State) (coil id i : Nat) : State :=
  let h := s.hal coil
  match h.find id with
  | none => s
  | some x =>
    let left := if x.deadline = 0 then 0 else max 1 (x.deadline - (s.clockUs - x.arrival))
    let serial := h.nextSerial
    let size := 64 + 4 * x.prompt.length
    let img := x.image left
    let n := ceilDiv size 224
    let s := s.updHal coil (fun h => { h with nextSerial := (serial + 1) % 2 ^ 32, nextPeer := (i + 1) % 8 })
    let s := s.updSeq coil id (fun x => { x with loc := .forwarded i serial })
    let s := (List.range n).foldl (fun (s : State) k =>
      let m := min 224 (size - 224 * k)
      s.toPeer coil i (hMsg 1 (k + 1 == n) k serial m 0 false 0 0 (img >>> (1792 * k) % 2 ^ (8 * m)))) s
    s.hCount coil hFwdOut 1

/-! ### Responses (R711, R717, Table 21.3) -/

/-- The 32 words of an entry. -/
def HEntry.words (e : HEntry) (reqId : Nat) (phase : Bool) : List Nat :=
  let tok := fun (k : Nat) => e.tokens[k]?.getD 0
  [reqId, b2n phase + b2n e.final * 2 + e.status * 4 + e.tokens.length * 2 ^ 8 + e.first * 2 ^ 32, e.queueUs % 2 ^ 32, 0] ++
    (List.range 28).map (fun k => tok (2 * k) + tok (2 * k + 1) * 2 ^ 32)

/-- Entries of response ring `q` that its consumer has not taken. -/
def State.rspFill (s : State) (coil q : Nat) : Nat :=
  let scb := (s.hal coil).scb
  (s.svcWord coil (scb + 0x240 + 8 * q) + 2 ^ 32 - s.svcWord coil (scb + 0x200 + 8 * q) % 2 ^ 32) % 2 ^ 32

/-- An entry written: a fragment for a request that a peer forwarded, else the next slot of its ring; `none` while the ring is full. -/
def State.putEntry (s : State) (coil : Nat) (x : HSeq) (e : HEntry) : Option State :=
  match x.peer with
  | some (i, serial) =>
    let s := s.toPeer coil i (hMsg 2 e.final x.frags serial (4 * e.tokens.length) e.status e.final e.tokens.length e.first (tokensNat e.tokens))
    some (s.updSeq coil x.id (fun x => { x with frags := x.frags + 1 }))
  | none =>
    let h := s.hal coil
    match h.cfg.rsps[x.ring]? with
    | none => none
    | some q =>
      if 2 ^ q.num ≤ s.rspFill coil x.ring then none
      else
        let wr := h.scb + 0x240 + 8 * x.ring
        let idx := s.svcWord coil wr % 2 ^ 32
        let slot := q.dva + 256 * (idx % 2 ^ q.num)
        let ws := e.words x.reqId (!bit idx q.num)
        let s := s.svcWords coil (slot + 16) (ws.drop 2)
        let s := s.svcWords coil slot (ws.take 2)
        let s := s.svcWrite coil wr 8 ((idx + 1) % 2 ^ 32)
        some (s.updHal coil (fun h => { h with written := insertNat x.ring h.written }))

/-- Entries written in order until one finds no room; those left, and the state. -/
def State.putAll (s : State) (coil id : Nat) : List HEntry → List HEntry × State
  | [] => ([], s)
  | e :: es =>
    match (s.hal coil).find id with
    | none => ([], s)
    | some x =>
      match s.putEntry coil x e with
      | none => (e :: es, s)
      | some s => s.putAll coil id es

/-- A request's waiting entries; it stalls while some wait, and leaves Halyard when it has ended and none waits. -/
def State.flushSeq (s : State) (coil id : Nat) : State :=
  match (s.hal coil).find id with
  | none => s
  | some x =>
    let r := s.putAll coil id x.backlog
    if r.1.isEmpty then
      if x.loc == .ended then r.2.updHal coil (fun h => { h with seqs := h.seqs.filter (fun x => x.id ≠ id) })
      else r.2.updSeq coil id (fun x => { x with backlog := [], stallAt := none })
    else r.2.updSeq coil id (fun x => { x with backlog := r.1, stallAt := some (x.stallAt.getD s.clockUs) })

/-- An entry queued behind a request's others, with the tokens that no entry carries yet. -/
def State.pushEntry (s : State) (coil id status : Nat) (final : Bool) : State :=
  s.updSeq coil id (fun x =>
    let toks := x.gen.drop x.sent
    let e : HEntry := { status := status, final := final, first := x.sent, queueUs := x.queueUs, tokens := toks }
    { x with backlog := x.backlog ++ [e], sent := x.sent + toks.length })

/-- A request ends: its final entry, its blocks free, its place in the rings and counters. -/
def State.endSeq (s : State) (coil id status : Nat) : State :=
  let s := s.pushEntry coil id status true
  let s := s.updSeq coil id (fun x => { x with loc := .ended, blocks := [] })
  let s := if status ≤ 3 then s.hCount coil hCompleted 1 else s
  s.flushSeq coil id

/-- SHED, with the event at the first after a second without one (R723). -/
def State.shedSeq (s : State) (coil id : Nat) : State :=
  let s := (s.hCount coil hShed 1).endSeq coil id 5
  let quiet := match (s.hal coil).lastShed with
    | none => true
    | some t => decide (1000000 < s.clockUs - t)
  let s := s.updHal coil (fun h => { h with lastShed := some s.clockUs })
  if quiet then s.hEvent coil .halyardShedding (s.svcWord coil ((s.hal coil).scb + 0x400 + 8 * hShed)) else s

/-- A request of this wafer is cancelled; a peer that serves it is told (DEDUCED, log entry 87). -/
def State.cancelSeq (s : State) (coil : Nat) (x : HSeq) : State :=
  let s := match x.loc with
    | .forwarded i serial => s.toPeer coil i (hMsg 3 true 0 serial 0 0 false 0 0 0)
    | _ => s
  (s.hCount coil hCancelled 1).endSeq coil x.id 4

/-! ### The key/value cache (R719, R720) -/

def HCfg.columns (c : HCfg) (len : Nat) : Nat := ceilDiv len c.blockTokens
def HCfg.need (c : HCfg) (len : Nat) : Nat := c.layerGroups * c.columns len
def HCfg.pool (c : HCfg) : Nat := 256 * c.kvFathoms

/-- The entries of a block table that a length needs and a sequence does not hold, block by block of each group. -/
def HCfg.missing (c : HCfg) (x : HSeq) (len : Nat) : List Nat :=
  ((List.range (c.columns len)).drop (x.blocks.length / c.layerGroups)).flatMap
    (fun j => (List.range c.layerGroups).map (fun g => g * c.columns c.maxContext + j))

def Halyard.used (h : Halyard) : List Nat := h.seqs.flatMap (fun x => x.blocks.map (·.2))

/-- The blocks that a sequence of a length lacks, allocated from the lowest free ones (DEDUCED, log entry 86). -/
def State.allocBlocks (s : State) (coil id len : Nat) : Option State :=
  let h := s.hal coil
  match h.find id with
  | none => none
  | some x =>
    let want := h.cfg.missing x len
    let used := h.used
    if h.cfg.pool < used.length + want.length then none
    else
      let free := ((List.range (used.length + want.length)).filter (fun b => !used.contains b)).take want.length
      some (s.updSeq coil id (fun x => { x with blocks := x.blocks ++ want.zip free }))

/-- A sequence frees its blocks and returns to the front of the waiting queue within its priority. -/
def State.requeue (s : State) (coil id : Nat) : State :=
  let front := (s.hal coil).seqs.foldl (fun m x => min m x.ord) 0 - 1
  s.updSeq coil id (fun x => { x with loc := .waiting, kv := 0, blocks := [], ord := front })

/-- The running sequence of the lowest priority, and among these the latest admitted, other than `id`. -/
def Halyard.victim (h : Halyard) (id : Nat) : Option HSeq :=
  (h.running.filter (fun x => x.id ≠ id)).foldl (fun best x => match best with
    | none => some x
    | some b => if b.prio < x.prio ∨ (b.prio = x.prio ∧ b.adm < x.adm) then some x else some b) none

/-- Blocks for a sequence, with pre-emption until they fit; one that does not fit alone ends with CONTEXT. -/
def State.fitSeq (s : State) (coil id len : Nat) : Nat → State
  | 0 => s
  | fuel + 1 =>
    match s.allocBlocks coil id len with
    | some s => s
    | none =>
      match (s.hal coil).victim id with
      | none => s.endSeq coil id 3
      | some v =>
        let s := (s.requeue coil v.id).hCount coil hPreempts 1
        (s.hEvent coil .halyardKvPreempt v.reqId).fitSeq coil id len fuel

/-! ### Settle (R716 step 1, R717, R722) -/

/-- A token joins a sequence: its entry where one is due, its end where it ends. -/
def State.addToken (s : State) (coil id token : Nat) : State :=
  match (s.hal coil).find id with
  | none => s
  | some x =>
    let c := (s.hal coil).cfg
    let x := { x with gen := x.gen ++ [token], queueUs := if x.gen.isEmpty then s.clockUs - x.arrival else x.queueUs }
    let s := s.updSeq coil id (fun _ => x)
    if token = c.eos ∨ x.stops.contains token then s.endSeq coil id 1
    else if x.maxNew ≤ x.gen.length then s.endSeq coil id 2
    else if c.maxContext ≤ x.ctx then s.endSeq coil id 3
    else if x.stream || decide (56 ≤ x.gen.length - x.sent) then s.pushEntry coil id 0 false
    else s

/-- The token of a logits row; the rule names none for a row without a number, or that the task did not write. -/
def State.sampleRow (s : State) (coil id : Nat) (row : Option (List Nat)) : State :=
  match (s.hal coil).find id with
  | none => s
  | some x =>
    let vocab := (s.hal coil).cfg.vocab
    match row.bind (fun r => if r.length = vocab then sampleToken x r x.gen.length else none) with
    | some t => s.addToken coil id t
    | none =>
      let r := s.freshWord
      r.2.addToken coil id (r.1.toNat % vocab)

/-- The sequences of a model task. -/
def HWork.ids : HWork → List Nat
  | .prefill id _ _ => [id]
  | .decode ids => ids

/-- One model task's work is collected. -/
def State.settleWork (s : State) (coil : Nat) (w : HWork) (e : ModelEnd) : State :=
  match e.fault with
  | some code => (w.ids.foldl (fun s id => s.endSeq coil id 8) s).hEvent coil .halyardModelFault code
  | none =>
    match w with
    | .prefill id n row =>
      let s := s.updSeq coil id (fun x => { x with kv := x.kv + n })
      if row then s.sampleRow coil id e.rows.head?
      else match (s.hal coil).find id with
        | some x => if x.maxNew = 0 ∧ x.kv = x.ctx then s.endSeq coil id 2 else s
        | none => s
    | .decode ids => (ids.zipIdx).foldl (fun (s : State) (p : Nat × Nat) =>
        (s.updSeq coil p.1 (fun x => { x with kv := x.kv + 1 })).sampleRow coil p.1 e.rows[p.2]?) s

/-- Entries that waited are written; a request that has waited for STALL_MS ends with RESP_STALL. -/
def State.flushAll (s : State) (coil : Nat) : State :=
  let s := ((s.hal coil).seqs.map (·.id)).foldl (fun s id => s.flushSeq coil id) s
  ((s.hal coil).seqs).foldl (fun (s : State) x => match x.stallAt with
    | some t => if x.loc == .running && decide ((s.hal coil).cfg.stallMs * 1000 ≤ s.clockUs - t) then s.endSeq coil x.id 10 else s
    | none => s) s

/-! ### Read (R710, R712, R716 step 2, R718, R724) -/

/-- A request ring has requests that may be read. -/
def State.reqFill (s : State) (coil r : Nat) : Nat :=
  let scb := (s.hal coil).scb
  (s.svcWord coil (scb + 0x100 + 8 * r) % 2 ^ 32 + 2 ^ 32 - s.svcWord coil (scb + 0x140 + 8 * r) % 2 ^ 32) % 2 ^ 32
def State.readable (s : State) (coil r : Nat) : Bool :=
  ((s.hal coil).cfg.reqs[r]?).any (fun q => q.valid && decide (0 < s.reqFill coil r) && decide (s.reqFill coil r ≤ 2 ^ q.count))

/-- Tails that break R712 are counted, each once. -/
def State.countBad (s : State) (coil : Nat) : State :=
  (List.range 8).foldl (fun (s : State) r =>
    let h := s.hal coil
    let tail := s.svcWord coil (h.scb + 0x100 + 8 * r) % 2 ^ 32
    if (h.cfg.reqs[r]?).any (fun q => q.valid && decide (2 ^ q.count < s.reqFill coil r)) && SMap.get 0 h.badTails r != tail + 1 then
      (s.updHal coil (fun h => { h with badTails := SMap.set 0 h.badTails r (tail + 1) })).hCount coil hRejected 1
    else s) s

/-- Up to `n` requests, from the rings in round robin. -/
def State.readRings (s : State) (coil : Nat) : Nat → List HReq × State
  | 0 => ([], s)
  | n + 1 =>
    let h := s.hal coil
    match ((List.range 8).map (fun k => (h.nextRing + k) % 8)).find? (fun r => s.readable coil r) with
    | none => ([], s)
    | some r =>
      let q := (h.cfg.reqs[r]?).getD {}
      let head := s.svcWord coil (h.scb + 0x140 + 8 * r) % 2 ^ 32
      let slot := q.base + 2 ^ q.slot * (head % 2 ^ q.count)
      let x := hReq h.cfg ((2 ^ q.slot - 64) / 4) (fun i => s.svcWord coil (slot + 8 * i))
      let s := s.svcWrite coil (h.scb + 0x140 + 8 * r) 8 ((head + 1) % 2 ^ 32)
      let rest := (s.updHal coil (fun h => { h with nextRing := (r + 1) % 8 })).readRings coil n
      ({ x with seq := { x.seq with ring := q.rsp, arrival := s.clockUs } } :: rest.1, rest.2)

/-- A request that was read becomes one that Halyard knows, under a number of its own. -/
def State.addSeq (s : State) (coil : Nat) (x : HSeq) : Nat × State :=
  let h := s.hal coil
  (h.nextId, s.setHal coil { h with seqs := h.seqs ++ [{ x with id := h.nextId, ord := h.nextOrd }], nextId := h.nextId + 1, nextOrd := h.nextOrd + 1 })

/-- Forwarding applies: a threshold is set and a peer is valid. -/
def Halyard.forwards (h : Halyard) : Option Nat := if h.cfg.fwdThreshold = 0 then none else h.peerTurn

/-- The checks of a GENERATE request and its admission to the waiting queue. -/
def State.hAdmit (s : State) (coil : Nat) (x : HReq) : State :=
  let h := s.hal coil
  let c := h.cfg
  let full := decide (c.queueMax ≤ h.waiting.length)
  let r := s.addSeq coil x.seq
  let id := r.1
  let s := r.2
  if h.state = 3 then s.shedSeq coil id
  else if x.bad then s.endSeq coil id 6
  else if c.maxContext < x.seq.prompt.length + x.seq.maxNew ∨ c.pool < c.need (x.seq.prompt.length + 1) then s.endSeq coil id 7
  else if full then
    match (if x.seq.peer.isSome then none else h.forwards) with
    | some i => s.forwardTo coil id i
    | none => s.shedSeq coil id
  else
    let s := s.hCount coil hAdmitted 1
    let h := s.hal coil
    match (if c.fwdThreshold ≤ h.waiting.length then h.forwards else none) with
    | none => s
    | some i =>
      match (h.waiting.filter (fun z => z.peer.isNone && !z.started)).foldl (fun (b : Option HSeq) z => match b with
          | none => some z
          | some b => if b.ord < z.ord then some z else some b) none with
      | some z => s.forwardTo coil z.id i
      | none => s

/-- The requests of one read: cancellations first, those of the same read among them. -/
def State.takeReqs (s : State) (coil : Nat) (l : List HReq) : State :=
  let named := (l.filter (fun x => x.cancel && !x.bad)).map (·.seq.reqId)
  let s := ((s.hal coil).seqs.filter (fun x => x.peer.isNone && x.loc != .ended && named.contains x.reqId)).foldl (fun s x => s.cancelSeq coil x) s
  l.foldl (fun (s : State) x =>
    if x.cancel && !x.bad then s
    else if !x.cancel && named.contains x.seq.reqId then
      let r := s.addSeq coil x.seq
      (r.2.hCount coil hCancelled 1).endSeq coil r.1 4
    else s.hAdmit coil x) s

/-! ### The mailbox (R692, R727) -/

/-- A message from the wafer of PEER `i`. -/
def State.fromPeer (s : State) (coil i wafer : Nat) (w : Nat → Nat) : State :=
  let kind := bits (w 2) 7 0
  let last := bit (w 2) 8
  let frag := bits (w 2) 31 16
  let serial := bits (w 2) 63 32
  let size := min 224 (bits (w 3) 15 0)
  let h := s.hal coil
  if kind = 1 then
    let data := wordsNat ((List.range 28).map (fun k => w (4 + k))) % 2 ^ (8 * size)
    let old := (h.frags.find? (fun f => f.wafer = wafer && f.serial = serial)).getD { wafer := wafer, serial := serial, next := 0, size := 0, data := 0 }
    if frag ≠ old.next then s
    else
      let now : HFrag := { old with next := frag + 1, size := old.size + size, data := old.data + data * 2 ^ (8 * old.size) }
      let rest := h.frags.filter (fun f => !(f.wafer = wafer && f.serial = serial))
      if last then
        let x := hReq h.cfg ((now.size - 64) / 4) (fun k => now.data >>> (64 * k) % 2 ^ 64)
        let s := (s.setHal coil { h with frags := rest }).hCount coil hFwdIn 1
        s.hAdmit coil { x with bad := x.bad || x.cancel || decide (now.size < 64), seq := { x.seq with peer := some (i, serial), arrival := s.clockUs } }
      else s.setHal coil { h with frags := rest ++ [now] }
  else if kind = 2 then
    let count := bits (w 3) 31 24
    match h.seqs.find? (fun x => x.loc == .forwarded i serial) with
    | some x =>
      if 56 < count then s
      else
        let tok := fun (k : Nat) => let v := w (4 + k / 2); if k % 2 = 0 then bits v 19 0 else bits v 51 32
        let toks := (List.range count).map tok
        let final := bit (w 3) 20
        let status := bits (w 3) 19 16
        let us := if x.queueUs = 0 ∧ count ≠ 0 then s.clockUs - x.arrival else x.queueUs
        let e : HEntry := { status := status, final := final, first := bits (w 3) 63 32, queueUs := us, tokens := toks }
        let s := s.updSeq coil x.id (fun x => { x with queueUs := us, backlog := x.backlog ++ [e], gen := x.gen ++ toks, sent := x.sent + count,
                                                       loc := if final then .ended else x.loc })
        let s := if final && decide (1 ≤ status) && decide (status ≤ 3) then s.hCount coil hCompleted 1 else s
        s.flushSeq coil x.id
    | none => s
  else if kind = 3 then
    let s := s.setHal coil { h with frags := h.frags.filter (fun f => !(f.wafer = wafer && f.serial = serial)) }
    match h.seqs.find? (fun x => x.peer == some (i, serial) && x.loc != .ended) with
    | some x => s.cancelSeq coil x
    | none => s
  else s

/-- The messages present in the mailbox ring are consumed. -/
def State.readMail (s : State) (coil : Nat) : Nat → State
  | 0 => s
  | fuel + 1 =>
    let h := s.hal coil
    let m := h.cfg.mailbox
    let slot := m.dva + 256 * (h.mailHead % 2 ^ m.num)
    let w := fun (k : Nat) => s.svcWord coil (slot + 8 * k)
    if !m.valid || bit (w 0) 32 == bit h.mailHead m.num then s
    else
      let wafer := bits (w 0) 38 33
      let from? := (List.range 8).find? (fun i => (h.cfg.peers[i]?).any (fun p => p.valid && p.num = wafer))
      let s' := match from? with
        | some i => if bits (w 0) 15 0 = 1 then s.fromPeer coil i wafer w else s
        | none => s
      let head := (h.mailHead + 1) % 2 ^ 32
      let s' := s'.updHal coil (fun h => { h with mailHead := head })
      (s'.svcWrite coil (m.dva + 256 * 2 ^ m.num) 8 head).readMail coil fuel

/-! ### The decode and prefill sets, and the launch (R716 steps 3 to 5, R725) -/

/-- Waiting requests past their deadline whose prefill has not started. -/
def State.shedLate (s : State) (coil : Nat) : State :=
  ((s.hal coil).waiting.filter (fun x => x.deadline ≠ 0 && !x.started && decide (x.arrival + x.deadline < s.clockUs))).foldl
    (fun s x => s.shedSeq coil x.id) s

/-- The decode set, each sequence with the block that its token needs. -/
def State.decodeSet (s : State) (coil : Nat) : List Nat × State :=
  let c := (s.hal coil).cfg
  let cand := (byPrio (fun x => x.adm) ((s.hal coil).running.filter (fun x => x.decoding && x.stallAt.isNone))).take c.maxBatch
  let s := cand.foldl (fun (s : State) x =>
    match (s.hal coil).find x.id with
    | some y => if y.decoding then s.fitSeq coil y.id (y.kv + 1) (s.hal coil).seqs.length.succ else s
    | none => s) s
  ((cand.map (·.id)).filter (fun id => ((s.hal coil).find id).any (·.decoding)), s)

/-- A chunk of a sequence that has its blocks. -/
def HSeq.chunk (x : HSeq) (n : Nat) : HWork := .prefill x.id n (x.kv + n == x.ctx && x.maxNew != 0)

/-- The chunks of the partly prefilled sequences; where a step would have no work, the first of them pre-empts others. -/
def State.prefillPartly (s : State) (coil : Nat) (idle : Bool) : Nat → List HSeq → List HWork × Nat × State
  | budget, [] => ([], budget, s)
  | budget, x :: xs =>
    let n := min (x.ctx - x.kv) (min (s.hal coil).cfg.prefillChunk budget)
    if n = 0 ∨ !((s.hal coil).find x.id).any (·.prefilling) then s.prefillPartly coil idle budget xs
    else
      let got := match s.allocBlocks coil x.id (x.kv + n) with
        | some t => some t
        | none => if idle then some (s.fitSeq coil x.id (x.kv + n) (s.hal coil).seqs.length.succ) else none
      match got with
      | none => s.prefillPartly coil idle budget xs
      | some t =>
        if ((t.hal coil).find x.id).any (·.prefilling) then
          let r := t.prefillPartly coil false (budget - n) xs
          (x.chunk n :: r.1, r.2)
        else t.prefillPartly coil idle budget xs

/-- The first chunks of waiting requests, while the running count and the free blocks allow. -/
def State.prefillWaiting (s : State) (coil : Nat) : Nat → List HSeq → List HWork × State
  | _, [] => ([], s)
  | budget, x :: xs =>
    let h := s.hal coil
    let n := min x.ctx (min h.cfg.prefillChunk budget)
    if n = 0 ∨ h.cfg.maxBatch ≤ h.running.length then ([], s)
    else match s.allocBlocks coil x.id n with
    | none => ([], s)
    | some t =>
      let t := t.updSeq coil x.id (fun x => { x with loc := .running, started := true, adm := h.nextAdm })
      let r := (t.updHal coil (fun h => { h with nextAdm := h.nextAdm + 1 })).prefillWaiting coil (budget - n) xs
      (x.chunk n :: r.1, r.2)

/-- A list in groups of `n`. -/
def groupsOf (n : Nat) : Nat → List Nat → List (List Nat)
  | 0, _ => []
  | fuel + 1, l => if l.isEmpty then [] else l.take n :: groupsOf n fuel (l.drop n)

/-- The ply channel of notify, in the first ply that the coil owns. -/
def State.notifyChannel (s : State) (coil : Nat) : Option Nat :=
  ((List.range 384).find? (fun y => s.plyCoil y = some coil)).map (fun y => 32 * y + (s.hal coil).cfg.notifyCh)

/-- One FILL descriptor for each ring written in the step, published through the tail word; a full descriptor ring takes none (DEDUCED, log entry 89). -/
def State.notify (s : State) (coil : Nat) : State :=
  let h := s.hal coil
  let s := s.setHal coil { h with written := [] }
  match (if h.cfg.notify then s.notifyChannel coil else none) with
  | none => s
  | some ch =>
    h.written.foldl (fun (s : State) q =>
      let word := s.fld .TK_CH_WATCH_ADDR ch * 8
      let tail := s.svcWord coil word % 2 ^ 32
      if !s.flag .TK_CH_CTL_WATCH ch ∨ s.tailBeyond ch ((tail + 1) % 2 ^ 32) then s
      else
        let pattern := q + s.svcWord coil (h.scb + 0x240 + 8 * q) % 2 ^ 32 * 2 ^ 32
        let s := s.svcWords coil (s.slotDva ch tail) [pattern, h.cfg.notifyAddr, 8 + 2 ^ 32, 0, 1, 0, 0, 0]
        let s := s.svcWrite coil word 8 ((tail + 1) % 2 ^ 32)
        s.updHal coil (fun h => { h with notes := h.notes ++ [tail] })) s

/-- Notify descriptors that have ended; NOTIFY_BAD counts those that ended BAD. -/
def State.checkNotes (s : State) (coil : Nat) : State :=
  match s.notifyChannel coil with
  | none => s
  | some ch =>
    (s.hal coil).notes.foldl (fun (s : State) t =>
      let st := s.svcWord coil (s.slotDva ch t + 0x30)
      if bits st 63 32 ≠ t ∨ bits st 3 0 = 0 then s
      else
        let s := s.updHal coil (fun h => { h with notes := h.notes.filter (· ≠ t) })
        if bits st 3 0 = 2 then s.hCount coil hNotifyBad 1 else s) s

/-- The fields of the status area that follow from the state, and the mark of the internal completion ring (R705). -/
def State.hStatus (s : State) (coil : Nat) : State :=
  let h := s.hal coil
  let i := 64 * coil + h.cfg.cring
  let fill := (s.fld .CP_CRING_PTR_WRITE i + 2 ^ 32 - s.fld .CP_CRING_PTR_HEAD i) % 2 ^ 32
  let s := s.hStat coil hRunning h.running.length
  let s := s.hStat coil hWaiting h.waiting.length
  let s := s.hStat coil hKvFree (h.cfg.pool - h.used.length)
  let s := s.hStat coil hCringFill fill
  let s := s.setHal coil { h with cringHigh := decide (49152 < fill) }
  if 49152 < fill ∧ !h.cringHigh then s.hEvent coil .halyardCringHigh fill else s

/-- A drained instance that has nothing left stops (R709). -/
def State.hStopped (s : State) (coil : Nat) : State :=
  let h := s.hal coil
  if h.state = 3 ∧ h.seqs.isEmpty ∧ h.work.isEmpty then
    let s := (s.hState coil 0 0).hEvent coil .halyardStopped 0
    { s with halyards := SMap.erase s.halyards coil }
  else s

/-- The phases of a step after Settle. -/
def State.hRun (s : State) (coil : Nat) : State :=
  let s := (s.flushAll coil).checkNotes coil
  let s := s.countBad coil
  let r := s.readRings coil 64
  let s := r.2.takeReqs coil r.1
  let s := s.readMail coil (2 ^ (s.hal coil).cfg.mailbox.num)
  let s := s.shedLate coil
  let d := s.decodeSet coil
  let s := d.2
  let h := s.hal coil
  let budget := h.cfg.tokenBudget - d.1.length
  let p := s.prefillPartly coil d.1.isEmpty budget (byPrio (·.ord) (h.running.filter (·.prefilling)))
  let s := p.2.2
  let w := s.prefillWaiting coil p.2.1 (byPrio (·.ord) (s.hal coil).waiting)
  let s := w.2
  let ids := d.1.filter (fun id => ((s.hal coil).find id).any (·.decoding))
  let chunks := p.1.filter (fun c => c.ids.all (fun id => ((s.hal coil).find id).any (·.prefilling)))
  let work := chunks ++ w.1 ++ (groupsOf h.cfg.group ids.length ids).map HWork.decode
  let s := s.updHal coil (fun h => { h with work := work })
  let s := if work.isEmpty then s else s.hCount coil hSteps 1
  ((s.notify coil).hStatus coil).hStopped coil

/-! ### The commands -/

/-- A service instance runs in the coil. -/
def State.serves (s : State) (coil : Nat) : Bool := (s.hal coil).state = 2 || (s.hal coil).state = 3

/-- The start ticket of the service skein runs on core `c` (R708). -/
def execHalyardStart (c : Nat) (s : State) := commit s (fun s =>
  match (s.core c).task with
  | none => s
  | some t =>
    let k := s.task t
    let coil := k.coil
    let scb := k.ticket.args.head?.getD 0
    let st := bits (s.svcWord coil (scb + 0x10)) 3 0
    if !(s.core c).running ∨ k.ticket.template ≠ 0 ∨ s.serves coil ∨ (st ≠ 0 ∧ st ≠ 4) then s
    else match s.scbFault coil scb with
    | some i =>
      let s := (s.setHal coil { scb := scb, taskId := k.ticket.taskId }).hState coil 4 i
      let s := s.hEvent coil .halyardConfigError i
      { s with halyards := SMap.erase s.halyards coil }
    | none =>
      let cfg := hCfg (fun off => s.svcWord coil (scb + off))
      let m := cfg.mailbox
      let head := if m.valid then s.svcWord coil (m.dva + 256 * 2 ^ m.num) % 2 ^ 32 else 0
      let s := (s.setHal coil { scb := scb, taskId := k.ticket.taskId, cfg := cfg, mailHead := head }).hState coil 2 0
      (s.hEvent coil .halyardStarted scb).hRun coil)

/-- STOP is set; an instance with nothing to serve stops at once. -/
def execHalyardStop (coil : Nat) (s : State) := commit s (fun s =>
  if (s.hal coil).state ≠ 2 then s
  else
    let scb := (s.hal coil).scb
    let s := s.svcWrite coil (scb + 8) 8 (s.svcWord coil (scb + 8) ||| 1)
    (s.hState coil 3 0).hStopped coil)

/-- A producer writes REQ_TAIL of request ring `r`; an idle instance wakes and begins a step (R712, R713). -/
def execRequestSubmit (coil r tail : Nat) (s : State) := commit s (fun s =>
  let h := s.hal coil
  if !s.serves coil ∨ 8 ≤ r then s
  else
    let s := s.svcWrite coil (h.scb + 0x100 + 8 * r) 8 (tail % 2 ^ 32)
    if h.work.isEmpty && h.waiting.isEmpty && h.running.isEmpty then s.hRun coil else s)

/-- The model work of the last step has ended as `ends` says, and the next step runs (R716) (DEDUCED, log entry 85). -/
def execHalyardStep (coil : Nat) (ends : List ModelEnd) (s : State) := commit s (fun s =>
  let work := (s.hal coil).work
  if !s.serves coil ∨ ends.length ≠ work.length then s
  else
    let s := s.updHal coil (fun h => { h with work := [] })
    ((work.zip ends).foldl (fun s e => s.settleWork coil e.1 e.2) s).hRun coil)

/-- A Halyard task was lost or faulted: the sequences of the lost step are resumed by recomputation (R729). -/
def execHalyardRecovery (coil : Nat) (s : State) := commit s (fun s =>
  if !s.serves coil then s
  else
    let ids := ((s.hal coil).work.flatMap HWork.ids).filter (fun id => ((s.hal coil).find id).any (fun x => x.loc == .running))
    let s := s.updHal coil (fun h => { h with work := [] })
    let s := ids.reverse.foldl (fun s id => s.requeue coil id) s
    ((s.hCount coil hRecoveries 1).hEvent coil .halyardRecovered ids.length).hRun coil)

/-- No RESP_FRAG came for 100 ms: the origin ends the request (R727). -/
def execForwardTimeout (coil serial : Nat) (s : State) := commit s (fun s =>
  match (s.hal coil).seqs.find? (fun x => match x.loc with
      | .forwarded _ n => n == serial
      | _ => false) with
  | some x =>
    match x.loc with
    | .forwarded i _ =>
      let s := (s.hCount coil hFwdLost 1).endSeq coil x.id 9
      let s := s.toPeer coil i (hMsg 3 true 0 serial 0 0 false 0 0 0)
      (s.hEvent coil .halyardFwdLost i).hStopped coil
    | _ => s
  | none => s)

/-- A request that could not be assembled in 100 ms is discarded (R727). -/
def execFragmentTimeout (coil wafer serial : Nat) (s : State) := commit s (fun s =>
  s.updHal coil (fun h => { h with frags := h.frags.filter (fun f => !(f.wafer = wafer && f.serial = serial)) }))

end Sys2Proof.Machine
end

