-- ==== Sys2Proof/Machine/Dispatch.lean ====
section
/-!
DEFINITION. Every command gets its meaning here: one arm per constructor of `Instr`.
-/
namespace Sys2Proof.Machine

/-- What a command does to everything but the queue. -/
def exec (i : Instr) (s : State) : Host.Outcome State Fault Refusal :=
  match i with
  | .alwaysOnStart => Sys2Proof.Machine.execAlwaysOnStart s
  | .aoEnFall => Sys2Proof.Machine.execAoEnFall s
  | .wakeStepEnd o => Sys2Proof.Machine.execWakeStepEnd o s
  | .perstNAssert p => Sys2Proof.Machine.execPerstNAssert p s
  | .perstNDeassert p => Sys2Proof.Machine.execPerstNDeassert p s
  | .hitchReady p => Sys2Proof.Machine.execHitchReady p s
  | .linkTrained p o => Sys2Proof.Machine.execLinkTrained p o s
  | .hotReset p => Sys2Proof.Machine.execHotReset p s
  | .surpriseDown p => Sys2Proof.Machine.execSurpriseDown p s
  | .l0pWidthChange p width => Sys2Proof.Machine.execL0pWidthChange p width s
  | .l1Entry p enter => Sys2Proof.Machine.execL1Entry p enter s
  | .configRequest p fn r => Sys2Proof.Machine.execConfigRequest p fn r s
  | .setD3hot p => Sys2Proof.Machine.execSetD3hot p s
  | .d3hotWritebackDone p => Sys2Proof.Machine.execD3hotWritebackDone p s
  | .returnToD0 p => Sys2Proof.Machine.execReturnToD0 p s
  | .pmeStatusClear p => Sys2Proof.Machine.execPmeStatusClear p s
  | .initiateFlr p fn => Sys2Proof.Machine.execInitiateFlr p fn s
  | .flrStepEnd p fn => Sys2Proof.Machine.execFlrStepEnd p fn s
  | .initiateCacheWriteback p => Sys2Proof.Machine.execInitiateCacheWriteback p s
  | .cxlIoCompletion p tag data poison => Sys2Proof.Machine.execCxlIoCompletion p tag data poison s
  | .completionTimeout p tag => Sys2Proof.Machine.execCompletionTimeout p tag s
  | .d2hTimeout p id => Sys2Proof.Machine.execD2hTimeout p id s
  | .hostPortError p e k => Sys2Proof.Machine.execHostPortError p e k s
  | .portHoldDone p => Sys2Proof.Machine.execPortHoldDone p s
  | .holdRelease p key go => Sys2Proof.Machine.execHoldRelease p key go s
  | .ideRequire p io cxl => Sys2Proof.Machine.execIdeRequire p io cxl s
  | .vfBind p n coil => Sys2Proof.Machine.execVfBind p n coil s
  | .vfUnbind p n => Sys2Proof.Machine.execVfUnbind p n s
  | .tkOwnerWrite p j func coil valid => Sys2Proof.Machine.execTkOwnerWrite p j func coil valid s
  | .hdmAccess p dpa r => Sys2Proof.Machine.execHdmAccess p dpa r s
  | .query p => Sys2Proof.Machine.execQuery p s
  | .keyProg p stream sub dir set => Sys2Proof.Machine.execKeyProg p stream sub dir set s
  | .kSetGo p stream sub dir set => Sys2Proof.Machine.execKSetGo p stream sub dir set s
  | .kSetStop p stream sub dir set => Sys2Proof.Machine.execKSetStop p stream sub dir set s
  | .cxlQuery p => Sys2Proof.Machine.execCxlQuery p s
  | .cxlKeyProg p dir set => Sys2Proof.Machine.execCxlKeyProg p dir set s
  | .cxlKSetGo p dir set => Sys2Proof.Machine.execCxlKSetGo p dir set s
  | .cxlKSetStop p dir set => Sys2Proof.Machine.execCxlKSetStop p dir set s
  | .cxlGetkey p dir set => Sys2Proof.Machine.execCxlGetkey p dir set s
  | .flitCrcFail k q again => Sys2Proof.Machine.execFlitCrcFail k q again s
  | .netLinkDown k q => Sys2Proof.Machine.execNetLinkDown k q s
  | .routeTablesLoaded => Sys2Proof.Machine.execRouteTablesLoaded s
  | .netQuiet => Sys2Proof.Machine.execNetQuiet s
  | .fenceNotice k u => Sys2Proof.Machine.execFenceNotice k u s
  | .clearingNotice k u => Sys2Proof.Machine.execClearingNotice k u s
  | .netTimeout k src => Sys2Proof.Machine.execNetTimeout k src s
  | .escapeWait k src => Sys2Proof.Machine.execEscapeWait k src s
  | .ageIncrement k src => Sys2Proof.Machine.execAgeIncrement k src s
  | .vaultRequest v off r => Sys2Proof.Machine.execVaultRequest v off r s
  | .vaultControllerFault v => Sys2Proof.Machine.execVaultControllerFault v s
  | .vaultAssign p v coil => Sys2Proof.Machine.execVaultAssign p v coil s
  | .vaultRelease p v => Sys2Proof.Machine.execVaultRelease p v s
  | .vaultClearDone v => Sys2Proof.Machine.execVaultClearDone v s
  | .patrolScrub v off c endOfPass => Sys2Proof.Machine.execPatrolScrub v off c endOfPass s
  | .spareRowCopyDone v row => Sys2Proof.Machine.execSpareRowCopyDone v row s
  | .keyGenerate p coil => Sys2Proof.Machine.execKeyGenerate p coil s
  | .keyClear p coil => Sys2Proof.Machine.execKeyClear p coil s
  | .stripeActivate p coil => Sys2Proof.Machine.execStripeActivate p coil s
  | .stripeDeactivate p coil => Sys2Proof.Machine.execStripeDeactivate p coil s
  | .hdmMapWrite p f fathom coil valid => Sys2Proof.Machine.execHdmMapWrite p f fathom coil valid s
  | .reservationWrite p coil gbps => Sys2Proof.Machine.execReservationWrite p coil gbps s
  | .sliceBoundary => Sys2Proof.Machine.execSliceBoundary s
  | .translationMiss c => Sys2Proof.Machine.execTranslationMiss c s
  | .walkEntryRead k w => Sys2Proof.Machine.execWalkEntryRead k w s
  | .walkerFault k w => Sys2Proof.Machine.execWalkerFault k w s
  | .invRange p coil base count => Sys2Proof.Machine.execInvRange p coil base count s
  | .invAll p coil => Sys2Proof.Machine.execInvAll p coil s
  | .invalidationDone coil => Sys2Proof.Machine.execInvalidationDone coil s
  | .contextEnable p coil => Sys2Proof.Machine.execContextEnable p coil s
  | .contextDisable p coil => Sys2Proof.Machine.execContextDisable p coil s
  | .ctxTableWrite p coil isRoot base count => Sys2Proof.Machine.execCtxTableWrite p coil isRoot base count s
  | .shareGrant p g owner grantee perm => Sys2Proof.Machine.execShareGrant p g owner grantee perm s
  | .shareRevoke p g => Sys2Proof.Machine.execShareRevoke p g s
  | .shareRevokeDrained g => Sys2Proof.Machine.execShareRevokeDrained g s
  | .l1iFill c => Sys2Proof.Machine.execL1iFill c s
  | .l1dFillPiece c line q => Sys2Proof.Machine.execL1dFillPiece c line q s
  | .mbDrainTimeout c line => Sys2Proof.Machine.execMbDrainTimeout c line s
  | .mbDrainAck c line => Sys2Proof.Machine.execMbDrainAck c line s
  | .ntDrainTimeout c block => Sys2Proof.Machine.execNtDrainTimeout c block s
  | .ntDrainAck c block => Sys2Proof.Machine.execNtDrainAck c block s
  | .plyCacheTagUe y => Sys2Proof.Machine.execPlyCacheTagUe y s
  | .carve p y ways => Sys2Proof.Machine.execCarve p y ways s
  | .carveDone y => Sys2Proof.Machine.execCarveDone y s
  | .cleanWay p y way set => Sys2Proof.Machine.execCleanWay p y way set s
  | .invWay p y way set => Sys2Proof.Machine.execInvWay p y way set s
  | .cleanInvWay p y way set => Sys2Proof.Machine.execCleanInvWay p y way set s
  | .cleanInvAll p y => Sys2Proof.Machine.execCleanInvAll p y s
  | .maintDone y who => Sys2Proof.Machine.execMaintDone y who s
  | .brd y line streaming => Sys2Proof.Machine.execBrd y line streaming s
  | .brds y line => Sys2Proof.Machine.execBrds y line s
  | .brdx y line => Sys2Proof.Machine.execBrdx y line s
  | .bown y line full => Sys2Proof.Machine.execBown y line full s
  | .bwb y line => Sys2Proof.Machine.execBwb y line s
  | .bevc y line => Sys2Proof.Machine.execBevc y line s
  | .bcln y line => Sys2Proof.Machine.execBcln y line s
  | .bclr y line => Sys2Proof.Machine.execBclr y line s
  | .binv y line => Sys2Proof.Machine.execBinv y line s
  | .bnc y line c => Sys2Proof.Machine.execBnc y line c s
  | .requestPromoted y line => Sys2Proof.Machine.execRequestPromoted y line s
  | .rda y line c => Sys2Proof.Machine.execRda y line c s
  | .rds y line c => Sys2Proof.Machine.execRds y line c s
  | .rdx y line c => Sys2Proof.Machine.execRdx y line c s
  | .own y line full c => Sys2Proof.Machine.execOwn y line full c s
  | .wb k line => Sys2Proof.Machine.execWb k line s
  | .cln k line => Sys2Proof.Machine.execCln k line s
  | .evc k line => Sys2Proof.Machine.execEvc k line s
  | .dng k line => Sys2Proof.Machine.execDng k line s
  | .clnr y line => Sys2Proof.Machine.execClnr y line s
  | .invr y line => Sys2Proof.Machine.execInvr y line s
  | .rdnc line coil shared c => Sys2Proof.Machine.execRdnc line coil shared c s
  | .wrnc line coil shared data mask poison => Sys2Proof.Machine.execWrnc line coil shared data mask poison s
  | .atom line coil shared op off size b c => Sys2Proof.Machine.execAtom line coil shared op off size b c s
  | .snps k line => Sys2Proof.Machine.execSnps k line s
  | .snpinv k line => Sys2Proof.Machine.execSnpinv k line s
  | .snpcur k line => Sys2Proof.Machine.execSnpcur k line s
  | .snpclean k line => Sys2Proof.Machine.execSnpclean k line s
  | .grant line => Sys2Proof.Machine.execGrant line s
  | .ack k line => Sys2Proof.Machine.execAck k line s
  | .rspi h line => Sys2Proof.Machine.execRspi h line s
  | .rsps h line => Sys2Proof.Machine.execRsps h line s
  | .rspv h line => Sys2Proof.Machine.execRspv h line s
  | .rspdata h line => Sys2Proof.Machine.execRspdata h line s
  | .cmpack line => Sys2Proof.Machine.execCmpack line s
  | .sweepDone k => Sys2Proof.Machine.execSweepDone k s
  | .go p id go data poison => Sys2Proof.Machine.execGo p id go data poison s
  | .goWritepull p id => Sys2Proof.Machine.execGoWritepull p id s
  | .extcmp p id => Sys2Proof.Machine.execExtcmp p id s
  | .h2dSnpinv p addr => Sys2Proof.Machine.execH2dSnpinv p addr s
  | .h2dSnpdata p addr => Sys2Proof.Machine.execH2dSnpdata p addr s
  | .h2dSnpcur p addr => Sys2Proof.Machine.execH2dSnpcur p addr s
  | .memrd p dpa mv snp => Sys2Proof.Machine.execMemrd p dpa mv snp s
  | .memrddata p dpa => Sys2Proof.Machine.execMemrddata p dpa s
  | .meminv p dpa mv => Sys2Proof.Machine.execMeminv p dpa mv s
  | .memclnevct p dpa => Sys2Proof.Machine.execMemclnevct p dpa s
  | .memwr p dpa mv data poison => Sys2Proof.Machine.execMemwr p dpa mv data poison s
  | .memwrptl p dpa mv data mask poison => Sys2Proof.Machine.execMemwrptl p dpa mv data mask poison s
  | .memspecrd p dpa => Sys2Proof.Machine.execMemspecrd p dpa s
  | .memrdfwd p dpa => Sys2Proof.Machine.execMemrdfwd p dpa s
  | .memwrfwd p dpa => Sys2Proof.Machine.execMemwrfwd p dpa s
  | .birsp p line kind => Sys2Proof.Machine.execBirsp p line kind s
  | .biconflict p line op => Sys2Proof.Machine.execBiconflict p line op s
  | .biasFlip p fathom toDevice => Sys2Proof.Machine.execBiasFlip p fathom toDevice s
  | .biasFlipDone p => Sys2Proof.Machine.execBiasFlipDone p s
  | .flushReadDone p tag ok => Sys2Proof.Machine.execFlushReadDone p tag ok s
  | .add c d a b => Sys2Proof.Machine.execAdd c d a b s
  | .sub c d a b => Sys2Proof.Machine.execSub c d a b s
  | .mul c d a b => Sys2Proof.Machine.execMul c d a b s
  | .mulh c d a b => Sys2Proof.Machine.execMulh c d a b s
  | .mulhu c d a b => Sys2Proof.Machine.execMulhu c d a b s
  | .div c d a b => Sys2Proof.Machine.execDiv c d a b s
  | .divu c d a b => Sys2Proof.Machine.execDivu c d a b s
  | .rem c d a b => Sys2Proof.Machine.execRem c d a b s
  | .remu c d a b => Sys2Proof.Machine.execRemu c d a b s
  | .and c d a b => Sys2Proof.Machine.execAnd c d a b s
  | .or c d a b => Sys2Proof.Machine.execOr c d a b s
  | .xor c d a b => Sys2Proof.Machine.execXor c d a b s
  | .andn c d a b => Sys2Proof.Machine.execAndn c d a b s
  | .sll c d a b => Sys2Proof.Machine.execSll c d a b s
  | .srl c d a b => Sys2Proof.Machine.execSrl c d a b s
  | .sra c d a b => Sys2Proof.Machine.execSra c d a b s
  | .ror c d a b => Sys2Proof.Machine.execRor c d a b s
  | .slt c d a b => Sys2Proof.Machine.execSlt c d a b s
  | .sltu c d a b => Sys2Proof.Machine.execSltu c d a b s
  | .seq c d a b => Sys2Proof.Machine.execSeq c d a b s
  | .min c d a b => Sys2Proof.Machine.execMin c d a b s
  | .max c d a b => Sys2Proof.Machine.execMax c d a b s
  | .minu c d a b => Sys2Proof.Machine.execMinu c d a b s
  | .maxu c d a b => Sys2Proof.Machine.execMaxu c d a b s
  | .clz c d a => Sys2Proof.Machine.execClz c d a s
  | .ctz c d a => Sys2Proof.Machine.execCtz c d a s
  | .popc c d a => Sys2Proof.Machine.execPopc c d a s
  | .sext c d a w => Sys2Proof.Machine.execSext c d a w s
  | .zext c d a w => Sys2Proof.Machine.execZext c d a w s
  | .csel c d a b e => Sys2Proof.Machine.execCsel c d a b e s
  | .movk c d imm h => Sys2Proof.Machine.execMovk c d imm h s
  | .nop c => Sys2Proof.Machine.execNop c s
  | .j c off => Sys2Proof.Machine.execJ c off s
  | .jal c d off => Sys2Proof.Machine.execJal c d off s
  | .jr c a off => Sys2Proof.Machine.execJr c a off s
  | .jalr c d a off => Sys2Proof.Machine.execJalr c d a off s
  | .beq c a b off => Sys2Proof.Machine.execBeq c a b off s
  | .bne c a b off => Sys2Proof.Machine.execBne c a b off s
  | .blt c a b off => Sys2Proof.Machine.execBlt c a b off s
  | .bge c a b off => Sys2Proof.Machine.execBge c a b off s
  | .bltu c a b off => Sys2Proof.Machine.execBltu c a b off s
  | .bgeu c a b off => Sys2Proof.Machine.execBgeu c a b off s
  | .bpany c a off => Sys2Proof.Machine.execBpany c a off s
  | .bpnone c a off => Sys2Proof.Machine.execBpnone c a off s
  | .icinv c => Sys2Proof.Machine.execIcinv c s
  | .ld c d a m ecc => Sys2Proof.Machine.execLd c d a m ecc s
  | .st c a b m => Sys2Proof.Machine.execSt c a b m s
  | .ldx c d a b m => Sys2Proof.Machine.execLdx c d a b m s
  | .stx c a b e m => Sys2Proof.Machine.execStx c a b e m s
  | .vadd c d a b m => Sys2Proof.Machine.execVadd c d a b m s
  | .vsub c d a b m => Sys2Proof.Machine.execVsub c d a b m s
  | .vmul c d a b m => Sys2Proof.Machine.execVmul c d a b m s
  | .vmulh c d a b m => Sys2Proof.Machine.execVmulh c d a b m s
  | .vmin c d a b m => Sys2Proof.Machine.execVmin c d a b m s
  | .vmax c d a b m => Sys2Proof.Machine.execVmax c d a b m s
  | .vabs c d a m => Sys2Proof.Machine.execVabs c d a m s
  | .vneg c d a m => Sys2Proof.Machine.execVneg c d a m s
  | .vadds c d a b m => Sys2Proof.Machine.execVadds c d a b m s
  | .vsubs c d a b m => Sys2Proof.Machine.execVsubs c d a b m s
  | .vand c d a b m => Sys2Proof.Machine.execVand c d a b m s
  | .vor c d a b m => Sys2Proof.Machine.execVor c d a b m s
  | .vxor c d a b m => Sys2Proof.Machine.execVxor c d a b m s
  | .vnot c d a m => Sys2Proof.Machine.execVnot c d a m s
  | .vshl c d a b m => Sys2Proof.Machine.execVshl c d a b m s
  | .vshr c d a b m => Sys2Proof.Machine.execVshr c d a b m s
  | .vshli c d a m => Sys2Proof.Machine.execVshli c d a m s
  | .vshri c d a m => Sys2Proof.Machine.execVshri c d a m s
  | .vfadd c d a b m => Sys2Proof.Machine.execVfadd c d a b m s
  | .vfsub c d a b m => Sys2Proof.Machine.execVfsub c d a b m s
  | .vfmul c d a b m => Sys2Proof.Machine.execVfmul c d a b m s
  | .vfma c d a b m => Sys2Proof.Machine.execVfma c d a b m s
  | .vfmin c d a b m => Sys2Proof.Machine.execVfmin c d a b m s
  | .vfmax c d a b m => Sys2Proof.Machine.execVfmax c d a b m s
  | .vfabs c d a m => Sys2Proof.Machine.execVfabs c d a m s
  | .vfneg c d a m => Sys2Proof.Machine.execVfneg c d a m s
  | .vfdiv c d a b m => Sys2Proof.Machine.execVfdiv c d a b m s
  | .vfsqrt c d a m => Sys2Proof.Machine.execVfsqrt c d a m s
  | .vfrcp c d a m => Sys2Proof.Machine.execVfrcp c d a m s
  | .vexp2 c d a m => Sys2Proof.Machine.execVexp2 c d a m s
  | .vlog2 c d a m => Sys2Proof.Machine.execVlog2 c d a m s
  | .vcmp c d a b m => Sys2Proof.Machine.execVcmp c d a b m s
  | .vfcmp c d a b m => Sys2Proof.Machine.execVfcmp c d a b m s
  | .pand c d a b => Sys2Proof.Machine.execPand c d a b s
  | .por c d a b => Sys2Proof.Machine.execPor c d a b s
  | .pxor c d a b => Sys2Proof.Machine.execPxor c d a b s
  | .pandn c d a b => Sys2Proof.Machine.execPandn c d a b s
  | .pnot c d a => Sys2Proof.Machine.execPnot c d a s
  | .pfirst c d a ty => Sys2Proof.Machine.execPfirst c d a ty s
  | .pcnt c d a ty => Sys2Proof.Machine.execPcnt c d a ty s
  | .vmov c d a m => Sys2Proof.Machine.execVmov c d a m s
  | .vbcast c d a m => Sys2Proof.Machine.execVbcast c d a m s
  | .vext c d a m => Sys2Proof.Machine.execVext c d a m s
  | .vins c d a m => Sys2Proof.Machine.execVins c d a m s
  | .vperm c d a b m => Sys2Proof.Machine.execVperm c d a b m s
  | .vslideup c d a m => Sys2Proof.Machine.execVslideup c d a m s
  | .vslidedn c d a m => Sys2Proof.Machine.execVslidedn c d a m s
  | .vred c d a m => Sys2Proof.Machine.execVred c d a m s
  | .vcvt c d a m => Sys2Proof.Machine.execVcvt c d a m s
  | .vmxscale c d a m => Sys2Proof.Machine.execVmxscale c d a m s
  | .vcvtmx c d a b m => Sys2Proof.Machine.execVcvtmx c d a b m s
  | .vmxdec c d a b m => Sys2Proof.Machine.execVmxdec c d a b m s
  | .vld c d a m => Sys2Proof.Machine.execVld c d a m s
  | .vst c d a m => Sys2Proof.Machine.execVst c d a m s
  | .vlds c d a b m => Sys2Proof.Machine.execVlds c d a b m s
  | .vsts c d a b m => Sys2Proof.Machine.execVsts c d a b m s
  | .vldx c d a b m => Sys2Proof.Machine.execVldx c d a b m s
  | .vstx c d a b m => Sys2Proof.Machine.execVstx c d a b m s
  | .vldb c d a m => Sys2Proof.Machine.execVldb c d a m s
  | .mma c d a b e fa fb mx ovw => Sys2Proof.Machine.execMma c d a b e fa fb mx ovw s
  | .mmaComplete c => Sys2Proof.Machine.execMmaComplete c s
  | .accz c d => Sys2Proof.Machine.execAccz c d s
  | .accld c d a => Sys2Proof.Machine.execAccld c d a s
  | .accst c a b => Sys2Proof.Machine.execAccst c a b s
  | .acccvt c a b ty rmo int => Sys2Proof.Machine.execAcccvt c a b ty rmo int s
  | .accrd c d a b => Sys2Proof.Machine.execAccrd c d a b s
  | .accwr c d a b => Sys2Proof.Machine.execAccwr c d a b s
  | .tld c d a off ecc => Sys2Proof.Machine.execTld c d a off ecc s
  | .tst c d a off => Sys2Proof.Machine.execTst c d a off s
  | .tcpy c d a b => Sys2Proof.Machine.execTcpy c d a b s
  | .tzero c a b => Sys2Proof.Machine.execTzero c a b s
  | .txp c d a w => Sys2Proof.Machine.execTxp c d a w s
  | .fenceC c mask => Sys2Proof.Machine.execFenceC c mask s
  | .fenceP c mask => Sys2Proof.Machine.execFenceP c mask s
  | .fenceS c mask => Sys2Proof.Machine.execFenceS c mask s
  | .bendWfence c a mask => Sys2Proof.Machine.execBendWfence c a mask s
  | .ldrsv c d a m => Sys2Proof.Machine.execLdrsv c d a m s
  | .stcnd c d a b m => Sys2Proof.Machine.execStcnd c d a b m s
  | .amoswap c d a b m => Sys2Proof.Machine.execAmoswap c d a b m s
  | .amoadd c d a b m => Sys2Proof.Machine.execAmoadd c d a b m s
  | .amoand c d a b m => Sys2Proof.Machine.execAmoand c d a b m s
  | .amoor c d a b m => Sys2Proof.Machine.execAmoor c d a b m s
  | .amoxor c d a b m => Sys2Proof.Machine.execAmoxor c d a b m s
  | .amomin c d a b m => Sys2Proof.Machine.execAmomin c d a b m s
  | .amomax c d a b m => Sys2Proof.Machine.execAmomax c d a b m s
  | .amominu c d a b m => Sys2Proof.Machine.execAmominu c d a b m s
  | .amomaxu c d a b m => Sys2Proof.Machine.execAmomaxu c d a b m s
  | .amocas c d a b e m => Sys2Proof.Machine.execAmocas c d a b e m s
  | .amofadd c d a b m => Sys2Proof.Machine.execAmofadd c d a b m s
  | .amofmin c d a b m => Sys2Proof.Machine.execAmofmin c d a b m s
  | .amofmax c d a b m => Sys2Proof.Machine.execAmofmax c d a b m s
  | .stNt c a b m => Sys2Proof.Machine.execStNt c a b m s
  | .vstNt c d a m => Sys2Proof.Machine.execVstNt c d a m s
  | .clean c a m => Sys2Proof.Machine.execClean c a m s
  | .invalidate c a m => Sys2Proof.Machine.execInvalidate c a m s
  | .cleanInv c a m => Sys2Proof.Machine.execCleanInv c a m s
  | .zero c a m => Sys2Proof.Machine.execZero c a m s
  | .kdec c d a b => Sys2Proof.Machine.execKdec c d a b s
  | .kwait c d a b => Sys2Proof.Machine.execKwait c d a b s
  | .spawn c d a ring => Sys2Proof.Machine.execSpawn c d a ring s
  | .spawnTicketWritten c ok => Sys2Proof.Machine.execSpawnTicketWritten c ok s
  | .tcancel c d a => Sys2Proof.Machine.execTcancel c d a s
  | .tend c a => Sys2Proof.Machine.execTend c a s
  | .evmon c a m => Sys2Proof.Machine.execEvmon c a m s
  | .evwait c d a m => Sys2Proof.Machine.execEvwait c d a m s
  | .monitorWake c => Sys2Proof.Machine.execMonitorWake c s
  | .knotWaitEnd c => Sys2Proof.Machine.execKnotWaitEnd c s
  | .waitTimeout c => Sys2Proof.Machine.execWaitTimeout c s
  | .crr c d n => Sys2Proof.Machine.execCrr c d n s
  | .crw c a n => Sys2Proof.Machine.execCrw c a n s
  | .ehint c a => Sys2Proof.Machine.execEhint c a s
  | .opreq c d p => Sys2Proof.Machine.execOpreq c d p s
  | .rigcallCounters c => Sys2Proof.Machine.execRigcallCounters c s
  | .rigcallTileClear c => Sys2Proof.Machine.execRigcallTileClear c s
  | .rigcallLog c => Sys2Proof.Machine.execRigcallLog c s
  | .rigret c => Sys2Proof.Machine.execRigret c s
  | .tilez c => Sys2Proof.Machine.execTilez c s
  | .coreAccessResponse c id ck => Sys2Proof.Machine.execCoreAccessResponse c id ck s
  | .energyOverrun c => Sys2Proof.Machine.execEnergyOverrun c s
  | .coreStateUe c => Sys2Proof.Machine.execCoreStateUe c s
  | .terminationDone c energy => Sys2Proof.Machine.execTerminationDone c energy s
  | .taskWatchdog c => Sys2Proof.Machine.execTaskWatchdog c s
  | .terminationWatchdog c => Sys2Proof.Machine.execTerminationWatchdog c s
  | .coreResetEnd c => Sys2Proof.Machine.execCoreResetEnd c s
  | .plyResetEnd y => Sys2Proof.Machine.execPlyResetEnd y s
  | .bayResetEnd k => Sys2Proof.Machine.execBayResetEnd k s
  | .vaultResetEnd v => Sys2Proof.Machine.execVaultResetEnd v s
  | .coilResetEnd coil => Sys2Proof.Machine.execCoilResetEnd coil s
  | .submissionDoorbell p coil k form value => Sys2Proof.Machine.execSubmissionDoorbell p coil k form value s
  | .completionHeadDoorbell p coil k form value => Sys2Proof.Machine.execCompletionHeadDoorbell p coil k form value s
  | .submissionRingEnable p coil k => Sys2Proof.Machine.execSubmissionRingEnable p coil k s
  | .submissionRingDisable p coil k => Sys2Proof.Machine.execSubmissionRingDisable p coil k s
  | .completionRingEnable p coil k => Sys2Proof.Machine.execCompletionRingEnable p coil k s
  | .completionRingDisable p coil k => Sys2Proof.Machine.execCompletionRingDisable p coil k s
  | .ticketRead coil k host => Sys2Proof.Machine.execTicketRead coil k host s
  | .skflush p coil => Sys2Proof.Machine.execSkflush p coil s
  | .knotRead p coil k => Sys2Proof.Machine.execKnotRead p coil k s
  | .knotArm p coil k n => Sys2Proof.Machine.execKnotArm p coil k n s
  | .knotDec p coil k n => Sys2Proof.Machine.execKnotDec p coil k n s
  | .knotMarkedDec p coil k n => Sys2Proof.Machine.execKnotMarkedDec p coil k n s
  | .knotReset p coil k => Sys2Proof.Machine.execKnotReset p coil k s
  | .cancel p coil id => Sys2Proof.Machine.execCancel p coil id s
  | .slackTick m => Sys2Proof.Machine.execSlackTick m s
  | .taskPlacement t => Sys2Proof.Machine.execTaskPlacement t s
  | .dispatch k => Sys2Proof.Machine.execDispatch k s
  | .taskEnd t => Sys2Proof.Machine.execTaskEnd t s
  | .heldRecordRelease coil cring => Sys2Proof.Machine.execHeldRecordRelease coil cring s
  | .moderationExpiry coil cring => Sys2Proof.Machine.execModerationExpiry coil cring s
  | .coreParkRetain c => Sys2Proof.Machine.execCoreParkRetain c s
  | .coreParkDark c => Sys2Proof.Machine.execCoreParkDark c s
  | .coreWakeDone c => Sys2Proof.Machine.execCoreWakeDone c s
  | .bayPllStop k => Sys2Proof.Machine.execBayPllStop k s
  | .bayPllLock k => Sys2Proof.Machine.execBayPllLock k s
  | .tileStorePowerUp c => Sys2Proof.Machine.execTileStorePowerUp c s
  | .opChangeDone c => Sys2Proof.Machine.execOpChangeDone c s
  | .pwrbrakeNAssert => Sys2Proof.Machine.execPwrbrakeNAssert s
  | .pwrbrakeNDeassert => Sys2Proof.Machine.execPwrbrakeNDeassert s
  | .pumpFaultIn => Sys2Proof.Machine.execPumpFaultIn s
  | .leakIn => Sys2Proof.Machine.execLeakIn s
  | .inputRange low => Sys2Proof.Machine.execInputRange low s
  | .inputLoss copied => Sys2Proof.Machine.execInputLoss copied s
  | .coolantTermUpdate tin tout flow => Sys2Proof.Machine.execCoolantTermUpdate tin tout flow s
  | .thermalBandChange sensor reading => Sys2Proof.Machine.execThermalBandChange sensor reading s
  | .sensorFault sensor => Sys2Proof.Machine.execSensorFault sensor s
  | .bayTrip k => Sys2Proof.Machine.execBayTrip k s
  | .bayTripRecovery k => Sys2Proof.Machine.execBayTripRecovery k s
  | .waferTrip cause => Sys2Proof.Machine.execWaferTrip cause s
  | .waferTripRecovery => Sys2Proof.Machine.execWaferTripRecovery s
  | .patrolTestStart c => Sys2Proof.Machine.execPatrolTestStart c s
  | .patrolTestDone c ok => Sys2Proof.Machine.execPatrolTestDone c ok s
  | .pawlWatchdog k => Sys2Proof.Machine.execPawlWatchdog k s
  | .capstanWatchdog => Sys2Proof.Machine.execCapstanWatchdog s
  | .tailWrite p ch tail => Sys2Proof.Machine.execTailWrite p ch tail s
  | .tailWordChange ch => Sys2Proof.Machine.execTailWordChange ch s
  | .descriptorFetched ch host => Sys2Proof.Machine.execDescriptorFetched ch host s
  | .beatReadData ch => Sys2Proof.Machine.execBeatReadData ch s
  | .beatWriteAck ch => Sys2Proof.Machine.execBeatWriteAck ch s
  | .descriptorComplete ch => Sys2Proof.Machine.execDescriptorComplete ch s
  | .statusWriteAck ch => Sys2Proof.Machine.execStatusWriteAck ch s
  | .channelEnable p ch => Sys2Proof.Machine.execChannelEnable p ch s
  | .channelDisable p ch => Sys2Proof.Machine.execChannelDisable p ch s
  | .pause p ch => Sys2Proof.Machine.execPause p ch s
  | .pauseClear p ch => Sys2Proof.Machine.execPauseClear p ch s
  | .paused ch => Sys2Proof.Machine.execPaused ch s
  | .channelStopped ch => Sys2Proof.Machine.execChannelStopped ch s
  | .create p coil => Sys2Proof.Machine.execCreate p coil s
  | .seal p coil => Sys2Proof.Machine.execSeal p coil s
  | .destroy p coil => Sys2Proof.Machine.execDestroy p coil s
  | .destructionStepEnd coil => Sys2Proof.Machine.execDestructionStepEnd coil s
  | .coilRepeatableWrite p coil on => Sys2Proof.Machine.execCoilRepeatableWrite p coil on s
  | .plyAssign p y coil => Sys2Proof.Machine.execPlyAssign p y coil s
  | .plyRelease p y => Sys2Proof.Machine.execPlyRelease p y s
  | .plyClearStepEnd y => Sys2Proof.Machine.execPlyClearStepEnd y s
  | .shareWrite p coil w => Sys2Proof.Machine.execShareWrite p coil w s
  | .quiesce p coil => Sys2Proof.Machine.execQuiesce p coil s
  | .resume p coil => Sys2Proof.Machine.execResume p coil s
  | .reset p coil => Sys2Proof.Machine.execReset p coil s
  | .bendEnable p b => Sys2Proof.Machine.execBendEnable p b s
  | .bendDisable p b => Sys2Proof.Machine.execBendDisable p b s
  | .trainingStepEnd b o => Sys2Proof.Machine.execTrainingStepEnd b o s
  | .trainingRetry b => Sys2Proof.Machine.execTrainingRetry b s
  | .flitReceived b flit corrected uncorr => Sys2Proof.Machine.execFlitReceived b flit corrected uncorr s
  | .nak b seq => Sys2Proof.Machine.execNak b seq s
  | .init b wafer system port credits => Sys2Proof.Machine.execInit b wafer system port credits s
  | .initAck b => Sys2Proof.Machine.execInitAck b s
  | .down b => Sys2Proof.Machine.execDown b s
  | .initResend b => Sys2Proof.Machine.execInitResend b s
  | .ackTimer b => Sys2Proof.Machine.execAckTimer b s
  | .replayTimeout b => Sys2Proof.Machine.execReplayTimeout b s
  | .recoveryEnd b ok lanes => Sys2Proof.Machine.execRecoveryEnd b ok lanes s
  | .lossOfSignal b => Sys2Proof.Machine.execLossOfSignal b s
  | .retrain p b => Sys2Proof.Machine.execRetrain p b s
  | .rd b c => Sys2Proof.Machine.execRd b c s
  | .wr b => Sys2Proof.Machine.execWr b s
  | .bendAtom b => Sys2Proof.Machine.execBendAtom b s
  | .wfence b => Sys2Proof.Machine.execWfence b s
  | .msg b => Sys2Proof.Machine.execMsg b s
  | .rdData b => Sys2Proof.Machine.execRdData b s
  | .cmp b => Sys2Proof.Machine.execCmp b s
  | .atomData b => Sys2Proof.Machine.execAtomData b s
  | .bendRequestTimeout b tag => Sys2Proof.Machine.execBendRequestTimeout b tag s
  | .windowOpen p b w coil dst dstPort entry kind fathoms => Sys2Proof.Machine.execWindowOpen p b w coil dst dstPort entry kind fathoms s
  | .windowClose p b w => Sys2Proof.Machine.execWindowClose p b w s
  | .windowDrained b entry k => Sys2Proof.Machine.execWindowDrained b entry k s
  | .spliceEntryValid p b e coil kind r w srcWafer srcCoil => Sys2Proof.Machine.execSpliceEntryValid p b e coil kind r w srcWafer srcCoil s
  | .spliceEntryInvalidate p b e => Sys2Proof.Machine.execSpliceEntryInvalidate p b e s
  | .msgPartialTimeout b w block => Sys2Proof.Machine.execMsgPartialTimeout b w block s
  | .halyardStart c => Sys2Proof.Machine.execHalyardStart c s
  | .halyardStop coil => Sys2Proof.Machine.execHalyardStop coil s
  | .requestSubmit coil r tail => Sys2Proof.Machine.execRequestSubmit coil r tail s
  | .halyardStep coil ends => Sys2Proof.Machine.execHalyardStep coil ends s
  | .halyardRecovery coil => Sys2Proof.Machine.execHalyardRecovery coil s
  | .forwardTimeout coil serial => Sys2Proof.Machine.execForwardTimeout coil serial s
  | .fragmentTimeout coil wafer serial => Sys2Proof.Machine.execFragmentTimeout coil wafer serial s
  | .cleatWatchdog => Sys2Proof.Machine.execCleatWatchdog s
  | .gwynResume => Sys2Proof.Machine.execGwynResume s
  | .nvmUpdateDone => Sys2Proof.Machine.execNvmUpdateDone s
  | .plateUpdateStart readings => Sys2Proof.Machine.execPlateUpdateStart readings s
  | .plateStepDone => Sys2Proof.Machine.execPlateStepDone s
  | .coalesceExpiry code u coil => Sys2Proof.Machine.execCoalesceExpiry code u coil s
  | .eventVectorHoldoff p => Sys2Proof.Machine.execEventVectorHoldoff p s
  | .eventPop p => Sys2Proof.Machine.execEventPop p s
  | .clGpioWrite p pin func high => Sys2Proof.Machine.execClGpioWrite p pin func high s
  | .clFenceReq p kind unit => Sys2Proof.Machine.execClFenceReq p kind unit s
  | .skeinVerify p coil => Sys2Proof.Machine.execSkeinVerify p coil s
  | .skeinVerifyDone status size => Sys2Proof.Machine.execSkeinVerifyDone status size s
  | .tsyncEdge offsetNs => Sys2Proof.Machine.execTsyncEdge offsetNs s
  | .tsyncEdgeMissed => Sys2Proof.Machine.execTsyncEdgeMissed s
  | .locateN low => Sys2Proof.Machine.execLocateN low s
  | .locateTimeout => Sys2Proof.Machine.execLocateTimeout s
  | .osfpInsert b cage => Sys2Proof.Machine.execOsfpInsert b cage s
  | .osfpFault b cage => Sys2Proof.Machine.execOsfpFault b cage s
  | .setEndpointId eid => Sys2Proof.Machine.execSetEndpointId eid s
  | .getEndpointId => Sys2Proof.Machine.execGetEndpointId s
  | .getEndpointUuid => Sys2Proof.Machine.execGetEndpointUuid s
  | .getMctpVersionSupport type => Sys2Proof.Machine.execGetMctpVersionSupport type s
  | .getMessageTypeSupport => Sys2Proof.Machine.execGetMessageTypeSupport s
  | .getPdr handle => Sys2Proof.Machine.execGetPdr handle s
  | .getPdrRepositoryInfo => Sys2Proof.Machine.execGetPdrRepositoryInfo s
  | .getSensorReading id measured => Sys2Proof.Machine.execGetSensorReading id measured s
  | .getStateSensorReadings id => Sys2Proof.Machine.execGetStateSensorReadings id s
  | .powerCapVolatile w => Sys2Proof.Machine.execPowerCapVolatile w s
  | .powerCapPersistent w => Sys2Proof.Machine.execPowerCapPersistent w s
  | .locate on timeout => Sys2Proof.Machine.execLocate on timeout s
  | .getNumericEffecterValue id => Sys2Proof.Machine.execGetNumericEffecterValue id s
  | .getStateEffecterStates id => Sys2Proof.Machine.execGetStateEffecterStates id s
  | .setEventReceiver eid => Sys2Proof.Machine.execSetEventReceiver eid s
  | .waferReset => Sys2Proof.Machine.execWaferReset s
  | .bayReset k => Sys2Proof.Machine.execBayReset k s
  | .portReset isBend p => Sys2Proof.Machine.execPortReset isBend p s
  | .portHold p => Sys2Proof.Machine.execPortHold p s
  | .portRelease p => Sys2Proof.Machine.execPortRelease p s
  | .selfTestMode m => Sys2Proof.Machine.execSelfTestMode m s
  | .stopperClear full units => Sys2Proof.Machine.execStopperClear full units s
  | .fenceRequest u => Sys2Proof.Machine.execFenceRequest u s
  | .controlPort p => Sys2Proof.Machine.execControlPort p s
  | .gpioClaim pin func store => Sys2Proof.Machine.execGpioClaim pin func store s
  | .bendSettings b ctl routes => Sys2Proof.Machine.execBendSettings b ctl routes s
  | .eventRead persistent index count => Sys2Proof.Machine.execEventRead persistent index count s
  | .eventAck wake index => Sys2Proof.Machine.execEventAck wake index s
  | .eventConfig threshold => Sys2Proof.Machine.execEventConfig threshold s
  | .mapRead which => Sys2Proof.Machine.execMapRead which s
  | .plateRedraw => Sys2Proof.Machine.execPlateRedraw s
  | .setTime ns => Sys2Proof.Machine.execSetTime ns s
  | .fwCommit => Sys2Proof.Machine.execFwCommit s
  | .fwRollback => Sys2Proof.Machine.execFwRollback s
  | .fuseMinVersion v => Sys2Proof.Machine.execFuseMinVersion v s
  | .requestUpdate => Sys2Proof.Machine.execRequestUpdate s
  | .passComponentTable id => Sys2Proof.Machine.execPassComponentTable id s
  | .updateComponent id => Sys2Proof.Machine.execUpdateComponent id s
  | .firmwareDataReceived n last signed version => Sys2Proof.Machine.execFirmwareDataReceived n last signed version s
  | .activateFirmware => Sys2Proof.Machine.execActivateFirmware s
  | .trialTimeout => Sys2Proof.Machine.execTrialTimeout s
  | .imageCopyDone => Sys2Proof.Machine.execImageCopyDone s
  | .getCertificate slot => Sys2Proof.Machine.execGetCertificate slot s
  | .challenge nonce => Sys2Proof.Machine.execChallenge nonce s
  | .getMeasurements index => Sys2Proof.Machine.execGetMeasurements index s
  | .keyExchange => Sys2Proof.Machine.execKeyExchange s
  | .heartbeat session => Sys2Proof.Machine.execHeartbeat session s
  | .keyUpdate session => Sys2Proof.Machine.execKeyUpdate session s
  | .rcRead a off size => Sys2Proof.Machine.execRcRead a off size s
  | .registerWrite a off size v => Sys2Proof.Machine.execRegisterWrite a off size v s
  | .pumpFaultInRelease => Sys2Proof.Machine.execPumpFaultInRelease s
  | .routerInternalError k => Sys2Proof.Machine.execRouterInternalError k s
  | .tackleInternalFault y => Sys2Proof.Machine.execTackleInternalFault y s
  | .vaultRefreshChange v celsius => Sys2Proof.Machine.execVaultRefreshChange v celsius s
  | .recordWriteAck t => Sys2Proof.Machine.execRecordWriteAck t s
  | .skeinEntryRead t host => Sys2Proof.Machine.execSkeinEntryRead t host s
  | .illegalInstruction c => Sys2Proof.Machine.execIllegalInstruction c s
  | .testAccessPort tms trst => Sys2Proof.Machine.execTestAccessPort tms trst s

end Sys2Proof.Machine
end

