-- ==== Sys2Proof/Machine/Step.lean ====
section
/-!
DEFINITION. One step: the command at the front of the queue takes its effect; an empty queue lets time pass.
-/
namespace Sys2Proof.Machine

/-- The state with the command that a word spells put at the front of the queue; no row of the table gives bits, so
no word spells one (DESIGN CHOICE, log entry 12). -/
def State.withFetchWord (s : State) (nbits w : Nat) : State :=
  match Sys2Proof.decodeTableWord nbits w with
  | some i => { s with pending := i :: s.pending }
  | none => s

/-- One step of the block (DESIGN CHOICE, log entry 91) (DESIGN CHOICE, log entry 93). -/
def step (s : State) : Host.Outcome State Fault Refusal :=
  match s.pending with
  | [] => idle s
  | i :: rest => exec i { s with pending := rest }

end Sys2Proof.Machine
end

