-- ==== Sys2Proof/Safety.lean ====
section
/-!
DEFINITION. The terms that statements use: what it is for a command to complete, what the effect of a core instruction is confined to, and the
invariant that every step keeps.
-/
namespace Sys2Proof.Machine

/-- The command answers a next state, and that state is as `P` says. -/
def Completes (i : Sys2Proof.Instr) (s : State) (P : State → Prop) : Prop := ∃ t, exec i s = .next t ∧ P t

/-- The command changes nothing but the messages of the step. -/
def Ignored (i : Sys2Proof.Instr) (s : State) : Prop := Completes i s (fun t => t = { s with out := [], outputs := t.outputs })

/-- A core after an instruction that leaves it at `pc`. -/
def Core.at_ (x : Core) (pc : Nat) : Core := { x with pc := pc % 2 ^ 64, stalled := none, progress := 0 }

/-- An instruction retires on core `c`, which is `x` afterwards: the core runs, CR_RETIRED counts, and nothing else of the machine changes. -/
structure Retires (c : Nat) (x : Core) (s t : State) : Prop where
  core : t.core c = x
  others : ∀ j, j ≠ c → t.core j = s.core j
  runs : t.fld .CR_STATUS_PSTATE c = 0
  counts : t.fld .CR_RETIRED_COUNT c = (s.fld .CR_RETIRED_COUNT c + 1) % 2 ^ 64
  fields : ∀ f i, (f ≠ .CR_STATUS_PSTATE ∧ f ≠ .CR_RETIRED_COUNT) ∨ i ≠ c → t.fld f i = s.fld f i
  rest : t = { s with cores := t.cores, regs := t.regs, out := [], outputs := t.outputs }

/-- The pins show what the registers and the log say. -/
def State.settled (s : State) : Prop := s.outputs = s.pinLevels

end Sys2Proof.Machine
end

