-- ==== Sys2Proof/WellFormed.lean ====
section
/-!
DEFINITION. Well-formed commands: every unit that a command names exists, and every register number of an instruction is in its register file
(R6, Table 1.1, Table 12.1). A command whose fields the spec leaves open or answers with a status of its own is not narrowed here.
-/
namespace Sys2Proof

/-- The units and registers that a command names exist. -/
def Instr.wf : Instr → Bool
  | .alwaysOnStart => true
  | .aoEnFall => true
  | .wakeStepEnd _ => true
  | .perstNAssert p => decide (p < Config.hostPorts)
  | .perstNDeassert p => decide (p < Config.hostPorts)
  | .hitchReady p => decide (p < Config.hostPorts)
  | .linkTrained p _ => decide (p < Config.hostPorts)
  | .hotReset p => decide (p < Config.hostPorts)
  | .surpriseDown p => decide (p < Config.hostPorts)
  | .l0pWidthChange p _ => decide (p < Config.hostPorts)
  | .l1Entry p _ => decide (p < Config.hostPorts)
  | .configRequest p fn _ => decide (p < Config.hostPorts) && decide (fn < 33)
  | .setD3hot p => decide (p < Config.hostPorts)
  | .d3hotWritebackDone p => decide (p < Config.hostPorts)
  | .returnToD0 p => decide (p < Config.hostPorts)
  | .pmeStatusClear p => decide (p < Config.hostPorts)
  | .initiateFlr p fn => decide (p < Config.hostPorts) && decide (fn < 33)
  | .flrStepEnd p fn => decide (p < Config.hostPorts) && decide (fn < 33)
  | .initiateCacheWriteback p => decide (p < Config.hostPorts)
  | .cxlIoCompletion p _ _ _ => decide (p < Config.hostPorts)
  | .completionTimeout p _ => decide (p < Config.hostPorts)
  | .d2hTimeout p _ => decide (p < Config.hostPorts)
  | .hostPortError p _ _ => decide (p < Config.hostPorts)
  | .portHoldDone p => decide (p < Config.hostPorts)
  | .holdRelease p _ _ => decide (p < Config.hostPorts)
  | .ideRequire p _ _ => decide (p < Config.hostPorts)
  | .vfBind p n coil => decide (p < Config.hostPorts) && decide (n < 33) && decide (coil < Config.coils)
  | .vfUnbind p n => decide (p < Config.hostPorts) && decide (n < 33)
  | .tkOwnerWrite p x _ coil _ => decide (p < Config.hostPorts) && decide (x < 64) && decide (coil < Config.coils)
  | .hdmAccess p _ _ => decide (p < Config.hostPorts)
  | .query p => decide (p < Config.hostPorts)
  | .keyProg p _ _ _ _ => decide (p < Config.hostPorts)
  | .kSetGo p _ _ _ _ => decide (p < Config.hostPorts)
  | .kSetStop p _ _ _ _ => decide (p < Config.hostPorts)
  | .cxlQuery p => decide (p < Config.hostPorts)
  | .cxlKeyProg p _ _ => decide (p < Config.hostPorts)
  | .cxlKSetGo p _ _ => decide (p < Config.hostPorts)
  | .cxlKSetStop p _ _ => decide (p < Config.hostPorts)
  | .cxlGetkey p _ _ => decide (p < Config.hostPorts)
  | .flitCrcFail k _ _ => decide (k < Config.bays)
  | .netLinkDown k _ => decide (k < Config.bays)
  | .routeTablesLoaded => true
  | .netQuiet => true
  | .fenceNotice k _ => decide (k < Config.bays)
  | .clearingNotice k _ => decide (k < Config.bays)
  | .netTimeout k _ => decide (k < Config.bays)
  | .escapeWait k _ => decide (k < Config.bays)
  | .ageIncrement k _ => decide (k < Config.bays)
  | .vaultRequest v _ _ => decide (v < Config.vaults)
  | .vaultControllerFault v => decide (v < Config.vaults)
  | .vaultAssign p v coil => decide (p < Config.hostPorts) && decide (v < Config.vaults) && decide (coil < Config.coils)
  | .vaultRelease p v => decide (p < Config.hostPorts) && decide (v < Config.vaults)
  | .vaultClearDone v => decide (v < Config.vaults)
  | .patrolScrub v _ _ _ => decide (v < Config.vaults)
  | .spareRowCopyDone v _ => decide (v < Config.vaults)
  | .keyGenerate p coil => decide (p < Config.hostPorts) && decide (coil < Config.coils)
  | .keyClear p coil => decide (p < Config.hostPorts) && decide (coil < Config.coils)
  | .stripeActivate p coil => decide (p < Config.hostPorts) && decide (coil < Config.coils)
  | .stripeDeactivate p coil => decide (p < Config.hostPorts) && decide (coil < Config.coils)
  | .hdmMapWrite p f _ coil _ => decide (p < Config.hostPorts) && decide (f < 16384) && decide (coil < Config.coils)
  | .reservationWrite p coil _ => decide (p < Config.hostPorts) && decide (coil < Config.coils)
  | .sliceBoundary => true
  | .translationMiss c => decide (c < Config.cores)
  | .walkEntryRead k _ => decide (k < Config.bays)
  | .walkerFault k _ => decide (k < Config.bays)
  | .invRange p coil _ _ => decide (p < Config.hostPorts) && decide (coil < Config.coils)
  | .invAll p coil => decide (p < Config.hostPorts) && decide (coil < Config.coils)
  | .invalidationDone coil => decide (coil < Config.coils)
  | .contextEnable p coil => decide (p < Config.hostPorts) && decide (coil < Config.coils)
  | .contextDisable p coil => decide (p < Config.hostPorts) && decide (coil < Config.coils)
  | .ctxTableWrite p coil _ _ _ => decide (p < Config.hostPorts) && decide (coil < Config.coils)
  | .shareGrant p g _ _ _ => decide (p < Config.hostPorts) && decide (g < 256)
  | .shareRevoke p g => decide (p < Config.hostPorts) && decide (g < 256)
  | .shareRevokeDrained g => decide (g < 256)
  | .l1iFill c => decide (c < Config.cores)
  | .l1dFillPiece c _ _ => decide (c < Config.cores)
  | .mbDrainTimeout c _ => decide (c < Config.cores)
  | .mbDrainAck c _ => decide (c < Config.cores)
  | .ntDrainTimeout c _ => decide (c < Config.cores)
  | .ntDrainAck c _ => decide (c < Config.cores)
  | .plyCacheTagUe y => decide (y < Config.plies)
  | .carve p y _ => decide (p < Config.hostPorts) && decide (y < Config.plies)
  | .carveDone y => decide (y < Config.plies)
  | .cleanWay p y _ _ => decide (p < Config.hostPorts) && decide (y < Config.plies)
  | .invWay p y _ _ => decide (p < Config.hostPorts) && decide (y < Config.plies)
  | .cleanInvWay p y _ _ => decide (p < Config.hostPorts) && decide (y < Config.plies)
  | .cleanInvAll p y => decide (p < Config.hostPorts) && decide (y < Config.plies)
  | .maintDone y _ => decide (y < Config.plies)
  | .brd y _ _ => decide (y < Config.plies)
  | .brds y _ => decide (y < Config.plies)
  | .brdx y _ => decide (y < Config.plies)
  | .bown y _ _ => decide (y < Config.plies)
  | .bwb y _ => decide (y < Config.plies)
  | .bevc y _ => decide (y < Config.plies)
  | .bcln y _ => decide (y < Config.plies)
  | .bclr y _ => decide (y < Config.plies)
  | .binv y _ => decide (y < Config.plies)
  | .bnc y _ _ => decide (y < Config.plies)
  | .requestPromoted y _ => decide (y < Config.plies)
  | .rda y _ _ => decide (y < Config.plies)
  | .rds y _ _ => decide (y < Config.plies)
  | .rdx y _ _ => decide (y < Config.plies)
  | .own y _ _ _ => decide (y < Config.plies)
  | .wb k _ => decide (k < Config.bays)
  | .cln k _ => decide (k < Config.bays)
  | .evc k _ => decide (k < Config.bays)
  | .dng k _ => decide (k < Config.bays)
  | .clnr y _ => decide (y < Config.plies)
  | .invr y _ => decide (y < Config.plies)
  | .rdnc _ _ _ _ => true
  | .wrnc _ _ _ _ _ _ => true
  | .atom _ _ _ _ _ _ _ c => decide (c < Config.cores)
  | .snps k _ => decide (k < Config.bays)
  | .snpinv k _ => decide (k < Config.bays)
  | .snpcur k _ => decide (k < Config.bays)
  | .snpclean k _ => decide (k < Config.bays)
  | .grant _ => true
  | .ack k _ => decide (k < Config.bays)
  | .rspi _ _ => true
  | .rsps _ _ => true
  | .rspv _ _ => true
  | .rspdata _ _ => true
  | .cmpack _ => true
  | .sweepDone k => decide (k < Config.bays)
  | .go p _ _ _ _ => decide (p < Config.hostPorts)
  | .goWritepull p _ => decide (p < Config.hostPorts)
  | .extcmp p _ => decide (p < Config.hostPorts)
  | .h2dSnpinv p _ => decide (p < Config.hostPorts)
  | .h2dSnpdata p _ => decide (p < Config.hostPorts)
  | .h2dSnpcur p _ => decide (p < Config.hostPorts)
  | .memrd p _ _ _ => decide (p < Config.hostPorts)
  | .memrddata p _ => decide (p < Config.hostPorts)
  | .meminv p _ _ => decide (p < Config.hostPorts)
  | .memclnevct p _ => decide (p < Config.hostPorts)
  | .memwr p _ _ _ _ => decide (p < Config.hostPorts)
  | .memwrptl p _ _ _ _ _ => decide (p < Config.hostPorts)
  | .memspecrd p _ => decide (p < Config.hostPorts)
  | .memrdfwd p _ => decide (p < Config.hostPorts)
  | .memwrfwd p _ => decide (p < Config.hostPorts)
  | .birsp p _ _ => decide (p < Config.hostPorts)
  | .biconflict p _ _ => decide (p < Config.hostPorts)
  | .biasFlip p _ _ => decide (p < Config.hostPorts)
  | .biasFlipDone p => decide (p < Config.hostPorts)
  | .flushReadDone p _ _ => decide (p < Config.hostPorts)
  | .add c d a _ => decide (c < Config.cores) && decide (d < 32) && decide (a < 32)
  | .sub c d a b => decide (c < Config.cores) && decide (d < 32) && decide (a < 32) && decide (b < 32)
  | .mul c d a _ => decide (c < Config.cores) && decide (d < 32) && decide (a < 32)
  | .mulh c d a b => decide (c < Config.cores) && decide (d < 32) && decide (a < 32) && decide (b < 32)
  | .mulhu c d a b => decide (c < Config.cores) && decide (d < 32) && decide (a < 32) && decide (b < 32)
  | .div c d a b => decide (c < Config.cores) && decide (d < 32) && decide (a < 32) && decide (b < 32)
  | .divu c d a b => decide (c < Config.cores) && decide (d < 32) && decide (a < 32) && decide (b < 32)
  | .rem c d a b => decide (c < Config.cores) && decide (d < 32) && decide (a < 32) && decide (b < 32)
  | .remu c d a b => decide (c < Config.cores) && decide (d < 32) && decide (a < 32) && decide (b < 32)
  | .and c d a _ => decide (c < Config.cores) && decide (d < 32) && decide (a < 32)
  | .or c d a _ => decide (c < Config.cores) && decide (d < 32) && decide (a < 32)
  | .xor c d a _ => decide (c < Config.cores) && decide (d < 32) && decide (a < 32)
  | .andn c d a b => decide (c < Config.cores) && decide (d < 32) && decide (a < 32) && decide (b < 32)
  | .sll c d a _ => decide (c < Config.cores) && decide (d < 32) && decide (a < 32)
  | .srl c d a _ => decide (c < Config.cores) && decide (d < 32) && decide (a < 32)
  | .sra c d a _ => decide (c < Config.cores) && decide (d < 32) && decide (a < 32)
  | .ror c d a _ => decide (c < Config.cores) && decide (d < 32) && decide (a < 32)
  | .slt c d a _ => decide (c < Config.cores) && decide (d < 32) && decide (a < 32)
  | .sltu c d a _ => decide (c < Config.cores) && decide (d < 32) && decide (a < 32)
  | .seq c d a _ => decide (c < Config.cores) && decide (d < 32) && decide (a < 32)
  | .min c d a b => decide (c < Config.cores) && decide (d < 32) && decide (a < 32) && decide (b < 32)
  | .max c d a b => decide (c < Config.cores) && decide (d < 32) && decide (a < 32) && decide (b < 32)
  | .minu c d a b => decide (c < Config.cores) && decide (d < 32) && decide (a < 32) && decide (b < 32)
  | .maxu c d a b => decide (c < Config.cores) && decide (d < 32) && decide (a < 32) && decide (b < 32)
  | .clz c d a => decide (c < Config.cores) && decide (d < 32) && decide (a < 32)
  | .ctz c d a => decide (c < Config.cores) && decide (d < 32) && decide (a < 32)
  | .popc c d a => decide (c < Config.cores) && decide (d < 32) && decide (a < 32)
  | .sext c d a _ => decide (c < Config.cores) && decide (d < 32) && decide (a < 32)
  | .zext c d a _ => decide (c < Config.cores) && decide (d < 32) && decide (a < 32)
  | .csel c d a b e => decide (c < Config.cores) && decide (d < 32) && decide (a < 32) && decide (b < 32) && decide (e < 32)
  | .movk c d _ _ => decide (c < Config.cores) && decide (d < 32)
  | .nop c => decide (c < Config.cores)
  | .j c _ => decide (c < Config.cores)
  | .jal c d _ => decide (c < Config.cores) && decide (d < 32)
  | .jr c a _ => decide (c < Config.cores) && decide (a < 32)
  | .jalr c d a _ => decide (c < Config.cores) && decide (d < 32) && decide (a < 32)
  | .beq c a b _ => decide (c < Config.cores) && decide (a < 32) && decide (b < 32)
  | .bne c a b _ => decide (c < Config.cores) && decide (a < 32) && decide (b < 32)
  | .blt c a b _ => decide (c < Config.cores) && decide (a < 32) && decide (b < 32)
  | .bge c a b _ => decide (c < Config.cores) && decide (a < 32) && decide (b < 32)
  | .bltu c a b _ => decide (c < Config.cores) && decide (a < 32) && decide (b < 32)
  | .bgeu c a b _ => decide (c < Config.cores) && decide (a < 32) && decide (b < 32)
  | .bpany c a _ => decide (c < Config.cores) && decide (a < 32)
  | .bpnone c a _ => decide (c < Config.cores) && decide (a < 32)
  | .icinv c => decide (c < Config.cores)
  | .ld c d a _ _ => decide (c < Config.cores) && decide (d < 32) && decide (a < 32)
  | .st c a b _ => decide (c < Config.cores) && decide (a < 32) && decide (b < 32)
  | .ldx c d a b _ => decide (c < Config.cores) && decide (d < 32) && decide (a < 32) && decide (b < 32)
  | .stx c a b e _ => decide (c < Config.cores) && decide (a < 32) && decide (b < 32) && decide (e < 32)
  | .vadd c d a b _ => decide (c < Config.cores) && decide (d < 32) && decide (a < 32) && decide (b < 32)
  | .vsub c d a b _ => decide (c < Config.cores) && decide (d < 32) && decide (a < 32) && decide (b < 32)
  | .vmul c d a b _ => decide (c < Config.cores) && decide (d < 32) && decide (a < 32) && decide (b < 32)
  | .vmulh c d a b _ => decide (c < Config.cores) && decide (d < 32) && decide (a < 32) && decide (b < 32)
  | .vmin c d a b _ => decide (c < Config.cores) && decide (d < 32) && decide (a < 32) && decide (b < 32)
  | .vmax c d a b _ => decide (c < Config.cores) && decide (d < 32) && decide (a < 32) && decide (b < 32)
  | .vabs c d a _ => decide (c < Config.cores) && decide (d < 32) && decide (a < 32)
  | .vneg c d a _ => decide (c < Config.cores) && decide (d < 32) && decide (a < 32)
  | .vadds c d a b _ => decide (c < Config.cores) && decide (d < 32) && decide (a < 32) && decide (b < 32)
  | .vsubs c d a b _ => decide (c < Config.cores) && decide (d < 32) && decide (a < 32) && decide (b < 32)
  | .vand c d a b _ => decide (c < Config.cores) && decide (d < 32) && decide (a < 32) && decide (b < 32)
  | .vor c d a b _ => decide (c < Config.cores) && decide (d < 32) && decide (a < 32) && decide (b < 32)
  | .vxor c d a b _ => decide (c < Config.cores) && decide (d < 32) && decide (a < 32) && decide (b < 32)
  | .vnot c d a _ => decide (c < Config.cores) && decide (d < 32) && decide (a < 32)
  | .vshl c d a b _ => decide (c < Config.cores) && decide (d < 32) && decide (a < 32) && decide (b < 32)
  | .vshr c d a b _ => decide (c < Config.cores) && decide (d < 32) && decide (a < 32) && decide (b < 32)
  | .vshli c d a _ => decide (c < Config.cores) && decide (d < 32) && decide (a < 32)
  | .vshri c d a _ => decide (c < Config.cores) && decide (d < 32) && decide (a < 32)
  | .vfadd c d a b _ => decide (c < Config.cores) && decide (d < 32) && decide (a < 32) && decide (b < 32)
  | .vfsub c d a b _ => decide (c < Config.cores) && decide (d < 32) && decide (a < 32) && decide (b < 32)
  | .vfmul c d a b _ => decide (c < Config.cores) && decide (d < 32) && decide (a < 32) && decide (b < 32)
  | .vfma c d a b _ => decide (c < Config.cores) && decide (d < 32) && decide (a < 32) && decide (b < 32)
  | .vfmin c d a b _ => decide (c < Config.cores) && decide (d < 32) && decide (a < 32) && decide (b < 32)
  | .vfmax c d a b _ => decide (c < Config.cores) && decide (d < 32) && decide (a < 32) && decide (b < 32)
  | .vfabs c d a _ => decide (c < Config.cores) && decide (d < 32) && decide (a < 32)
  | .vfneg c d a _ => decide (c < Config.cores) && decide (d < 32) && decide (a < 32)
  | .vfdiv c d a b _ => decide (c < Config.cores) && decide (d < 32) && decide (a < 32) && decide (b < 32)
  | .vfsqrt c d a _ => decide (c < Config.cores) && decide (d < 32) && decide (a < 32)
  | .vfrcp c d a _ => decide (c < Config.cores) && decide (d < 32) && decide (a < 32)
  | .vexp2 c d a _ => decide (c < Config.cores) && decide (d < 32) && decide (a < 32)
  | .vlog2 c d a _ => decide (c < Config.cores) && decide (d < 32) && decide (a < 32)
  | .vcmp c d a b _ => decide (c < Config.cores) && decide (d < 32) && decide (a < 32) && decide (b < 32)
  | .vfcmp c d a b _ => decide (c < Config.cores) && decide (d < 32) && decide (a < 32) && decide (b < 32)
  | .pand c d a b => decide (c < Config.cores) && decide (d < 32) && decide (a < 32) && decide (b < 32)
  | .por c d a b => decide (c < Config.cores) && decide (d < 32) && decide (a < 32) && decide (b < 32)
  | .pxor c d a b => decide (c < Config.cores) && decide (d < 32) && decide (a < 32) && decide (b < 32)
  | .pandn c d a b => decide (c < Config.cores) && decide (d < 32) && decide (a < 32) && decide (b < 32)
  | .pnot c d a => decide (c < Config.cores) && decide (d < 32) && decide (a < 32)
  | .pfirst c d a _ => decide (c < Config.cores) && decide (d < 32) && decide (a < 32)
  | .pcnt c d a _ => decide (c < Config.cores) && decide (d < 32) && decide (a < 32)
  | .vmov c d a _ => decide (c < Config.cores) && decide (d < 32) && decide (a < 32)
  | .vbcast c d a _ => decide (c < Config.cores) && decide (d < 32) && decide (a < 32)
  | .vext c d a _ => decide (c < Config.cores) && decide (d < 32) && decide (a < 32)
  | .vins c d a _ => decide (c < Config.cores) && decide (d < 32) && decide (a < 32)
  | .vperm c d a b _ => decide (c < Config.cores) && decide (d < 32) && decide (a < 32) && decide (b < 32)
  | .vslideup c d a _ => decide (c < Config.cores) && decide (d < 32) && decide (a < 32)
  | .vslidedn c d a _ => decide (c < Config.cores) && decide (d < 32) && decide (a < 32)
  | .vred c d a _ => decide (c < Config.cores) && decide (d < 32) && decide (a < 32)
  | .vcvt c d a _ => decide (c < Config.cores) && decide (d < 32) && decide (a < 32)
  | .vmxscale c d a _ => decide (c < Config.cores) && decide (d < 32) && decide (a < 32)
  | .vcvtmx c d a b _ => decide (c < Config.cores) && decide (d < 32) && decide (a < 32) && decide (b < 32)
  | .vmxdec c d a b _ => decide (c < Config.cores) && decide (d < 32) && decide (a < 32) && decide (b < 32)
  | .vld c d a _ => decide (c < Config.cores) && decide (d < 32) && decide (a < 32)
  | .vst c d a _ => decide (c < Config.cores) && decide (d < 32) && decide (a < 32)
  | .vlds c d a b _ => decide (c < Config.cores) && decide (d < 32) && decide (a < 32) && decide (b < 32)
  | .vsts c d a b _ => decide (c < Config.cores) && decide (d < 32) && decide (a < 32) && decide (b < 32)
  | .vldx c d a b _ => decide (c < Config.cores) && decide (d < 32) && decide (a < 32) && decide (b < 32)
  | .vstx c d a b _ => decide (c < Config.cores) && decide (d < 32) && decide (a < 32) && decide (b < 32)
  | .vldb c d a _ => decide (c < Config.cores) && decide (d < 32) && decide (a < 32)
  | .mma c d a b e _ _ _ _ => decide (c < Config.cores) && decide (d < 32) && decide (a < 32) && decide (b < 32) && decide (e < 32)
  | .mmaComplete c => decide (c < Config.cores)
  | .accz c d => decide (c < Config.cores) && decide (d < 32)
  | .accld c d a => decide (c < Config.cores) && decide (d < 32) && decide (a < 32)
  | .accst c a b => decide (c < Config.cores) && decide (a < 32) && decide (b < 32)
  | .acccvt c a b _ _ _ => decide (c < Config.cores) && decide (a < 32) && decide (b < 32)
  | .accrd c d a b => decide (c < Config.cores) && decide (d < 32) && decide (a < 32) && decide (b < 32)
  | .accwr c d a b => decide (c < Config.cores) && decide (d < 32) && decide (a < 32) && decide (b < 32)
  | .tld c d a _ _ => decide (c < Config.cores) && decide (d < 32) && decide (a < 32)
  | .tst c d a _ => decide (c < Config.cores) && decide (d < 32) && decide (a < 32)
  | .tcpy c d a b => decide (c < Config.cores) && decide (d < 32) && decide (a < 32) && decide (b < 32)
  | .tzero c a b => decide (c < Config.cores) && decide (a < 32) && decide (b < 32)
  | .txp c d a _ => decide (c < Config.cores) && decide (d < 32) && decide (a < 32)
  | .fenceC c _ => decide (c < Config.cores)
  | .fenceP c _ => decide (c < Config.cores)
  | .fenceS c _ => decide (c < Config.cores)
  | .bendWfence c a _ => decide (c < Config.cores) && decide (a < 32)
  | .ldrsv c d a _ => decide (c < Config.cores) && decide (d < 32) && decide (a < 32)
  | .stcnd c d a b _ => decide (c < Config.cores) && decide (d < 32) && decide (a < 32) && decide (b < 32)
  | .amoswap c d a b _ => decide (c < Config.cores) && decide (d < 32) && decide (a < 32) && decide (b < 32)
  | .amoadd c d a b _ => decide (c < Config.cores) && decide (d < 32) && decide (a < 32) && decide (b < 32)
  | .amoand c d a b _ => decide (c < Config.cores) && decide (d < 32) && decide (a < 32) && decide (b < 32)
  | .amoor c d a b _ => decide (c < Config.cores) && decide (d < 32) && decide (a < 32) && decide (b < 32)
  | .amoxor c d a b _ => decide (c < Config.cores) && decide (d < 32) && decide (a < 32) && decide (b < 32)
  | .amomin c d a b _ => decide (c < Config.cores) && decide (d < 32) && decide (a < 32) && decide (b < 32)
  | .amomax c d a b _ => decide (c < Config.cores) && decide (d < 32) && decide (a < 32) && decide (b < 32)
  | .amominu c d a b _ => decide (c < Config.cores) && decide (d < 32) && decide (a < 32) && decide (b < 32)
  | .amomaxu c d a b _ => decide (c < Config.cores) && decide (d < 32) && decide (a < 32) && decide (b < 32)
  | .amocas c d a b e _ => decide (c < Config.cores) && decide (d < 32) && decide (a < 32) && decide (b < 32) && decide (e < 32)
  | .amofadd c d a b _ => decide (c < Config.cores) && decide (d < 32) && decide (a < 32) && decide (b < 32)
  | .amofmin c d a b _ => decide (c < Config.cores) && decide (d < 32) && decide (a < 32) && decide (b < 32)
  | .amofmax c d a b _ => decide (c < Config.cores) && decide (d < 32) && decide (a < 32) && decide (b < 32)
  | .stNt c a b _ => decide (c < Config.cores) && decide (a < 32) && decide (b < 32)
  | .vstNt c d a _ => decide (c < Config.cores) && decide (d < 32) && decide (a < 32)
  | .clean c a _ => decide (c < Config.cores) && decide (a < 32)
  | .invalidate c a _ => decide (c < Config.cores) && decide (a < 32)
  | .cleanInv c a _ => decide (c < Config.cores) && decide (a < 32)
  | .zero c a _ => decide (c < Config.cores) && decide (a < 32)
  | .kdec c d a b => decide (c < Config.cores) && decide (d < 32) && decide (a < 32) && decide (b < 32)
  | .kwait c d a b => decide (c < Config.cores) && decide (d < 32) && decide (a < 32) && decide (b < 32)
  | .spawn c d a ring => decide (c < Config.cores) && decide (d < 32) && decide (a < 32) && decide (ring < 64)
  | .spawnTicketWritten c _ => decide (c < Config.cores)
  | .tcancel c d a => decide (c < Config.cores) && decide (d < 32) && decide (a < 32)
  | .tend c a => decide (c < Config.cores) && decide (a < 32)
  | .evmon c a _ => decide (c < Config.cores) && decide (a < 32)
  | .evwait c d a _ => decide (c < Config.cores) && decide (d < 32) && decide (a < 32)
  | .monitorWake c => decide (c < Config.cores)
  | .knotWaitEnd c => decide (c < Config.cores)
  | .waitTimeout c => decide (c < Config.cores)
  | .crr c d _ => decide (c < Config.cores) && decide (d < 32)
  | .crw c a _ => decide (c < Config.cores) && decide (a < 32)
  | .ehint c a => decide (c < Config.cores) && decide (a < 32)
  | .opreq c d _ => decide (c < Config.cores) && decide (d < 32)
  | .rigcallCounters c => decide (c < Config.cores)
  | .rigcallTileClear c => decide (c < Config.cores)
  | .rigcallLog c => decide (c < Config.cores)
  | .rigret c => decide (c < Config.cores)
  | .tilez c => decide (c < Config.cores)
  | .coreAccessResponse c _ _ => decide (c < Config.cores)
  | .energyOverrun c => decide (c < Config.cores)
  | .coreStateUe c => decide (c < Config.cores)
  | .terminationDone c _ => decide (c < Config.cores)
  | .taskWatchdog c => decide (c < Config.cores)
  | .terminationWatchdog c => decide (c < Config.cores)
  | .coreResetEnd c => decide (c < Config.cores)
  | .plyResetEnd y => decide (y < Config.plies)
  | .bayResetEnd k => decide (k < Config.bays)
  | .vaultResetEnd v => decide (v < Config.vaults)
  | .coilResetEnd coil => decide (coil < Config.coils)
  | .submissionDoorbell p coil i _ _ => decide (p < Config.hostPorts) && decide (coil < Config.coils) && decide (i < 64)
  | .completionHeadDoorbell p coil i _ _ => decide (p < Config.hostPorts) && decide (coil < Config.coils) && decide (i < 64)
  | .submissionRingEnable p coil i => decide (p < Config.hostPorts) && decide (coil < Config.coils) && decide (i < 64)
  | .submissionRingDisable p coil i => decide (p < Config.hostPorts) && decide (coil < Config.coils) && decide (i < 64)
  | .completionRingEnable p coil i => decide (p < Config.hostPorts) && decide (coil < Config.coils) && decide (i < 64)
  | .completionRingDisable p coil i => decide (p < Config.hostPorts) && decide (coil < Config.coils) && decide (i < 64)
  | .ticketRead coil i _ => decide (coil < Config.coils) && decide (i < 64)
  | .skflush p coil => decide (p < Config.hostPorts) && decide (coil < Config.coils)
  | .knotRead p coil _ => decide (p < Config.hostPorts) && decide (coil < Config.coils)
  | .knotArm p coil _ _ => decide (p < Config.hostPorts) && decide (coil < Config.coils)
  | .knotDec p coil _ _ => decide (p < Config.hostPorts) && decide (coil < Config.coils)
  | .knotMarkedDec p coil _ _ => decide (p < Config.hostPorts) && decide (coil < Config.coils)
  | .knotReset p coil _ => decide (p < Config.hostPorts) && decide (coil < Config.coils)
  | .cancel p coil _ => decide (p < Config.hostPorts) && decide (coil < Config.coils)
  | .slackTick _ => true
  | .taskPlacement _ => true
  | .dispatch k => decide (k < Config.bays)
  | .taskEnd _ => true
  | .heldRecordRelease coil cring => decide (coil < Config.coils) && decide (cring < 64)
  | .moderationExpiry coil cring => decide (coil < Config.coils) && decide (cring < 64)
  | .coreParkRetain c => decide (c < Config.cores)
  | .coreParkDark c => decide (c < Config.cores)
  | .coreWakeDone c => decide (c < Config.cores)
  | .bayPllStop k => decide (k < Config.bays)
  | .bayPllLock k => decide (k < Config.bays)
  | .tileStorePowerUp c => decide (c < Config.cores)
  | .opChangeDone c => decide (c < Config.cores)
  | .pwrbrakeNAssert => true
  | .pwrbrakeNDeassert => true
  | .pumpFaultIn => true
  | .leakIn => true
  | .inputRange _ => true
  | .inputLoss _ => true
  | .coolantTermUpdate _ _ _ => true
  | .thermalBandChange sensor _ => decide (sensor < 3456)
  | .sensorFault sensor => decide (sensor < 3456)
  | .bayTrip k => decide (k < Config.bays)
  | .bayTripRecovery k => decide (k < Config.bays)
  | .waferTrip _ => true
  | .waferTripRecovery => true
  | .patrolTestStart c => decide (c < Config.cores)
  | .patrolTestDone c _ => decide (c < Config.cores)
  | .pawlWatchdog k => decide (k < Config.bays)
  | .capstanWatchdog => true
  | .tailWrite p ch _ => decide (p < Config.hostPorts) && decide (ch < 12800)
  | .tailWordChange ch => decide (ch < 12800)
  | .descriptorFetched ch _ => decide (ch < 12800)
  | .beatReadData ch => decide (ch < 12800)
  | .beatWriteAck ch => decide (ch < 12800)
  | .descriptorComplete ch => decide (ch < 12800)
  | .statusWriteAck ch => decide (ch < 12800)
  | .channelEnable p ch => decide (p < Config.hostPorts) && decide (ch < 12800)
  | .channelDisable p ch => decide (p < Config.hostPorts) && decide (ch < 12800)
  | .pause p ch => decide (p < Config.hostPorts) && decide (ch < 12800)
  | .pauseClear p ch => decide (p < Config.hostPorts) && decide (ch < 12800)
  | .paused ch => decide (ch < 12800)
  | .channelStopped ch => decide (ch < 12800)
  | .create p coil => decide (p < Config.hostPorts) && decide (coil < Config.coils)
  | .seal p coil => decide (p < Config.hostPorts) && decide (coil < Config.coils)
  | .destroy p coil => decide (p < Config.hostPorts) && decide (coil < Config.coils)
  | .destructionStepEnd coil => decide (coil < Config.coils)
  | .coilRepeatableWrite p coil _ => decide (p < Config.hostPorts) && decide (coil < Config.coils)
  | .plyAssign p y coil => decide (p < Config.hostPorts) && decide (y < Config.plies) && decide (coil < Config.coils)
  | .plyRelease p y => decide (p < Config.hostPorts) && decide (y < Config.plies)
  | .plyClearStepEnd y => decide (y < Config.plies)
  | .shareWrite p coil _ => decide (p < Config.hostPorts) && decide (coil < Config.coils)
  | .quiesce p coil => decide (p < Config.hostPorts) && decide (coil < Config.coils)
  | .resume p coil => decide (p < Config.hostPorts) && decide (coil < Config.coils)
  | .reset p coil => decide (p < Config.hostPorts) && decide (coil < Config.coils)
  | .bendEnable p b => decide (p < Config.hostPorts) && decide (b < Config.bendPorts)
  | .bendDisable p b => decide (p < Config.hostPorts) && decide (b < Config.bendPorts)
  | .trainingStepEnd b _ => decide (b < Config.bendPorts)
  | .trainingRetry b => decide (b < Config.bendPorts)
  | .flitReceived b _ _ _ => decide (b < Config.bendPorts)
  | .nak b _ => decide (b < Config.bendPorts)
  | .init b _ _ _ _ => decide (b < Config.bendPorts)
  | .initAck b => decide (b < Config.bendPorts)
  | .down b => decide (b < Config.bendPorts)
  | .initResend b => decide (b < Config.bendPorts)
  | .ackTimer b => decide (b < Config.bendPorts)
  | .replayTimeout b => decide (b < Config.bendPorts)
  | .recoveryEnd b _ _ => decide (b < Config.bendPorts)
  | .lossOfSignal b => decide (b < Config.bendPorts)
  | .retrain p b => decide (p < Config.hostPorts) && decide (b < Config.bendPorts)
  | .rd b _ => decide (b < Config.bendPorts)
  | .wr b => decide (b < Config.bendPorts)
  | .bendAtom b => decide (b < Config.bendPorts)
  | .wfence b => decide (b < Config.bendPorts)
  | .msg b => decide (b < Config.bendPorts)
  | .rdData b => decide (b < Config.bendPorts)
  | .cmp b => decide (b < Config.bendPorts)
  | .atomData b => decide (b < Config.bendPorts)
  | .bendRequestTimeout b _ => decide (b < Config.bendPorts)
  | .windowOpen p b w coil _ _ _ _ _ => decide (p < Config.hostPorts) && decide (b < Config.bendPorts) && decide (w < 256) && decide (coil < Config.coils)
  | .windowClose p b w => decide (p < Config.hostPorts) && decide (b < Config.bendPorts) && decide (w < 256)
  | .windowDrained b _ i => decide (b < Config.bendPorts) && decide (i < 256)
  | .spliceEntryValid p b e coil _ _ _ _ _ => decide (p < Config.hostPorts) && decide (b < Config.bendPorts) && decide (e < 256) && decide (coil < Config.coils)
  | .spliceEntryInvalidate p b e => decide (p < Config.hostPorts) && decide (b < Config.bendPorts) && decide (e < 256)
  | .msgPartialTimeout b w _ => decide (b < Config.bendPorts) && decide (w < 256)
  | .halyardStart c => decide (c < Config.cores)
  | .halyardStop coil => decide (coil < Config.coils)
  | .requestSubmit coil _ _ => decide (coil < Config.coils)
  | .halyardStep coil _ => decide (coil < Config.coils)
  | .halyardRecovery coil => decide (coil < Config.coils)
  | .forwardTimeout coil _ => decide (coil < Config.coils)
  | .fragmentTimeout coil _ _ => decide (coil < Config.coils)
  | .cleatWatchdog => true
  | .gwynResume => true
  | .nvmUpdateDone => true
  | .plateUpdateStart _ => true
  | .plateStepDone => true
  | .coalesceExpiry _ _ _ => true
  | .eventVectorHoldoff p => decide (p < Config.hostPorts)
  | .eventPop p => decide (p < Config.hostPorts)
  | .clGpioWrite p pin _ _ => decide (p < Config.hostPorts) && decide (pin < 4)
  | .clFenceReq p _ _ => decide (p < Config.hostPorts)
  | .skeinVerify p coil => decide (p < Config.hostPorts) && decide (coil < Config.coils)
  | .skeinVerifyDone _ _ => true
  | .tsyncEdge _ => true
  | .tsyncEdgeMissed => true
  | .locateN _ => true
  | .locateTimeout => true
  | .osfpInsert b cage => decide (b < Config.bendPorts) && decide (cage < 4)
  | .osfpFault b cage => decide (b < Config.bendPorts) && decide (cage < 4)
  | .setEndpointId _ => true
  | .getEndpointId => true
  | .getEndpointUuid => true
  | .getMctpVersionSupport _ => true
  | .getMessageTypeSupport => true
  | .getPdr _ => true
  | .getPdrRepositoryInfo => true
  | .getSensorReading _ _ => true
  | .getStateSensorReadings _ => true
  | .powerCapVolatile _ => true
  | .powerCapPersistent _ => true
  | .locate _ _ => true
  | .getNumericEffecterValue _ => true
  | .getStateEffecterStates _ => true
  | .setEventReceiver _ => true
  | .waferReset => true
  | .bayReset k => decide (k < Config.bays)
  | .portReset _ _ => true
  | .portHold p => decide (p < Config.hostPorts)
  | .portRelease p => decide (p < Config.hostPorts)
  | .selfTestMode _ => true
  | .stopperClear _ _ => true
  | .fenceRequest _ => true
  | .controlPort p => decide (p < Config.hostPorts)
  | .gpioClaim pin _ _ => decide (pin < 4)
  | .bendSettings b _ _ => decide (b < Config.bendPorts)
  | .eventRead _ _ _ => true
  | .eventAck _ _ => true
  | .eventConfig _ => true
  | .mapRead _ => true
  | .plateRedraw => true
  | .setTime _ => true
  | .fwCommit => true
  | .fwRollback => true
  | .fuseMinVersion _ => true
  | .requestUpdate => true
  | .passComponentTable _ => true
  | .updateComponent _ => true
  | .firmwareDataReceived _ _ _ _ => true
  | .activateFirmware => true
  | .trialTimeout => true
  | .imageCopyDone => true
  | .getCertificate _ => true
  | .challenge _ => true
  | .getMeasurements _ => true
  | .keyExchange => true
  | .heartbeat _ => true
  | .keyUpdate _ => true
  | .rcRead _ _ _ => true
  | .registerWrite _ _ _ _ => true
  | .pumpFaultInRelease => true
  | .routerInternalError k => decide (k < Config.bays)
  | .tackleInternalFault y => decide (y < Config.plies)
  | .vaultRefreshChange v _ => decide (v < Config.vaults)
  | .recordWriteAck _ => true
  | .skeinEntryRead _ _ => true
  | .illegalInstruction c => decide (c < Config.cores)
  | .testAccessPort _ _ => true

end Sys2Proof
end

