-- ==== Sys2Proof/Certificates/Slice0/Obligations.lean ====
section
/-!
DEFINITION. The statements about the W20, from the numbered rules of its spec.
-/
open Sys2Proof Sys2Proof.Machine

/-- A command that sets the listed register fields, and changes nothing else but the pins and the messages of the step. -/
def Sets (i : Instr) (s : State) (l : List (Fld × Nat × Nat)) : Prop :=
  Completes i s (fun t => (∀ e ∈ l, t.fld e.1 e.2.1 = e.2.2) ∧ (∀ f n, (∀ e ∈ l, e.1 ≠ f ∨ e.2.1 ≠ n) → t.fld f n = s.fld f n) ∧
    t = { s with regs := t.regs, out := [], outputs := t.outputs })

/-- A command that leaves core `c` as `x`, and changes nothing else but the pins and the messages of the step. -/
def CoreIs (i : Instr) (c : Nat) (x : Core) (s : State) : Prop :=
  Completes i s (fun t => t.core c = x ∧ (∀ j, j ≠ c → t.core j = s.core j) ∧ t = { s with cores := t.cores, out := [], outputs := t.outputs })

/-- A command that sends one message, and changes nothing else but the pins. -/
def Sends (i : Instr) (s : State) (m : Out) : Prop := Completes i s (fun t => t = { s with out := [m], outputs := t.outputs })

/-- A line of vault `v` that no device cache holds, with good data of the vault's present owner. -/
def PlainLine (s : State) (line v : Nat) : Prop :=
  lineVault line = some v ∧ (∀ y, (s.ply y).copy line = none) ∧ s.dirtyCopies (fun l x => l = line && !x.str) = [] ∧
    (s.line line).poison = false ∧ s.tagMismatch line v = false ∧ ((s.line line).tag = none ∨ (s.line line).tag = s.writeTag v)

/-- The Spool governor pauses the coil, whose Spool requests then wait (R249). -/
def GovPaused (s : State) (coil : Option Nat) : Prop := ∃ c, coil = some c ∧ s.fld .SP_RSV_PAUSED c ≠ 0

/-- The Spool governor does not pause the coil of the request. -/
def GovRuns (s : State) (coil : Option Nat) : Prop := ∀ c, coil = some c → s.fld .SP_RSV_PAUSED c = 0

/-- After a write of `n` bytes at `w` whose number is `v`, those bytes hold it and every other byte of memory is as before. -/
def Wrote (w n v : Nat) (s t : State) : Prop := t.load w n = v ∧ ∀ k, k < w ∨ w + n ≤ k → t.byte k = s.byte k

/-- A scalar instruction on core `c` gives register `d` the value `v`, and changes nothing else (Table 13.4, R442). -/
def Gives (i : Instr) (c d : Nat) (v : Word) (s : State) : Prop :=
  Completes i s (Retires c (((s.core c).setG d v).at_ ((s.core c).pc + 8)) s)

/-- Scalar arithmetic, comparison and selection of Table 13.4 (R449, R451), for every core whose next instruction may issue. -/
def ScalarArithmeticResultsPart : Prop :=
  ∀ (s : State) (c d a b e : Nat), d < 32 → a < 32 → b < 32 → e < 32 → s.mayIssue c { g := [d, a, b, e] } = true →
    let x := (s.core c).rg a
    let y := (s.core c).rg b
    Gives (.add c d a (.reg b)) c d (x + y) s ∧
    Gives (.sub c d a b) c d (x - y) s ∧
    Gives (.mul c d a (.reg b)) c d (x * y) s ∧
    Gives (.mulh c d a b) c d (BitVec.ofInt 64 (x.toInt * y.toInt / 2 ^ 64)) s ∧
    Gives (.mulhu c d a b) c d (BitVec.ofNat 64 (x.toNat * y.toNat / 2 ^ 64)) s ∧
    Gives (.div c d a b) c d (if y = 0 then BitVec.allOnes 64 else x.sdiv y) s ∧
    Gives (.divu c d a b) c d (if y = 0 then BitVec.allOnes 64 else x / y) s ∧
    Gives (.rem c d a b) c d (if y = 0 then x else x.srem y) s ∧
    Gives (.remu c d a b) c d (if y = 0 then x else x % y) s ∧
    (x = BitVec.intMin 64 → y = BitVec.allOnes 64 → Gives (.div c d a b) c d (BitVec.intMin 64) s ∧ Gives (.rem c d a b) c d 0 s) ∧
    Gives (.slt c d a (.reg b)) c d (if x.toInt < y.toInt then 1 else 0) s ∧
    Gives (.sltu c d a (.reg b)) c d (if x.toNat < y.toNat then 1 else 0) s ∧
    Gives (.seq c d a (.reg b)) c d (if x = y then 1 else 0) s ∧
    Gives (.min c d a b) c d (if y.toInt < x.toInt then y else x) s ∧
    Gives (.max c d a b) c d (if x.toInt < y.toInt then y else x) s ∧
    Gives (.minu c d a b) c d (if y.toNat < x.toNat then y else x) s ∧
    Gives (.maxu c d a b) c d (if x.toNat < y.toNat then y else x) s ∧
    Gives (.csel c d a b e) c d (if (s.core c).rg e ≠ 0 then x else y) s

/-- Scalar logic, shifts, bit counts, extension and immediate insertion of Table 13.4 (R449). -/
def ScalarLogicResultsPart : Prop :=
  ∀ (s : State) (c d a b w h imm : Nat), d < 32 → a < 32 → b < 32 → w < 3 → h < 4 → imm < 2 ^ 16 → s.mayIssue c { g := [d, a, b] } = true →
    let x := (s.core c).rg a
    let y := (s.core c).rg b
    Gives (.and c d a (.reg b)) c d (x &&& y) s ∧
    Gives (.or c d a (.reg b)) c d (x ||| y) s ∧
    Gives (.xor c d a (.reg b)) c d (x ^^^ y) s ∧
    Gives (.andn c d a b) c d (x &&& ~~~y) s ∧
    Gives (.sll c d a (.reg b)) c d (x <<< (y.toNat % 64)) s ∧
    Gives (.srl c d a (.reg b)) c d (x >>> (y.toNat % 64)) s ∧
    Gives (.sra c d a (.reg b)) c d (x.sshiftRight (y.toNat % 64)) s ∧
    Gives (.ror c d a (.reg b)) c d (x.rotateRight (y.toNat % 64)) s ∧
    (∃ n ≤ 64, (∀ k, k < n → x.getLsbD (63 - k) = false) ∧ (n < 64 → x.getLsbD (63 - n) = true) ∧ Gives (.clz c d a) c d (BitVec.ofNat 64 n) s) ∧
    (∃ n ≤ 64, (∀ k, k < n → x.getLsbD k = false) ∧ (n < 64 → x.getLsbD n = true) ∧ Gives (.ctz c d a) c d (BitVec.ofNat 64 n) s) ∧
    Gives (.popc c d a) c d (BitVec.ofNat 64 ((List.range 64).countP x.getLsbD)) s ∧
    Gives (.sext c d a w) c d ((x.setWidth (8 * 2 ^ w)).signExtend 64) s ∧
    Gives (.zext c d a w) c d ((x.setWidth (8 * 2 ^ w)).setWidth 64) s ∧
    (∃ v : Word, (∀ k, k < 64 → v.getLsbD k = if k / 16 = h then imm.testBit (k % 16) else ((s.core c).rg d).getLsbD k) ∧
      Gives (.movk c d imm h) c d v s)

/-- The immediate of an ALU instruction is MOD[27:0] sign-extended, that of a shift MOD[5:0] (R450). -/
def ScalarImmediatesPart : Prop :=
  ∀ (s : State) (c d a v n : Nat), d < 32 → a < 32 → v < 2 ^ 28 → n < 64 → s.mayIssue c { g := [d, a] } = true →
    let x := (s.core c).rg a
    let y := BitVec.ofInt 64 (if v < 2 ^ 27 then (v : Int) else (v : Int) - 2 ^ 28)
    Gives (.add c d a (.imm v)) c d (x + y) s ∧
    Gives (.mul c d a (.imm v)) c d (x * y) s ∧
    Gives (.and c d a (.imm v)) c d (x &&& y) s ∧
    Gives (.or c d a (.imm v)) c d (x ||| y) s ∧
    Gives (.xor c d a (.imm v)) c d (x ^^^ y) s ∧
    Gives (.slt c d a (.imm v)) c d (if x.toInt < y.toInt then 1 else 0) s ∧
    Gives (.sltu c d a (.imm v)) c d (if x.toNat < y.toNat then 1 else 0) s ∧
    Gives (.seq c d a (.imm v)) c d (if x = y then 1 else 0) s ∧
    Gives (.sll c d a (.imm n)) c d (x <<< n) s ∧
    Gives (.srl c d a (.imm n)) c d (x >>> n) s ∧
    Gives (.sra c d a (.imm n)) c d (x.sshiftRight n) s ∧
    Gives (.ror c d a (.imm n)) c d (x.rotateRight n) s

/-- g0 and p0: a write is discarded, and g0 reads as zero, p0 as all ones (R411); any other register reads what was written. -/
def Obligations.HardWiredRegisters : Prop :=
  ∀ (x : Core) (n m : Nat) (v : Word) (q : BitVec 128),
    x.rg 0 = 0 ∧ x.setG 0 v = x ∧ x.rp 0 = BitVec.allOnes 128 ∧ x.setP 0 q = x ∧
    (n ≠ 0 → (x.setG n v).rg n = v ∧ (x.setP n q).rp n = q ∧ (m ≠ n → (x.setG n v).rg m = x.rg m ∧ (x.setP n q).rp m = x.rp m))

/-- A jump or branch on core `c` continues at `pc`. -/
def GoesTo (i : Instr) (c pc : Nat) (s : State) : Prop := Completes i s (Retires c ((s.core c).at_ pc) s)

/-- Branch and control instructions (Table 13.5, R452 to R454): the target is the address plus 8 times the sign-extended MOD[27:0], mod 2^64. -/
def Obligations.BranchTargets : Prop :=
  ∀ (s : State) (c d a b off : Nat), d < 32 → a < 32 → b < 32 → off < 2 ^ 28 → s.mayIssue c { g := [d, a, b] } = true →
    let x := s.core c
    let u := x.rg a
    let v := x.rg b
    let by_ : Int := 8 * (if off < 2 ^ 27 then (off : Int) else (off : Int) - 2 ^ 28)
    let taken := ((x.pc + by_) % 2 ^ 64).toNat
    let far := ((u.toNat + by_) % 2 ^ 64).toNat
    let link := x.setG d (BitVec.ofNat 64 (x.pc + 8))
    GoesTo (.nop c) c (x.pc + 8) s ∧
    GoesTo (.j c off) c taken s ∧
    Completes (.jal c d off) s (Retires c (link.at_ taken) s) ∧
    (far % 8 = 0 → GoesTo (.jr c a off) c far s ∧ Completes (.jalr c d a off) s (Retires c (link.at_ far) s)) ∧
    GoesTo (.beq c a b off) c (if u = v then taken else x.pc + 8) s ∧
    GoesTo (.bne c a b off) c (if u ≠ v then taken else x.pc + 8) s ∧
    GoesTo (.blt c a b off) c (if u.toInt < v.toInt then taken else x.pc + 8) s ∧
    GoesTo (.bge c a b off) c (if v.toInt ≤ u.toInt then taken else x.pc + 8) s ∧
    GoesTo (.bltu c a b off) c (if u.toNat < v.toNat then taken else x.pc + 8) s ∧
    GoesTo (.bgeu c a b off) c (if v.toNat ≤ u.toNat then taken else x.pc + 8) s ∧
    (a < 8 → GoesTo (.bpany c a off) c (if x.rp a ≠ 0 then taken else x.pc + 8) s ∧
      GoesTo (.bpnone c a off) c (if x.rp a = 0 then taken else x.pc + 8) s) ∧
    Completes (.icinv c) s (Retires c ({ x with l1i := [] }.at_ (x.pc + 8)) s)

/-- An illegal instruction, a register number outside its file and a misaligned jump target fault precisely and change no register (R447, R453):
the task ends with the fault code, the PC and the address in its fault record. -/
def Obligations.PreciseFaults : Prop :=
  ∀ (s : State) (c d a off : Nat), s.mayIssue c { g := [d, a] } = true → (s.core c).fault = none → (s.core c).rig = false →
    let ends := fun (i : Instr) (code addr : Nat) => Completes i s (fun t => (t.core c).g = (s.core c).g ∧ (t.core c).pc = (s.core c).pc ∧ t.mem = s.mem ∧
      (t.core c).ending = true ∧ (t.core c).fault = some { code := code, cause := 0, pc := (s.core c).pc, addr := addr })
    ends (.illegalInstruction c) 6 0 ∧
    (32 ≤ d → ends (.clz c d a) 6 0) ∧
    (d < 32 → a < 32 → off < 2 ^ 28 → ∀ t, t = brTarget ((s.core c).rg a).toNat off → t % 8 ≠ 0 →
      ends (.jr c a off) 5 t ∧ ends (.jalr c d a off) 5 t)

/-- The flags that the active elements raise. -/
def flagsOf (n : Nat) (on : Nat → Bool) (f : Nat → Nat × Nat) : Nat :=
  (List.range n).foldl (fun acc e => if on e then acc ||| (f e).2 else acc) 0

/-- A vector instruction on core `c` gives element `e` of register `d` the first part of `f e` where `e` is active, zero where it is inactive
under Z, and leaves it otherwise; the flags of the active elements join CC_FPFLAGS, and nothing else changes (R429, R460, R461). -/
def VecGives (i : Instr) (c d : Nat) (m : VMod) (s : State) (f : Nat → Nat × Nat) : Prop :=
  let w := tyWidth m.ty
  let x := s.core c
  let on := fun (e : Nat) => (x.rp m.pred).getLsbD (e * w / 8)
  Completes i s (fun t =>
    Retires c ({ x with v := (t.core c).v, cc := (t.core c).cc }.at_ (x.pc + 8)) s t ∧
    (∀ e, e < 1024 / w → elem ((t.core c).rv d) w e = if on e then (f e).1 % 2 ^ w else if m.z then 0 else elem (x.rv d) w e) ∧
    (∀ r, r ≠ d → (t.core c).rv r = x.rv r) ∧
    (t.core c).cr 9 = x.cr 9 ||| flagsOf (1024 / w) on f ∧
    (∀ n, n ≠ 9 → (t.core c).cr n = x.cr n))

/-- The operand registers of a vector instruction exist and none of them awaits a value. -/
def VecReady (s : State) (c d a b : Nat) : Prop := d < 32 ∧ a < 32 ∧ b < 32 ∧ s.mayIssue c { g := [a, b], v := [d, a, b] } = true

/-- Vector integer arithmetic, logic and shifts (Table 13.10): modular, saturating with the flag, high halves, and counts of a width or more. -/
def VectorIntegerResultsPart : Prop :=
  ∀ (s : State) (c d a b : Nat) (m : VMod), VecReady s c d a b →
    let w := tyWidth m.ty
    let x := fun (e : Nat) => elem ((s.core c).rv a) w e
    let y := fun (e : Nat) => elem ((s.core c).rv b) w e
    let si := fun (v : Nat) => toSigned w v
    let iv := fun (v : Nat) => if m.u then (v : Int) else toSigned w v
    let lo : Int := if m.u then 0 else -(2 ^ (w - 1))
    let hi : Int := if m.u then 2 ^ w - 1 else 2 ^ (w - 1) - 1
    let sat := fun (v : Int) => (ofSigned w (if v < lo then lo else if hi < v then hi else v), if v < lo ∨ hi < v then flSaturated else 0)
    (vmodOk m {} tyInt = true →
      VecGives (.vadd c d a b m) c d m s (fun e => (x e + y e, 0)) ∧
      VecGives (.vsub c d a b m) c d m s (fun e => (ofSigned w ((x e : Int) - y e), 0)) ∧
      VecGives (.vmul c d a b m) c d m s (fun e => (x e * y e, 0)) ∧
      VecGives (.vabs c d a m) c d m s (fun e => ((si (x e)).natAbs, 0)) ∧
      VecGives (.vneg c d a m) c d m s (fun e => (ofSigned w (-(x e : Int)), 0)) ∧
      VecGives (.vshl c d a b m) c d m s (fun e => (if w ≤ y e then 0 else x e * 2 ^ y e, 0))) ∧
    (vmodOk m { u := true } tyInt = true →
      VecGives (.vmulh c d a b m) c d m s (fun e => (ofSigned w (iv (x e) * iv (y e) / 2 ^ w), 0)) ∧
      VecGives (.vmin c d a b m) c d m s (fun e => (if iv (y e) < iv (x e) then y e else x e, 0)) ∧
      VecGives (.vmax c d a b m) c d m s (fun e => (if iv (x e) < iv (y e) then y e else x e, 0)) ∧
      VecGives (.vadds c d a b m) c d m s (fun e => sat (iv (x e) + iv (y e))) ∧
      VecGives (.vsubs c d a b m) c d m s (fun e => sat (iv (x e) - iv (y e))) ∧
      VecGives (.vshr c d a b m) c d m s (fun e => (ofSigned w (iv (x e) / 2 ^ min (y e) w), 0))) ∧
    (vmodOk m { imm := true } tyInt = true → m.imm < w → VecGives (.vshli c d a m) c d m s (fun e => (x e * 2 ^ m.imm, 0))) ∧
    (vmodOk m { u := true, imm := true } tyInt = true → m.imm < w → VecGives (.vshri c d a m) c d m s (fun e => (ofSigned w (iv (x e) / 2 ^ m.imm), 0)))

/-- Vector logic and moves (Table 13.10, R462): bit by bit, by broadcast, permutation and slide. -/
def VectorLogicAndMovesPart : Prop :=
  ∀ (s : State) (c d a b : Nat) (m : VMod), VecReady s c d a b →
    let w := tyWidth m.ty
    let n := 1024 / w
    let x := fun (e : Nat) => elem ((s.core c).rv a) w e
    let y := fun (e : Nat) => elem ((s.core c).rv b) w e
    (vmodOk m {} tyAll = true →
      VecGives (.vand c d a b m) c d m s (fun e => (x e &&& y e, 0)) ∧
      VecGives (.vor c d a b m) c d m s (fun e => (x e ||| y e, 0)) ∧
      VecGives (.vxor c d a b m) c d m s (fun e => (x e ^^^ y e, 0)) ∧
      VecGives (.vnot c d a m) c d m s (fun e => (2 ^ w - 1 - x e, 0)) ∧
      VecGives (.vmov c d a m) c d m s (fun e => (x e, 0)) ∧
      VecGives (.vbcast c d a m) c d m s (fun _ => (((s.core c).rg a).toNat, 0)) ∧
      VecGives (.vperm c d a b m) c d m s (fun e => (x (y e % n), 0))) ∧
    (vmodOk m { imm := true } tyAll = true → m.imm < n →
      VecGives (.vslideup c d a m) c d m s (fun e => (if m.imm ≤ e then x (e - m.imm) else 0, 0)) ∧
      VecGives (.vslidedn c d a m) c d m s (fun e => (if e + m.imm < n then x (e + m.imm) else 0, 0)))

/-- Vector floating point (Table 13.10, R463): each active element by the format's operation under the rounding mode of RMO, with its flags. It rests on the model's choices of log entries 3, 25. -/
def Obligations.VectorFloatResults : Prop :=
  ∀ (s : State) (c d a b : Nat) (m : VMod), VecReady s c d a b →
    let w := tyWidth m.ty
    let f := fmtOf m.ty
    let q := (s.core c).rv
    let x := fun (e : Nat) => f.decode (elem (q a) w e)
    let y := fun (e : Nat) => f.decode (elem (q b) w e)
    let z := fun (e : Nat) => f.decode (elem (q d) w e)
    let rm := plainRm ((s.core c).rmCode m.rmo)
    (vmodOk m { rmo := true } tyFp = true →
      VecGives (.vfadd c d a b m) c d m s (fun e => f.add rm (x e) (y e)) ∧
      VecGives (.vfsub c d a b m) c d m s (fun e => f.add rm (x e) (y e).neg) ∧
      VecGives (.vfmul c d a b m) c d m s (fun e => f.mul rm (x e) (y e)) ∧
      VecGives (.vfma c d a b m) c d m s (fun e => f.fma rm (x e) (y e) (z e)) ∧
      VecGives (.vfdiv c d a b m) c d m s (fun e => f.div rm (x e) (y e)) ∧
      VecGives (.vfsqrt c d a m) c d m s (fun e => f.sqrt rm (x e)) ∧
      VecGives (.vfrcp c d a m) c d m s (fun e => f.div rm (.fin false 1 0) (x e)) ∧
      VecGives (.vexp2 c d a m) c d m s (fun e => f.exp2 rm (x e)) ∧
      VecGives (.vlog2 c d a m) c d m s (fun e => f.log2 rm (x e))) ∧
    (vmodOk m {} tyFp = true →
      VecGives (.vfmin c d a b m) c d m s (fun e => (f.minMax false (elem (q a) w e) (elem (q b) w e), 0)) ∧
      VecGives (.vfmax c d a b m) c d m s (fun e => (f.minMax true (elem (q a) w e) (elem (q b) w e), 0)) ∧
      VecGives (.vfabs c d a m) c d m s (fun e => (if (x e).isNan then f.nan else elem (q a) w e % 2 ^ (w - 1), 0)) ∧
      VecGives (.vfneg c d a m) c d m s (fun e => (if (x e).isNan then f.nan else elem (q a) w e ^^^ 2 ^ (w - 1), 0)))

/-- An instruction gives predicate register `d` a value (p0 stays as it is), may raise flags, and changes nothing else. -/
def PredGives (i : Instr) (c d : Nat) (v : BitVec 128) (s : State) : Prop :=
  Completes i s (Retires c (((s.core c).setP d v).at_ ((s.core c).pc + 8)) s)

/-- A compare sets every predicate bit of each active element to its condition, and clears or keeps those of an inactive one as Z says. -/
def Compares (i : Instr) (c d : Nat) (m : VMod) (s : State) (f : Nat → Bool × Nat) : Prop :=
  let w := tyWidth m.ty
  let x := s.core c
  let on := fun (e : Nat) => (x.rp m.pred).getLsbD (e * w / 8)
  Completes i s (fun t =>
    Retires c ({ x with p := (t.core c).p, cc := (t.core c).cc }.at_ (x.pc + 8)) s t ∧
    (d ≠ 0 → ∀ k, k < 128 → ((t.core c).rp d).getLsbD k =
      let e := k * 8 / w
      if on e then (f e).1 else if m.z then false else (x.rp d).getLsbD k) ∧
    (∀ r, r ≠ d → (t.core c).rp r = x.rp r) ∧
    (t.core c).cr 9 = x.cr 9 ||| flagsOf (1024 / w) on (fun e => (0, (f e).2)))

/-- Compares and predicate operations (R464, Table 13.11). -/
def Obligations.ComparesAndPredicates : Prop :=
  ∀ (s : State) (c d a b : Nat) (m : VMod), d < 8 → a < 8 → b < 8 → s.mayIssue c { g := [d, a], v := [a, b] } = true →
    let w := tyWidth m.ty
    let x := fun (e : Nat) => elem ((s.core c).rv a) w e
    let y := fun (e : Nat) => elem ((s.core c).rv b) w e
    let p := (s.core c).rp
    (vmodOk m { u := true, sub := true } tyInt = true → m.sub < 6 → Compares (.vcmp c d a b m) c d m s (fun e =>
      let i := ival w m.u (x e)
      let j := ival w m.u (y e)
      ((m.sub = 0 && i = j) || (m.sub = 1 && i ≠ j) || (m.sub = 2 && decide (i < j)) || (m.sub = 3 && decide (i ≤ j)) ||
        (m.sub = 4 && decide (j < i)) || (m.sub = 5 && decide (j ≤ i)), 0))) ∧
    (vmodOk m { sub := true } tyFp = true → m.sub < 7 → Compares (.vfcmp c d a b m) c d m s (fun e =>
      let i := (fmtOf m.ty).decode (x e)
      let j := (fmtOf m.ty).decode (y e)
      let un := i.isNan || j.isNan
      (condOf m.sub (!un && FpVal.lt false i j) (FpVal.same i j) un,
        if un && decide (2 ≤ m.sub ∧ m.sub ≤ 5) then flInvalid else sigFlag i ||| sigFlag j))) ∧
    PredGives (.pand c d a b) c d (p a &&& p b) s ∧
    PredGives (.por c d a b) c d (p a ||| p b) s ∧
    PredGives (.pxor c d a b) c d (p a ^^^ p b) s ∧
    PredGives (.pandn c d a b) c d (p a &&& ~~~p b) s ∧
    PredGives (.pnot c d a) c d (~~~p a) s ∧
    (∀ ty, 1 ≤ ty → ty < 10 → tyWidth ty ≠ 4 → PredGives (.pfirst c d a ty) c d
      (BitVec.ofNat 128 (2 ^ (min (max ((s.core c).rg a).toInt 0).toNat (1024 / tyWidth ty) * tyWidth ty / 8) - 1)) s) ∧
    (∀ ty, ty < 10 → Gives (.pcnt c d a ty) c d (BitVec.ofNat 64 ((List.range (1024 / tyWidth ty)).countP (fun e => (p a).getLsbD (e * tyWidth ty / 8)))) s)

/-- Element moves, the integer sum of a reduction, and conversions (R462, R465 to R467). It rests on the model's choices of log entries 3, 25. -/
def Obligations.VectorElementsAndConversions : Prop :=
  ∀ (s : State) (c d a b : Nat) (m : VMod), d < 32 → a < 32 → b < 32 → s.mayIssue c { g := [d, a, b], v := [d, a] } = true →
    let w := tyWidth m.ty
    let x := s.core c
    let on := fun (e : Nat) => (x.rp m.pred).getLsbD (e * w / 8)
    (vmodOk m { u := true, imm := true, pred := false } tyElem = true → m.imm < 1024 / w →
      Gives (.vext c d a m) c d (if m.u then BitVec.ofNat 64 (elem (x.rv a) w m.imm) else BitVec.ofInt 64 (toSigned w (elem (x.rv a) w m.imm))) s) ∧
    (vmodOk m { imm := true, pred := false } tyElem = true → m.imm < 1024 / w →
      Completes (.vins c d a m) s (fun t => (∀ e, e < 1024 / w → elem ((t.core c).rv d) w e =
          if e = m.imm then (x.rg a).toNat % 2 ^ w else elem (x.rv d) w e) ∧
        (∀ r, r ≠ d → (t.core c).rv r = x.rv r) ∧ Retires c ({ x with v := (t.core c).v }.at_ (x.pc + 8)) s t)) ∧
    (vmodOk m { sub := true } tyInt = true → m.sub = 0 → m.z = false →
      Completes (.vred c d a m) s (fun t => (t.core c).rv d =
          BitVec.ofNat 1024 ((((List.range (1024 / w)).filter on).foldl (fun n e => n + elem (x.rv a) w e) 0) % 2 ^ w) ∧
        (∀ r, r ≠ d → (t.core c).rv r = x.rv r) ∧ (t.core c).pc = (x.pc + 8) % 2 ^ 64 ∧ t.mem = s.mem)) ∧
    (vmodOk m { rmo := true, ty2 := true, part := true } tyFp = true → m.ty2 ∈ tyFp → tyWidth m.ty2 = w → m.ty ≠ m.ty2 → m.part = 0 →
      Completes (.vcvt c d a m) s (fun t => (∀ e, e < 1024 / w → elem ((t.core c).rv d) w e =
          if on e then (tyConvert m.ty (x.convRm (x.rmCode m.rmo) m.ty e) x.sat false (tyValue m.ty2 false (elem (x.rv a) w e))).1 % 2 ^ w
          else if m.z then 0 else elem (x.rv d) w e) ∧
        (∀ r, r ≠ d → (t.core c).rv r = x.rv r) ∧ (t.core c).pc = (x.pc + 8) % 2 ^ 64 ∧ t.mem = s.mem)) ∧
    (vmodOk m { pred := false } tyMx = true →
      Gives (.vmxscale c d a m) c d (BitVec.ofNat 64 (mxScale m.ty ((List.range 32).map (fun i => fp32.decode (elem (x.rv a) 32 i))))) s) ∧
    (vmodOk m { rmo := true, part := true, pred := false } tyMx = true → (m.part + 1) * 32 * w ≤ 1024 → (x.rg b).toNat % 256 ≠ 255 →
      let k : Int := ((x.rg b).toNat % 256 : Nat)
      Completes (.vcvtmx c d a b m) s (fun t => (∀ e, e < 32 → elem ((t.core c).rv d) w (m.part * 32 + e) =
          (tyConvert m.ty (x.convRm (x.rmCode m.rmo) m.ty e) true false ((fp32.decode (elem (x.rv a) 32 e)).scale (127 - k))).1 % 2 ^ w) ∧
        (∀ r, r ≠ d → (t.core c).rv r = x.rv r) ∧ (t.core c).pc = (x.pc + 8) % 2 ^ 64 ∧ t.mem = s.mem) ∧
      Completes (.vmxdec c d a b m) s (fun t => (∀ e, e < 32 → elem ((t.core c).rv d) 32 e =
          (tyConvert 7 (plainRm (x.rmCode m.rmo)) x.sat false ((tyValue m.ty false (elem (x.rv a) w (m.part * 32 + e))).scale (k - 127))).1 % 2 ^ 32) ∧
        (∀ r, r ≠ d → (t.core c).rv r = x.rv r) ∧ (t.core c).pc = (x.pc + 8) % 2 ^ 64 ∧ t.mem = s.mem))

/-- An extent of `n` bytes from `ta` lies in the tile store, aligned to 8 B, and no MMA in flight reads it. -/
def TileFree (x : Core) (ta n : Nat) : Prop := ta % 8 = 0 ∧ ta + n ≤ 0x200000 ∧ ta < 0x200000 ∧ x.mmaReads ta n = false

/-- An instruction writes the `n` bytes `f` from `ta` on in the tile store of core `c`; other bytes and the rest of the machine stay. -/
def TileGets (i : Instr) (c ta n : Nat) (f : Nat → Byte) (s : State) : Prop :=
  let x := s.core c
  Completes i s (fun t => Retires c ({ x with tile := (t.core c).tile, tilePoison := (t.core c).tilePoison }.at_ (x.pc + 8)) s t ∧
    ∀ k, SMap.get 0 (t.core c).tile k = if ta ≤ k ∧ k < ta + n then f (k - ta) else SMap.get 0 x.tile k)

/-- Tile moves (Table 14.4, R482 to R485): loads and stores of 128 B, copies, zeroing and 32×32 transposes, and the faults of a bad address. -/
def TileMovesPart : Prop :=
  ∀ (s : State) (c d a b off w : Nat), d < 32 → a < 32 → b < 32 → off < 2 ^ 21 → w < 3 → s.mayIssue c { g := [d, a, b], v := [d] } = true →
    let x := s.core c
    let byte := fun (k : Nat) => SMap.get 0 x.tile k
    let at_ := tileAddr (x.rg a) off
    let src := (x.rg a).toNat
    let dst := (x.rg d).toNat
    let n := (x.rg b).toNat
    let e := 2 ^ w
    (at_ % 8 = 0 → at_ + 128 ≤ 0x200000 → x.tileBad at_ 128 = false →
      Completes (.tld c d a off 0) s (Retires c ((x.setV d (BitVec.ofNat 1024 (leNat ((List.range 128).map (fun k => byte (at_ + k)))))).at_ (x.pc + 8)) s)) ∧
    (TileFree x at_ 128 → TileGets (.tst c d a off) c at_ 128 (fun k => BitVec.ofNat 8 (elem (x.rv d) 8 k)) s) ∧
    (TileFree x dst n → src % 8 = 0 → src + n ≤ 0x200000 → n % 8 = 0 → n ≠ 0 → x.tileBad src n = false →
      TileGets (.tcpy c d a b) c dst n (fun k => byte (src + k)) s) ∧
    (TileFree x src n → n % 8 = 0 → n ≠ 0 → TileGets (.tzero c a b) c src n (fun _ => 0) s) ∧
    (n = 0 → GoesTo (.tcpy c d a b) c (x.pc + 8) s ∧ GoesTo (.tzero c a b) c (x.pc + 8) s) ∧
    (TileFree x dst (1024 * e) → src % 8 = 0 → src + 1024 * e ≤ 0x200000 → x.tileBad src (1024 * e) = false →
      TileGets (.txp c d a w) c dst (1024 * e) (fun k => byte (src + (32 * (k / e % 32) + k / e / 32) * e + k % e)) s) ∧
    (x.fault = none → (at_ % 8 ≠ 0 → Completes (.tld c d a off 0) s (fun t => (t.core c).fault.map (·.code) = some 5 ∧ (t.core c).v = x.v ∧ (t.core c).pc = x.pc)) ∧
      (at_ % 8 = 0 → 0x200000 < at_ + 128 → Completes (.tld c d a off 0) s (fun t => (t.core c).fault.map (·.code) = some 2 ∧ (t.core c).v = x.v ∧ (t.core c).pc = x.pc)))

/-- MMA (R424, R425, R427, R478): a legal MMA joins the engine's queue of two; the one at its head completes with the exact sum of each element, here
of two signed 8-bit panels, saturated to 32 bits, and with CC_MSTAT. It rests on the model's choices of log entry 3. -/
def Obligations.MatrixMultiply : Prop :=
  (∀ (s : State) (c d a b e : Nat) (fa fb : Nat), d < 4 → a < 32 → b < 32 → e < 32 → mmaPair fa fb false = true → s.mayIssue c { g := [a, b, e] } = true →
    let x := s.core c
    let o := x.mmaOf d a b e fa fb false true
    mmaDims (x.rg e).toNat = true → o.m ≠ 0 → o.n ≠ 0 → o.k ≠ 0 → o.ta % 8 = 0 → o.tb % 8 = 0 → (x.rg a).toNat < 2 ^ 21 → (x.rg b).toNat < 2 ^ 21 →
    o.ta + 8 * tyWidth fa * o.k ≤ 0x200000 → o.tb + 4 * tyWidth fb * o.k ≤ 0x200000 → x.mma.length < 2 →
    Completes (.mma c d a b e fa fb false true) s (Retires c ({ x with mma := x.mma ++ [o] }.at_ (x.pc + 8)) s)) ∧
  (∀ (s : State) (c : Nat) (o : MmaOp) (rest : List MmaOp),
    let x := s.core c
    x.mma = o :: rest → o.mx = false → o.fa = 1 → o.fb = 1 → o.ovw = true → o.acc < 4 → o.k ≤ 32 → o.n ≤ 32 → o.m ≤ 64 →
    x.tileBad o.ta (64 * o.k) = false → x.tileBad o.tb (32 * o.k) = false →
    Completes (.mmaComplete c) s (fun t => (t.core c).mma = rest ∧ t.mem = s.mem ∧
      (∀ m n, m < o.m → n < o.n → (t.core c).ra o.acc m n = BitVec.ofInt 32
        ((List.range o.k).foldl (fun (z : Int) k => z + toSigned 8 (SMap.get 0 x.tile (o.ta + 64 * k + m)).toNat * toSigned 8 (SMap.get 0 x.tile (o.tb + 32 * k + n)).toNat) 0)) ∧
      (∀ q m n, m < 64 → n < 32 → q ≠ o.acc ∨ o.m ≤ m ∨ o.n ≤ n → (t.core c).ra q m n = x.ra q m n) ∧
      (t.core c).cr 0x0A = if o.slowSteps = 0 then 0 else 16))

/-- Accumulator moves (Table 14.3, R479 to R481): each waits for the engine, moves its image or row, and clears CC_MSTAT. -/
def AccumulatorMovesPart : Prop :=
  ∀ (s : State) (c d a b q : Nat) (ty rmo : Nat) (int : Bool), d < 32 → a < 32 → b < 32 → q < 4 → s.mayIssue c { g := [a, b], v := [d, a], a := [q] } = true →
    let x := s.core c
    let ta := (x.rg a).toNat
    let row := (x.rg b).toNat % 64
    let done := fun (t : State) => (t.core c).pc = (x.pc + 8) % 2 ^ 64 ∧ (t.core c).cr 0x0A = 0 ∧ t.mem = s.mem ∧ (t.core c).g = x.g
    x.mma = [] →
    Completes (.accz c q) s (fun t => done t ∧ (∀ m n, m < 64 → n < 32 → (t.core c).ra q m n = 0) ∧ (∀ r m n, r ≠ q → m < 64 → n < 32 → (t.core c).ra r m n = x.ra r m n)) ∧
    (ta % 8 = 0 → ta + 8192 ≤ 0x200000 → x.tileBad ta 8192 = false → Completes (.accld c q a) s (fun t => done t ∧ (t.core c).tile = x.tile ∧
      (∀ m n, m < 64 → n < 32 → ((t.core c).ra q m n).toNat = leNat ((List.range 4).map (fun k => SMap.get 0 x.tile (ta + 4 * (32 * m + n) + k)))) ∧
      (∀ r m n, r ≠ q → m < 64 → n < 32 → (t.core c).ra r m n = x.ra r m n))) ∧
    (ta % 8 = 0 → ta + 8192 ≤ 0x200000 → Completes (.accst c a q) s (fun t => done t ∧ (t.core c).acc = x.acc ∧
      (∀ k, SMap.get 0 (t.core c).tile k = if ta ≤ k ∧ k < ta + 8192 then
        BitVec.ofNat 8 ((x.ra q ((k - ta) / 128) ((k - ta) / 4 % 32)).toNat >>> (8 * ((k - ta) % 4))) else SMap.get 0 x.tile k))) ∧
    ((accTypes int).contains ty = true → rmo < 6 → ta % 8 = 0 → ta + 256 * tyWidth ty ≤ 0x200000 →
      Completes (.acccvt c a q ty rmo int) s (fun t => done t ∧ (t.core c).acc = x.acc ∧ (∀ k, k < ta ∨ ta + 256 * tyWidth ty ≤ k →
        SMap.get 0 (t.core c).tile k = SMap.get 0 x.tile k) ∧
        (∀ i, i < 2048 → (t.core c).tileNat (ta + i * (tyWidth ty / 8)) (tyWidth ty / 8) =
          (tyConvert ty (x.convRm (x.rmCode rmo) ty i) x.sat false (if int then (NumFmt.int 32).value false (x.ra q (i / 32) (i % 32)).toNat
            else fp32.decode (x.ra q (i / 32) (i % 32)).toNat)).1 % 2 ^ tyWidth ty))) ∧
    Completes (.accrd c d q b) s (fun t => done t ∧ (t.core c).acc = x.acc ∧ (∀ n, n < 32 → elem ((t.core c).rv d) 32 n = (x.ra q row n).toNat) ∧
      (∀ r, r ≠ d → (t.core c).rv r = x.rv r)) ∧
    Completes (.accwr c q a b) s (fun t => done t ∧ (∀ n, n < 32 → (t.core c).ra q row n = BitVec.ofNat 32 (elem (x.rv a) 32 n)) ∧
      (∀ r m n, m < 64 → n < 32 → r ≠ q ∨ m ≠ row → (t.core c).ra r m n = x.ra r m n))

/-- The WPA of byte `e` of the scratch of core `c`'s own ply. -/
def ownWpa (c e : Nat) : Nat := scratchBase + plyOfCore c * 0x1000000 + e

/-- `n` aligned bytes at offset `e` of the own ply's scratch exist and hold no poison. -/
def ScratchAt (s : State) (c e n : Nat) : Prop :=
  e % n = 0 ∧ e + n ≤ 2 ^ 24 ∧ s.scratchValid (plyOfCore c) e = true ∧
    (s.ply (plyOfCore c)).scratchPoison.contains (e / 64) = false

/-- The L1D of core `c` holds the 16 B piece of the address. -/
def InL1d (s : State) (c e : Nat) : Prop := bit (s.l1dPieces c (ownWpa c e / 64)) (e % 64 / 16) = true

/-- Core `c` may issue, and no store of its own is buffered. -/
def MemReady (s : State) (c : Nat) (u : Uses) : Prop :=
  s.mayIssue c u = true ∧ (s.core c).mb = [] ∧ (s.core c).nt = [] ∧ (s.core c).progress = 0

/-- The address of a scalar access: base, plus the index shifted by SZ, plus the sign-extended offset (R455). -/
def scalarAddr (base index : Word) (off : Nat) : Nat :=
  (base + index + BitVec.ofInt 64 (if off < 2 ^ 21 then (off : Int) else (off : Int) - 2 ^ 22)).toNat

/-- Scalar loads and stores (Table 13.8, R455 to R458), on SPACE 1: a load that hits the L1D gives the bytes, sign- or zero-extended; a store enters the
merging buffer and leaves memory as it is; a misaligned address is a precise ALIGN fault. -/
def ScalarMemoryPart : Prop :=
  ∀ (s : State) (c d a b e : Nat) (m : MMod), d < 32 → a < 32 → b < 32 → e < 32 → m.space = 1 → MemReady s c { g := [d, a, b, e] } →
    let x := s.core c
    let n := 2 ^ m.sz
    let at0 := scalarAddr (x.rg a) 0 m.off
    let at1 := scalarAddr (x.rg a) (x.rg b <<< m.sz) m.off
    let value := fun (e : Nat) => if m.sx then BitVec.ofInt 64 (toSigned (8 * n) (s.load (ownWpa c e) n)) else BitVec.ofNat 64 (s.load (ownWpa c e) n)
    let stored := fun (e v : Nat) (t : State) => t.mem = s.mem ∧ (t.core c).g = x.g ∧ (t.core c).v = x.v ∧ (t.core c).pc = (x.pc + 8) % 2 ^ 64 ∧
      ∃ z, (t.core c).mb = [z] ∧ z.line = ownWpa c e / 64 ∧ z.mask = fieldMask (e % 64) n ∧ z.field (e % 64) n = v % 2 ^ (8 * n)
    (mmodOk m true = true →
      (ScratchAt s c at0 n → InL1d s c at0 → Gives (.ld c d a m 0) c d (value at0) s) ∧
      (ScratchAt s c at1 n → InL1d s c at1 → Gives (.ldx c d a b m) c d (value at1) s) ∧
      (at0 % n ≠ 0 → x.fault = none → Completes (.ld c d a m 0) s (fun t => (t.core c).fault.map (·.code) = some 5 ∧ (t.core c).g = x.g ∧ (t.core c).pc = x.pc))) ∧
    (mmodOk m false = true →
      (ScratchAt s c at0 n → Completes (.st c a b m) s (stored at0 (x.rg b).toNat)) ∧
      (ScratchAt s c at1 n → Completes (.stx c a b e m) s (stored at1 (x.rg e).toNat)))

/-- A load that hits neither buffer nor L1D is outstanding: the instruction retires and its register is bound later (R302, R435). -/
def LoadMissesAreOutstandingPart : Prop :=
  ∀ (s : State) (c d a : Nat) (m : MMod), d < 32 → a < 32 → m.space = 1 → mmodOk m true = true → MemReady s c { g := [d, a] } →
    let x := s.core c
    let n := 2 ^ m.sz
    let e := scalarAddr (x.rg a) 0 m.off
    ScratchAt s c e n → ¬ InL1d s c e →
    Completes (.ld c d a m 0) s (fun t => t.mem = s.mem ∧ (t.core c).g = x.g ∧ (t.core c).pc = (x.pc + 8) % 2 ^ 64 ∧
      ∃ z, (t.core c).accesses = x.accesses ++ [z] ∧ z.op = .load (.g d n m.sx) ∧ z.dva = e ∧ z.parts = [{ elem := 0, wpa := ownWpa c e, size := n }])

/-- The element addresses of the vector memory shapes (Table 13.13). -/
def vecAddr (x : Core) (m : VMMod) (a b shape i : Nat) : Nat :=
  let n := max 1 (tyWidth m.ty / 8)
  let base := x.rg a + BitVec.ofInt 64 (if m.off < 2 ^ 19 then (m.off : Int) else (m.off : Int) - 2 ^ 20)
  match shape with
  | 0 => (base + BitVec.ofNat 64 (i * n)).toNat
  | 1 => (base + BitVec.ofNat 64 i * x.rg b).toNat
  | 2 => (base + BitVec.ofInt 64 (toSigned (8 * n) (elem (x.rv b) (8 * n) i))).toNat
  | _ => base.toNat

/-- Vector loads and stores (Table 13.13, R469 to R471), on SPACE 1: each active element at its address, inactive ones zeroed or kept; a store's elements
enter the merging buffer and leave memory as it is. -/
def Obligations.VectorMemory : Prop :=
  ∀ (s : State) (c d a b : Nat) (m : VMMod), d < 32 → a < 32 → b < 32 → m.space = 1 → MemReady s c { g := [a, b], v := [d, b] } →
    let x := s.core c
    let n := max 1 (tyWidth m.ty / 8)
    let on := fun (i : Nat) => (x.rp m.pred).getLsbD (i * n)
    let loads := fun (i : Instr) (shape : Nat) =>
      (∀ k, k < 128 / n → on k = true → ScratchAt s c (vecAddr x m a b shape k) n ∧ InL1d s c (vecAddr x m a b shape k)) →
      Completes i s (fun t => t.mem = s.mem ∧ (t.core c).g = x.g ∧ (t.core c).pc = (x.pc + 8) % 2 ^ 64 ∧ (∀ r, r ≠ d → (t.core c).rv r = x.rv r) ∧
        (∀ k, k < 128 / n → elem ((t.core c).rv d) (8 * n) k =
          if on k then s.load (ownWpa c (vecAddr x m a b shape k)) n else if m.z then 0 else elem (x.rv d) (8 * n) k))
    let stores := fun (i : Instr) (shape : Nat) =>
      (∀ k, k < 128 / n → on k = true → ScratchAt s c (vecAddr x m a b shape k) n) →
      ((List.range (128 / n)).map (fun k => vecAddr x m a b shape k / 64)).eraseDups.length ≤ 11 →
      Completes i s (fun t => t.mem = s.mem ∧ (t.core c).g = x.g ∧ (t.core c).v = x.v ∧ (t.core c).pc = (x.pc + 8) % 2 ^ 64 ∧
        (∀ k, k < 128 / n → on k = true → ∃ z ∈ (t.core c).mb, z.line = ownWpa c (vecAddr x m a b shape k) / 64 ∧
          z.all (vecAddr x m a b shape k % 64) n = true ∧ (shape = 0 → z.field (vecAddr x m a b shape k % 64) n = elem (x.rv d) (8 * n) k)))
    (vmmodOk m true tyMem = true → loads (.vld c d a m) 0 ∧ loads (.vldb c d a m) 3) ∧
    (vmmodOk m true tyByte = true → loads (.vlds c d a b m) 1) ∧
    (vmmodOk m true tyIndex = true → loads (.vldx c d a b m) 2) ∧
    (vmmodOk m false tyMem = true → stores (.vst c d a m) 0) ∧
    (vmmodOk m false tyByte = true → stores (.vsts c d a b m) 1) ∧
    (vmmodOk m false tyIndex = true → stores (.vstx c d a b m) 2)

/-- Non-temporal stores join the NT buffer and leave memory as it is (R388, R487). -/
def Obligations.NonTemporalStores : Prop :=
  ∀ (s : State) (c d a b : Nat) (m : MMod), d < 32 → a < 32 → b < 32 → m.space = 1 → MemReady s c { g := [a, b], v := [d] } →
    let x := s.core c
    let e := scalarAddr (x.rg a) 0 m.off
    let w := ownWpa c e
    let put := fun (n v : Nat) (t : State) => t.mem = s.mem ∧ (t.core c).g = x.g ∧ (t.core c).v = x.v ∧ (t.core c).pc = (x.pc + 8) % 2 ^ 64 ∧
      ∃ z, (t.core c).nt = [z] ∧ z.block = w / 256 ∧ z.mask = BitVec.ofNat 256 ((2 ^ n - 1) * 2 ^ (w % 256)) ∧
        z.data.toNat >>> (8 * (w % 256)) % 2 ^ (8 * n) = v
    (memForm m [0, 1, 2, 3] = true → ScratchAt s c e (2 ^ m.sz) → Completes (.stNt c a b m) s (put (2 ^ m.sz) ((x.rg b).toNat % 2 ^ (8 * 2 ^ m.sz)))) ∧
    (memForm m [0] = true → e % 128 = 0 → (∀ k, k < 16 → ScratchAt s c (e + 8 * k) 8) → Completes (.vstNt c d a m) s (put 128 (x.rv d).toNat))

/-- Reservations and atomics (R392 to R395, R487 to R490, Table 14.5) on the own ply's scratch: the old value is returned, the new one is in memory and
every other byte stays; STCND stores only under the reservation, where it may fail too (R396), and clears it. It rests on the model's choices of log entry 28. -/
def Obligations.AtomicsAndReservations : Prop :=
  ∀ (s : State) (c d a b e : Nat) (m : MMod), d < 32 → a < 32 → b < 32 → e < 32 → m.space = 1 → MemReady s c { g := [d, a, b, e, 0] } →
    let x := s.core c
    let n := 2 ^ m.sz
    let at_ := scalarAddr (x.rg a) 0 m.off
    let w := ownWpa c at_
    let old := s.load w n
    let y := (x.rg b).toNat % 2 ^ (8 * n)
    let si := fun (v : Nat) => toSigned (8 * n) v
    let f := if n = 2 then bf16 else fp32
    let gets := fun (v r : Nat) (t : State) => t.load w n = v ∧ (∀ k, k < w ∨ w + n ≤ k → t.byte k = s.byte k) ∧ (d ≠ 0 → ((t.core c).rg d).toNat = r) ∧
      (∀ q, q ≠ d → (t.core c).rg q = x.rg q) ∧ (t.core c).v = x.v ∧ (t.core c).pc = (x.pc + 8) % 2 ^ 64
    let amo := fun (i : Instr) (v : Nat) => Completes i s (gets v old)
    ScratchAt s c at_ n → s.plyCoil (plyOfCore c) = x.coil →
    (memForm m [2, 3] = true →
      amo (.amoswap c d a b m) y ∧ amo (.amoadd c d a b m) ((old + y) % 2 ^ (8 * n)) ∧ amo (.amoand c d a b m) (old &&& y) ∧
      amo (.amoor c d a b m) (old ||| y) ∧ amo (.amoxor c d a b m) (old ^^^ y) ∧
      amo (.amomin c d a b m) (if si old ≤ si y then old else y) ∧ amo (.amomax c d a b m) (if si old ≤ si y then y else old) ∧
      amo (.amominu c d a b m) (Nat.min old y) ∧ amo (.amomaxu c d a b m) (Nat.max old y) ∧
      amo (.amocas c d a b e m) (if old = (x.rg e).toNat % 2 ^ (8 * n) then y else old) ∧
      Completes (.ldrsv c d a m) s (fun t => gets old old t ∧ (t.core c).rsv = some { base := w / 64 * 64, size := 64 }) ∧
      (x.rsv = some { base := w / 64 * 64, size := 64 } → Completes (.stcnd c d a b m) s (fun t => (gets y 0 t ∨ gets old 1 t) ∧ (t.core c).rsv = none)) ∧
      (x.rsv = none → Completes (.stcnd c d a b m) s (fun t => gets old 1 t ∧ (t.core c).rsv = none))) ∧
    (memForm m [1, 2] = true →
      amo (.amofadd c d a b m) ((f.add .rne (f.decode old) (f.decode y)).1 % 2 ^ (8 * n)) ∧
      amo (.amofmin c d a b m) (f.minMax false old y % 2 ^ (8 * n)) ∧ amo (.amofmax c d a b m) (f.minMax true old y % 2 ^ (8 * n)))

/-- Fences (R376 to R380, Table 11.2): one whose predecessors are all performed retires; one that orders earlier stores waits for the merging buffer,
whose entries all start to drain. -/
def FencesPart : Prop :=
  ∀ (s : State) (c mask : Nat), mask < 32 → s.mayIssue c {} = true →
    let x := s.core c
    (x.accesses = [] → x.mb = [] → x.nt = [] → x.flush = [] → x.flushing = [] →
      GoesTo (.fenceC c mask) c (x.pc + 8) s ∧ GoesTo (.fenceP c mask) c (x.pc + 8) s ∧ GoesTo (.fenceS c mask) c (x.pc + 8) s) ∧
    (bit mask 1 = true → bit mask 3 = true ∨ bit mask 4 = true → x.mb ≠ [] → x.flush = [] →
      Completes (.fenceP c mask) s (fun t => (t.core c).pc = x.pc ∧ t.fld .CR_STATUS_PSTATE c = 1 ∧ (t.core c).mb.all (·.draining) = true ∧
        (t.core c).mb.map (·.line) = x.mb.map (·.line)))

/-- The window fence (R491): it enters the Bend port of the window its address lies in, and retires once answered. -/
def WindowFencePart : Prop :=
  ∀ (s : State) (c a mask w b win off : Nat) (r : Region) (l : Option Leaf), a < 32 → mask < 32 → s.mayIssue c { g := [a] } = true →
    let x := s.core c
    let e := (x.rg a).toNat
    s.xlat c 0 e .read = .ok w r l → placeOf w = .splice b win off → bit mask 1 = true → bit mask 3 = true →
    (x.progress = 0 → x.accesses = [] → x.mb = [] → x.nt = [] →
      Completes (.bendWfence c a mask) s (fun t => (t.core c).pc = x.pc ∧ (t.core c).progress = 1 ∧ t.mem = s.mem ∧
        (t.core c).accesses = [{ id := x.nextAcc, op := .wfence, dva := e, pc := x.pc }])) ∧
    (x.progress = 1 → x.accesses = [] →
      Completes (.bendWfence c a mask) s (fun t => (t.core c).pc = (x.pc + 8) % 2 ^ 64 ∧ (t.core c).progress = 0 ∧ t.mem = s.mem))

/-- Maintenance by address (R322 to R324, Tables 9.7 and 10.2): CLEAN turns a modified line exclusive and puts its data on the way to its home; the removals
take it out of the ply cache; ZERO writes zeros over the line. -/
def MaintenanceByAddressPart : Prop :=
  ∀ (s : State) (c a : Nat) (m : MMod), a < 32 → memForm m [0] = true → MemReady s c { g := [a] } →
    let x := s.core c
    let y := plyOfCore c
    let e := scalarAddr (x.rg a) 0 m.off
    let waits := fun (t : State) => (t.core c).pc = (x.pc + 8) % 2 ^ 64 ∧ (t.core c).g = x.g ∧ t.mem = s.mem ∧ ∃ z, (t.core c).accesses = x.accesses ++ [z] ∧ z.dva = e
    (∀ w v o l cl k, s.xlat c m.space e k = .ok w .coh l → placeOf w = .spool v o → (s.ply y).copy (w / 64) = some cl → cl.st = .m → cl.str = false →
      (∀ r ∈ (s.bus (bayOfPly y)).reqs, r.ply = y → r.line ≠ w / 64) → s.targetCheck x.coil (leafShared l) (w / 64) = spOk → x.rig = false →
      (k = .read → Completes (.clean c a m) s (fun t => waits t ∧ (t.ply y).copy (w / 64) = some { cl with st := .e } ∧
        ∃ z ∈ (t.bus (bayOfPly y)).wbs, z.ply = y ∧ z.line = w / 64 ∧ z.kind = .cln ∧ z.data = some cl.data)) ∧
      (k = .write →
        Completes (.invalidate c a m) s (fun t => waits t ∧ (t.ply y).copy (w / 64) = none ∧ ∃ z ∈ (t.bus (bayOfPly y)).wbs, z.line = w / 64 ∧ z.data = some cl.data) ∧
        Completes (.cleanInv c a m) s (fun t => waits t ∧ (t.ply y).copy (w / 64) = none ∧ ∃ z ∈ (t.bus (bayOfPly y)).wbs, z.line = w / 64 ∧ z.data = some cl.data))) ∧
    (m.space = 1 → ScratchAt s c e 1 → Completes (.zero c a m) s (fun t => (t.core c).pc = (x.pc + 8) % 2 ^ 64 ∧ (t.core c).g = x.g ∧
      ∀ k, t.byte k = if ownWpa c e / 64 = k / 64 then 0 else s.byte k))

/-- Control registers, energy hints and the operating point (Table 12.2, R413, R433, R498): reads give the register, and zero for the identity, time and
meter registers in a REPEATABLE coil; writes leave reserved fields as they stand. -/
def SystemRegistersPart : Prop :=
  ∀ (s : State) (c d a n p : Nat), d < 32 → a < 32 → p < 5 → s.mayIssue c { g := [d, a] } = true →
    let x := s.core c
    let v := (x.rg a).toNat
    let rep := s.repeatable c = true
    let t := s.task (x.task.getD 0)
    let q := s.grantPoint c p
    Gives (.crr c d 0) c d (BitVec.ofNat 64 t.ticket.taskId) s ∧
    Gives (.crr c d 1) c d (BitVec.ofNat 64 (s.coilOf c)) s ∧
    Gives (.crr c d 7) c d (BitVec.ofNat 64 t.ticket.eclass) s ∧
    (¬ rep ∨ x.rig = true → Gives (.crr c d 2) c d (BitVec.ofNat 64 c) s ∧ Gives (.crr c d 4) c d (BitVec.ofNat 64 (s.fld .CL_TIME_UTC_NS 0)) s ∧
      Gives (.crr c d 5) c d (BitVec.ofNat 64 (s.fld .CR_STATUS_OP c)) s) ∧
    (rep → x.rig = false → ∀ m ∈ [2, 3, 4, 5, 6], Gives (.crr c d m) c d 0 s) ∧
    (8 ≤ n ∧ n ≤ 0x0C ∨ x.rig = true ∧ 0x10 ≤ n ∧ n ≤ 0x12 → Gives (.crr c d n) c d (BitVec.ofNat 64 (x.cr n)) s) ∧
    (∀ n, (n ≤ 0x0C ∨ x.rig = true ∧ 0x10 ≤ n ∧ n ≤ 0x12) → Completes (.crr c d n) s (fun t => ∃ w, t.core c = (x.setG d w).at_ (x.pc + 8))) ∧
    Completes (.crw c a 8) s (Retires c ((x.setCr 8 ((if v % 8 ≤ 4 then v % 8 else x.cr 8 % 8) + 8 * (v / 8 % 2))).at_ (x.pc + 8)) s) ∧
    Completes (.crw c a 9) s (Retires c ((x.setCr 9 (v % 64)).at_ (x.pc + 8)) s) ∧
    (x.rig = true → 0x10 ≤ n → n ≤ 0x12 → Completes (.crw c a n) s (Retires c ((x.setCr n v).at_ (x.pc + 8)) s)) ∧
    GoesTo (.ehint c a) c (x.pc + 8) s ∧
    (x.progress ≠ 0 → x.changing = none → Gives (.opreq c d p) c d (if s.repeatable c then 0 else BitVec.ofNat 64 (s.fld .CR_STATUS_OP c)) s) ∧
    (x.progress = 0 → x.changing = none → x.opNext = none →
      (q = s.fld .CR_STATUS_OP c → Completes (.opreq c d p) s (fun t => t.core c = (x.setG d (if s.repeatable c then 0 else BitVec.ofNat 64 q)).at_ (x.pc + 8))) ∧
      (q ≠ s.fld .CR_STATUS_OP c → Completes (.opreq c d p) s (fun t => t.core c = { x with changing := some q, progress := 1 } ∧
        t.fld .CR_STATUS_PSTATE c = 1)))

/-- RIG level and its services (R414, R415, R499, R500): RIGCALL saves the return address and the service and enters RIG level, RIGRET returns; the
services give the counters, clear the tile store, and log at most 16 messages per millisecond of a coil. -/
def RigServicesPart : Prop :=
  ∀ (s : State) (c : Nat), s.mayIssue c { g := [1, 2] } = true →
    let x := s.core c
    let enters := fun (y : Core) (service : Nat) => { (y.setCr 0x10 (x.pc + 8)).setCr 0x11 service with pc := Config.rigEntry service, rig := true }
    let count := fun (f : Fld) => if s.repeatable c then 0 else BitVec.ofNat 64 (s.fld f c)
    let logged := SMap.get (0, 0) s.cap.logs (s.coilOf c)
    Completes (.rigcallCounters c) s (Retires c (enters ((x.setG 1 (count .CR_RETIRED_COUNT)).setG 2 (count .CR_MMA_BUSY_CYCLES)) 1) s) ∧
    (x.mma = [] → Completes (.rigcallTileClear c) s (Retires c (enters { x with tile := [], tilePoison := [] } 2) s)) ∧
    (x.mma ≠ [] → Completes (.rigcallTileClear c) s (fun t => (t.core c) = x ∧ t.fld .CR_STATUS_PSTATE c = 1)) ∧
    Completes (.rigcallLog c) s (fun t => t.core c = enters (x.setG 1 (if logged.1 = s.clockUs / 1000 ∧ 16 ≤ logged.2 ∧ s.repeatable c = false then 1 else 0)) 3 ∧
      SMap.get (0, 0) t.cap.logs (s.coilOf c) = (s.clockUs / 1000, if logged.1 = s.clockUs / 1000 then logged.2 + 1 else 1)) ∧
    (x.rig = true → Completes (.rigret c) s (Retires c ({ x with rig := false }.at_ (x.cr 0x10)) s) ∧
      (x.mma = [] → Completes (.tilez c) s (Retires c ({ x with tile := [], tilePoison := [] }.at_ (x.pc + 8)) s))) ∧
    (x.rig = false → x.fault = none → ∀ i ∈ [Instr.rigret c, Instr.tilez c],
      Completes i s (fun t => (t.core c).fault.map (·.code) = some 6 ∧ (t.core c).ending = true ∧ (t.core c).pc = x.pc))

/-- Waits (R493, R496, Table 14.10): a wait whose condition holds, or whose timeout is zero, completes at once; another one stops the core's clock without
its reservation until the event, the knot or the timeout ends it, or a spurious wake, which gives zero. -/
def WaitsPart : Prop :=
  ∀ (s : State) (c d a b m : Nat) (mm : MMod), d < 32 → a < 32 → b < 32 → 1 ≤ m → m < 4 →
    let x := s.core c
    let i := (x.rg a).toNat
    let hit := (match x.mon with | some z => z.hit | none => false) = true
    let inForce := s.repeatable c = false
    let sleeps := fun (w : CoreWait) (t : State) => t.core c = { x with rsv := none, wait := w } ∧ t.fld .CR_STATUS_PSTATE c = 2 ∧ t.mem = s.mem
    let ends := fun (ins : Instr) (x' : Core) (d v : Nat) => Completes ins s (Retires c ((x'.setG d (BitVec.ofNat 64 v)).at_ (x.pc + 8)) s)
    (s.mayIssue c { g := [d, a, b] } = true → x.mb = [] → x.nt = [] →
      (s.knotCount (s.coilOf c) ≤ i → Gives (.kwait c d a b) c d 2 s) ∧
      (i < s.knotCount (s.coilOf c) → (s.knot (s.coilOf c) i).value = 0 → Gives (.kwait c d a b) c d 0 s) ∧
      (i < s.knotCount (s.coilOf c) → (s.knot (s.coilOf c) i).value ≠ 0 → x.rg b = 0 → inForce → Gives (.kwait c d a b) c d 1 s) ∧
      (i < s.knotCount (s.coilOf c) → (s.knot (s.coilOf c) i).value ≠ 0 → x.rg b ≠ 0 ∨ ¬ inForce → Completes (.kwait c d a b) s (sleeps (.kwait i d)))) ∧
    (s.mayIssue c { g := [d, a] } = true → x.mb = [] → x.nt = [] →
      (bit m 0 = true → hit → ends (.evwait c d a m) { x with mon := none } d (if inForce then 1 else 0)) ∧
      ((bit m 0 = false ∨ ¬ hit) → x.rg a = 0 → ends (.evwait c d a m) { x with mon := none } d (if inForce then 4 else 0)) ∧
      ((bit m 0 = false ∨ ¬ hit) → x.rg a ≠ 0 → Completes (.evwait c d a m) s (sleeps (.evwait (bit m 0) (bit m 1) d)))) ∧
    (s.mayIssue c { g := [a] } = true → memForm mm [0] = true → mm.space = 1 → ScratchAt s c (scalarAddr (x.rg a) 0 mm.off) 1 →
      Completes (.evmon c a mm) s (Retires c ({ x with mon := some { line := ownWpa c (scalarAddr (x.rg a) 0 mm.off) / 64 } }.at_ (x.pc + 8)) s)) ∧
    (∀ k r, x.wait = .kwait k r →
      ((s.knot (s.coilOf c) k).value = 0 → ends (.knotWaitEnd c) { x with wait := .none } r 0 ∧ ends (.waitTimeout c) { x with wait := .none } r 0) ∧
      ((s.knot (s.coilOf c) k).value ≠ 0 → Ignored (.knotWaitEnd c) s ∧ (inForce → ends (.waitTimeout c) { x with wait := .none } r 1))) ∧
    (∀ on tk r, x.wait = .evwait on tk r →
      (on = true → hit → ends (.monitorWake c) { x with wait := .none, mon := none } r (if inForce then 1 else 0)) ∧
      (on = false ∨ ¬ hit → ends (.monitorWake c) { x with wait := .none, mon := none } r 0) ∧
      ends (.waitTimeout c) { x with wait := .none, mon := none } r (if inForce then (if on = true ∧ hit then 5 else 4) else 0))

/-- How a task ends on its core (R435, R436, R438, R495, R559, Table 12.7): TEND and the watchdog start the termination steps; these complete once nothing is
outstanding, the fault registers describe the end, and the core is free. -/
def TaskEndsPart : Prop :=
  ∀ (s : State) (c a energy : Nat), a < 32 →
    let x := s.core c
    (s.mayIssue c { g := [a] } = true →
      Completes (.tend c a) s (Retires c { (x.at_ (x.pc + 8)).startEnd with mma := x.mma, result := (x.rg a).toNat % 2 ^ 32 } s)) ∧
    (x.running = true → CoreIs (.energyOverrun c) c { x with overrun := true } s) ∧
    (x.running = false → Ignored (.energyOverrun c) s ∧ Ignored (.taskWatchdog c) s) ∧
    (x.running = true → x.ending = false → x.fault = none → Completes (.taskWatchdog c) s (fun t =>
      t.core c = { x.startEnd with fault := some { code := 7, pc := x.pc, rig := x.rig } } ∧ t.fld .CR_STATUS_PSTATE c = 1 ∧ t.mem = s.mem)) ∧
    (x.running = true → x.ending = true → x.accesses = [] → x.mb = [] → x.nt = [] → x.flushing = [] → x.flush = [] →
      (∀ b, b < 6 → (s.bend b).lost = []) → Completes (.terminationDone c energy) s (fun t =>
        (t.core c).running = false ∧ (t.core c).task = none ∧ (t.core c).rsv = none ∧ t.mem = s.mem ∧
        t.fld .CR_FAULT_VALID c = b2n x.fault.isSome ∧ t.fld .CR_FAULT_OVERRUN c = b2n x.overrun ∧
        t.fld .CR_ENERGY_UJ c = (s.fld .CR_ENERGY_UJ c + energy) % 2 ^ 64 ∧
        (∀ f, x.fault = some f → t.fld .CR_FAULT_CODE c = f.code % 16 ∧ t.fld .CR_FAULT_DEFERRED c = b2n f.deferred ∧ t.fld .CR_FAULT_PC_PC c = f.pc % 2 ^ 48) ∧
        (∀ k, x.task = some k → ∃ e, (t.task k).msg = some e ∧ e.energy = energy ∧ e.overrun = x.overrun ∧
          (x.fault = none → e.status = 1 ∧ e.result = x.result) ∧ (∀ f, x.fault = some f → e.status = 2 ∧ e.fault = f.code ∧ e.pc = f.pc))))
/-- Knot `i` of a coil lies at `w` in Spool, in a line that no cache holds and that the head may write. -/
def KnotAt (s : State) (coil i w : Nat) : Prop :=
  i < s.knotCount coil ∧ w % 8 = 0 ∧ ∃ v sh, s.headXlat coil (s.knotDva coil i) .write = .spool w sh ∧ s.vaultCheck v (some coil) sh = spOk ∧ PlainLine s (w / 64) v

/-- Knots (R573 to R578, Tables 17.4 and 17.9): ARM adds and arms, DEC subtracts, a marked DEC sets MARK; an armed knot that reaches zero or less fires and is idle
again; RESET zeroes it. KDEC does as DEC. Nothing but the knot's entry changes in memory. An index past the count is RANGE and performs nothing. It rests on the model's choices of log entry 73. -/
def Obligations.KnotOperations : Prop :=
  ∀ (s : State) (p coil i n w c d a b : Nat), s.module.railsOn = true → coil < 32 → s.homeOf coil = some p → n < 2 ^ 32 → n ≠ 0 →
    let k := Knot.decode (s.load w 8)
    let idle := s.tasksOf (fun t => t.coil = coil && t.state = .waiting && t.ticket.tie = i) = []
    let leaves := fun (ins : Instr) (k' : Knot) => Completes ins s (fun t => Wrote w 8 k'.encode s t ∧ t.fld .CP_CMD_STATUS_KNOT_STATUS coil = 0)
    (KnotAt s coil i w →
      Completes (.knotRead p coil i) s (fun t => t.fld .CP_CMD_STATUS_VALUE coil = s.load w 8 % 2 ^ 32 ∧ t.fld .CP_CMD_STATUS_ARMED coil = s.load w 8 / 2 ^ 32 % 2 ∧
        t.fld .CP_CMD_STATUS_MARK coil = s.load w 8 / 2 ^ 33 % 2 ∧ t.fld .CP_CMD_STATUS_KNOT_STATUS coil = 0 ∧ t.mem = s.mem) ∧
      leaves (.knotReset p coil i) {} ∧
      (0 < k.value + n → k.value + n < 2 ^ 31 → leaves (.knotArm p coil i n) { k with value := k.value + n, armed := true }) ∧
      (k.value + n ≤ 0 → idle → leaves (.knotArm p coil i n) {}) ∧
      (-(2 ^ 31) ≤ k.value - n → k.armed = false ∨ 0 < k.value - n →
        leaves (.knotDec p coil i n) { k with value := k.value - n } ∧ leaves (.knotMarkedDec p coil i n) { k with value := k.value - n, mark := true }) ∧
      (-(2 ^ 31) ≤ k.value - n → k.armed = true → k.value - n ≤ 0 → idle → leaves (.knotDec p coil i n) {} ∧ leaves (.knotMarkedDec p coil i n) {})) ∧
    (s.knotCount coil ≤ i → ∀ ins ∈ [Instr.knotRead p coil i, Instr.knotArm p coil i n, Instr.knotDec p coil i n, Instr.knotMarkedDec p coil i n, Instr.knotReset p coil i],
      Sets ins s [(.CP_CMD_STATUS_KNOT_STATUS, coil, 1)]) ∧
    (d < 32 → a < 32 → b < 32 → s.mayIssue c { g := [d, a, b] } = true → (s.core c).coil = some coil → (s.core c).rg a = BitVec.ofNat 64 i → i < 2 ^ 64 →
      (s.core c).rg b = BitVec.ofNat 64 n →
      (s.knotCount coil ≤ i → Gives (.kdec c d a b) c d 1 s) ∧
      (KnotAt s coil i w → k.armed = false → -(2 ^ 31) ≤ k.value - n → Completes (.kdec c d a b) s (fun t =>
        Wrote w 8 ({ k with value := k.value - n } : Knot).encode s t ∧ (t.core c).rg d = 0 ∧ (∀ q, q ≠ d → (t.core c).rg q = (s.core c).rg q) ∧
          (t.core c).pc = ((s.core c).pc + 8) % 2 ^ 64)))

/-- Rings (R563 to R566): enabling a ring zeroes its pointers, a misaligned base is refused, a halted submission ring keeps its pointers and its halt is cleared;
disabling a submission ring keeps them. -/
def RingControlPart : Prop :=
  ∀ (s : State) (p coil i : Nat), s.module.railsOn = true → coil < 32 → s.homeOf coil = some p → i < 64 →
    let r := 64 * coil + i
    let sBase := s.fld .CP_SRING_CFG_BASE r * 128
    let cBase := s.fld .CP_CRING_CFG_BASE r * 32
    (s.fld .CP_SRING_CFG_ENABLE r = 0 → sBase % (128 * 2 ^ s.fld .CP_SRING_CFG_LOG2 r) ≠ 0 → Sets (.submissionRingEnable p coil i) s [(.CP_SRING_CFG_STATUS, r, 1)]) ∧
    (s.fld .CP_SRING_CFG_ENABLE r = 0 → sBase % (128 * 2 ^ s.fld .CP_SRING_CFG_LOG2 r) = 0 →
      (s.fld .CP_SRING_FAULT_HALTED r = 0 → Sets (.submissionRingEnable p coil i) s [(.CP_SRING_PTR_TAIL, r, 0), (.CP_SRING_PTR_HEAD, r, 0),
        (.CP_SRING_FAULT_HALTED, r, 0), (.CP_SRING_FAULT_REASON, r, 0), (.CP_SRING_CFG_ENABLE, r, 1), (.CP_SRING_CFG_STATUS, r, 0)]) ∧
      (s.fld .CP_SRING_FAULT_HALTED r ≠ 0 → Sets (.submissionRingEnable p coil i) s [(.CP_SRING_FAULT_HALTED, r, 0), (.CP_SRING_FAULT_REASON, r, 0),
        (.CP_SRING_CFG_ENABLE, r, 1), (.CP_SRING_CFG_STATUS, r, 0)])) ∧
    (s.fld .CP_SRING_CFG_ENABLE r ≠ 0 → Ignored (.submissionRingEnable p coil i) s) ∧
    Sets (.submissionRingDisable p coil i) s [(.CP_SRING_CFG_ENABLE, r, 0), (.CP_SRING_CFG_STATUS, r, 0)] ∧
    (s.fld .CP_CRING_CFG_ENABLE r = 0 → cBase % (32 * 2 ^ s.fld .CP_CRING_CFG_LOG2 r) ≠ 0 → Sets (.completionRingEnable p coil i) s [(.CP_CRING_MOD_STATUS, r, 1)]) ∧
    (s.fld .CP_CRING_CFG_ENABLE r = 0 → cBase % (32 * 2 ^ s.fld .CP_CRING_CFG_LOG2 r) = 0 → Sets (.completionRingEnable p coil i) s
      [(.CP_CRING_PTR_WRITE, r, 0), (.CP_CRING_PTR_HEAD, r, 0), (.CP_CRING_CFG_ENABLE, r, 1), (.CP_CRING_MOD_STATUS, r, 0)]) ∧
    (s.heldOf coil i = [] → Sets (.completionRingDisable p coil i) s [(.CP_CRING_CFG_ENABLE, r, 0), (.CP_CRING_MOD_STATUS, r, 0)]) ∧
    Completes (.skflush p coil) s (fun t => (∀ e ∈ t.cap.skdir, e.coil ≠ coil) ∧ (∀ e ∈ t.cap.skent, e.coil ≠ coil) ∧
      t = { s with cap := { s.cap with skdir := t.cap.skdir, skent := t.cap.skent }, out := [], outputs := t.outputs })

/-- Doorbells (R565, R566, R570, R600): a doorbell of the home port moves TAIL or HEAD when it has a legal form and lies within the ring; any other is ignored and
counted, a TAIL that overruns the ring with reason 2; in Port Hold it is dropped. -/
def DoorbellsPart : Prop :=
  ∀ (s : State) (p coil i form value : Nat), coil < 32 → s.homeOf coil = some p → i < 64 →
    let r := 64 * coil + i
    let size := 2 ^ s.fld .CP_SRING_CFG_LOG2 r
    let tail := s.fld .CP_SRING_PTR_TAIL r
    let dist := fun (x y : Nat) => (x + 2 ^ 32 - y) % 2 ^ 32
    let live := (form = 0 ∨ form = 1) ∧ value < 2 ^ 32 ∧ s.fld .CP_COIL_ADMIN_STATE coil ≠ 3
    let sLive := live ∧ s.fld .CP_SRING_CFG_ENABLE r ≠ 0 ∧ s.fld .CP_SRING_CFG_SPAWN r = 0
    let inside := dist value (s.fld .CP_SRING_PTR_HEAD r) ≤ size ∧ dist value tail ≤ size
    let cLive := live ∧ s.fld .CP_CRING_CFG_ENABLE r ≠ 0 ∧ dist value (s.fld .CP_CRING_PTR_HEAD r) ≤ dist (s.fld .CP_CRING_PTR_WRITE r) (s.fld .CP_CRING_PTR_HEAD r)
    (s.fld .HT_HOLD_STATUS_HOLD p = 0 →
      (sLive → inside → Sets (.submissionDoorbell p coil i form value) s [(.CP_SRING_PTR_TAIL, r, value)]) ∧
      (sLive → ¬ inside → Completes (.submissionDoorbell p coil i form value) s (fun t => t.fld .CP_SRING_FAULT_REASON r = 2 ∧ t.fld .CP_SRING_PTR_TAIL r = tail)) ∧
      (¬ sLive → Completes (.submissionDoorbell p coil i form value) s (fun t => t.fld .CP_SRING_PTR_TAIL r = tail ∧
        t.fld .CP_SRING_FAULT_REASON r = s.fld .CP_SRING_FAULT_REASON r ∧ t.fld .CP_SRING_FAULT_IGNORED r ≠ 0)) ∧
      (cLive → s.heldOf coil i = [] → Sets (.completionHeadDoorbell p coil i form value) s [(.CP_CRING_PTR_HEAD, r, value)]) ∧
      (¬ cLive → Completes (.completionHeadDoorbell p coil i form value) s (fun t => t.fld .CP_CRING_PTR_HEAD r = s.fld .CP_CRING_PTR_HEAD r ∧
        t.fld .CP_CRING_MOD_IGNORED r ≠ 0))) ∧
    (s.fld .HT_HOLD_STATUS_HOLD p ≠ 0 → ∀ ins ∈ [Instr.submissionDoorbell p coil i form value, Instr.completionHeadDoorbell p coil i form value],
      Completes ins s (fun t => t.fld .HT_HOLD_COUNT_POSTED_DROPPED p ≠ 0 ∧ t.fld .CP_SRING_PTR_TAIL r = tail ∧ t.fld .CP_CRING_PTR_HEAD r = s.fld .CP_CRING_PTR_HEAD r))

/-- Admission of tickets (R568 to R572): a ticket read advances HEAD and becomes a task in flight, a failed read halts the ring; a directory entry read for a task is kept. -/
def TicketAdmissionPart : Prop :=
  ∀ (s : State) (coil i k x : Nat) (host : Option (List Byte)), coil < 32 → i < 64 →
    let r := 64 * coil + i
    let head := s.fld .CP_SRING_PTR_HEAD r
    let d := s.headRead coil (s.fld .CP_SRING_CFG_BASE r * 128 + 128 * (head % 2 ^ s.fld .CP_SRING_CFG_LOG2 r)) 128 host
    let z := s.task k
    let e := s.headRead z.coil (s.fld .CP_COIL_SKDIR_BASE z.coil * 4096 + 16 * z.ticket.skein) 16 host
    (s.mayAdmit coil = true → s.fld .CP_SRING_CFG_ENABLE r ≠ 0 → s.fld .CP_SRING_FAULT_HALTED r = 0 → head ≠ s.fld .CP_SRING_PTR_TAIL r →
      (d.1 = some x → ticketReserved x = false → s.fld .CP_COIL_SKDIR_VALID coil ≠ 0 → (∀ y ∈ s.cap.skdir, y.coil = coil → y.skein ≠ (ticketOf x).skein) →
        Completes (.ticketRead coil i host) s (fun t => t.fld .CP_SRING_PTR_HEAD r = (head + 1) % 2 ^ 32 ∧ t.cap.nextTask = s.cap.nextTask + 1 ∧
          t.task s.cap.nextTask = { coil := coil, ticket := ticketOf x } ∧ t.mem = s.mem)) ∧
      (d.1 = none → Completes (.ticketRead coil i host) s (fun t => t.fld .CP_SRING_FAULT_HALTED r = 1 ∧ t.fld .CP_SRING_FAULT_REASON r = 1 ∧
        t.fld .CP_SRING_PTR_HEAD r = head))) ∧
    (s.mayAdmit coil = false → Ignored (.ticketRead coil i host) s) ∧
    (z.state = .checking → (∃ y ∈ s.cap.tasks, y.1 = k) → (∀ y ∈ s.cap.skdir, y.coil = z.coil → y.skein ≠ z.ticket.skein) → s.fld .CP_COIL_SKDIR_VALID z.coil ≠ 0 →
      e.1 = some x → x / 2 ^ 64 = 1 → x % 8 = 0 → z.ticket.template < x / 2 ^ 48 % 2 ^ 16 →
      (∀ y ∈ s.cap.skent, y.coil = z.coil → y.skein = z.ticket.skein → y.template ≠ z.ticket.template) →
      Completes (.skeinEntryRead k host) s (fun t => t.task k = z ∧ t.mem = s.mem ∧
        t.cap.skdir = s.cap.skdir ++ [{ coil := z.coil, skein := z.ticket.skein, entry := some (x % 2 ^ 48, x / 2 ^ 48 % 2 ^ 16) }]))

/-- Cancellation (R579, R580): a task that no core has been given is cancelled; TOO_LATE and NOT_FOUND leave everything as it is. -/
def CancellationPart : Prop :=
  ∀ (s : State) (p coil id c d a : Nat), coil < 32 → d < 32 → a < 32 → id < 2 ^ 64 →
    let mine := s.tasksOf (fun t => t.coil = coil && t.ticket.taskId = id)
    let early := mine.filter (fun t => (s.task t).state.undispatched)
    (s.module.railsOn = true → s.homeOf coil = some p →
      (early ≠ [] → Completes (.cancel p coil id) s (fun t => t.fld .CP_CMD_STATUS_CANCEL_STATUS coil = 0)) ∧
      (mine ≠ [] → early = [] → Sets (.cancel p coil id) s [(.CP_CMD_STATUS_CANCEL_STATUS, coil, 1)]) ∧
      (mine = [] → Sets (.cancel p coil id) s [(.CP_CMD_STATUS_CANCEL_STATUS, coil, 2)]) ∧
      (∀ k, early = [k] → (s.task k).coil = coil → (s.task k).ticket.release = [] → s.heldOf coil (s.task k).ticket.cring = [] →
        s.fld .CP_CRING_CFG_ENABLE (64 * coil + (s.task k).ticket.cring) ≠ 0 → s.fld .CP_COIL_ADMIN_HOME_VALID coil ≠ 0 →
        (s.fld .CP_CRING_PTR_WRITE (64 * coil + (s.task k).ticket.cring) + 2 ^ 32 - s.fld .CP_CRING_PTR_HEAD (64 * coil + (s.task k).ticket.cring)) % 2 ^ 32 =
          2 ^ s.fld .CP_CRING_CFG_LOG2 (64 * coil + (s.task k).ticket.cring) →
        s.hostRing k = false →
        Completes (.cancel p coil id) s (fun t => (t.task k).state = .held ∧ ((t.task k).ended.map (·.status)) = some 3))) ∧
    (s.mayIssue c { g := [d, a] } = true → (s.core c).coil = some coil → (s.core c).rg a = BitVec.ofNat 64 id →
      (early ≠ [] → Completes (.tcancel c d a) s (fun t => (t.core c).rg d = 0)) ∧
      (mine ≠ [] → early = [] → Gives (.tcancel c d a) c d 1 s) ∧
      (mine = [] → Gives (.tcancel c d a) c d 2 s))

/-- A completion ring that can take a record of task `k` into Spool at once. -/
def RingTakes (s : State) (k : Nat) : Prop :=
  let z := s.task k
  let r := 64 * z.coil + z.ticket.cring
  s.fld .CP_CRING_CFG_ENABLE r ≠ 0 ∧ s.fld .CP_COIL_ADMIN_HOME_VALID z.coil ≠ 0 ∧ s.hostRing k = false ∧
    (s.fld .CP_CRING_PTR_WRITE r + 2 ^ 32 - s.fld .CP_CRING_PTR_HEAD r) % 2 ^ 32 ≠ 2 ^ s.fld .CP_CRING_CFG_LOG2 r ∧
    ∃ w sh, s.headXlat z.coil (s.fld .CP_CRING_CFG_BASE r * 32 + 32 * (s.fld .CP_CRING_PTR_WRITE r % 2 ^ s.fld .CP_CRING_CFG_LOG2 r)) .write = .spool w sh

/-- Completion records (R577, R581 to R584): a record is written in the order of ends into slot WRITE, which advances; its bytes are in the ring once acknowledged,
and its task is then gone. -/
def CompletionRecordsPart : Prop :=
  ∀ (s : State) (k c w p id coil cring : Nat),
    let z := s.task k
    let r := 64 * z.coil + z.ticket.cring
    let issued := fun (e : EndMsg) (t : State) => (t.task k).state = .writing (s.fld .CP_CRING_PTR_WRITE r) none ∧ (t.task k).ended = some e ∧
      t.fld .CP_CRING_PTR_WRITE r = (s.fld .CP_CRING_PTR_WRITE r + 1) % 2 ^ 32 ∧ t.mem = s.mem
    (∀ e, z.state = .running c → z.msg = some e → z.ticket.release = [] → s.heldOf z.coil z.ticket.cring = [] → RingTakes s k →
      s.tasksOf (fun y => y.coil = z.coil && y.state = .queued (bayOfCore c)) = [] →
      Completes (.taskEnd k) s (fun t => issued e t ∧ t.fld .CR_STATUS_PSTATE c = 2)) ∧
    (∀ e, z.ended = some e → s.heldOf z.coil z.ticket.cring = [k] → RingTakes s k → Completes (.heldRecordRelease z.coil z.ticket.cring) s (issued e)) ∧
    (s.heldOf coil cring = [] → Ignored (.heldRecordRelease coil cring) s) ∧
    (∀ idx e v sh, z.state = .writing idx none → z.ended = some e →
      s.headXlat z.coil (s.fld .CP_CRING_CFG_BASE r * 32 + 32 * (idx % 2 ^ s.fld .CP_CRING_CFG_LOG2 r)) .write = .spool w sh → w % 32 = 0 → PlainLine s (w / 64) v →
      s.vaultCheck v (some z.coil) sh = spOk → Completes (.recordWriteAck k) s (fun t =>
        Wrote w 32 (recordBytes z e (idx / 2 ^ s.fld .CP_CRING_CFG_LOG2 r % 2 = 0) % 2 ^ 256) s t ∧ ∀ y ∈ t.cap.tasks, y.1 ≠ k)) ∧
    ((∃ y ∈ (s.port p).d2h, y.id = id ∧ y.op = .woWrInv) →
      s.tasksOf (fun y => match y.state with | .writing _ (some x) => x = (p, id) | _ => false) = [k] →
      Completes (.extcmp p id) s (fun t => (∀ y ∈ (t.port p).d2h, y.id ≠ id) ∧ (∀ y ∈ t.cap.tasks, y.1 ≠ k) ∧ t.mem = s.mem)) ∧
    (s.fld .CP_CRING_CFG_IRQ_EN (64 * coil + cring) = 0 → Completes (.moderationExpiry coil cring) s (fun t =>
      (SMap.get {} t.cap.rings (64 * coil + cring)).moderating = false ∧ t.mem = s.mem ∧ t.cores = s.cores))

/-- SPAWN (R494, Table 14.7): the ticket is read as 128 bytes; the core then waits until the head has put it into the tail slot of the ring and advanced TAIL, or has
answered with a status. A misaligned ticket is a precise ALIGN fault. -/
def SpawningPart : Prop :=
  ∀ (s : State) (c d a ring w : Nat), d < 32 → a < 32 → ring < 64 →
    let x := s.core c
    let e := (x.rg a).toNat
    let coil := s.coilOf c
    let r := 64 * coil + ring
    let tail := s.fld .CP_SRING_PTR_TAIL r
    (s.mayIssue c { g := [d, a] } = true →
      (e % 128 ≠ 0 → x.fault = none → Completes (.spawn c d a ring) s (fun t => (t.core c).fault.map (·.code) = some 5 ∧ (t.core c).pc = x.pc)) ∧
      (e % 128 = 0 → ∀ els u got u', s.silent.checkEls c 0 .read true ((List.range 16).map (fun k => (k, e + 8 * k, 8))) = .ok els u →
        els.all (fun z => z.region ≠ .dev) = true → u.gather c false els = .done got [] u' → got.map (·.1) = List.range 16 →
        Completes (.spawn c d a ring) s (fun t => (t.core c).wait = .spawn ring d (got.map (·.2)) ∧ t.fld .CR_STATUS_PSTATE c = 1 ∧ t.mem = u'.mem))) ∧
    (∀ ticket, x.wait = .spawn ring d ticket → ticket.length = 16 →
      (∀ v ok, s.spawnRefused coil ring = some v → Completes (.spawnTicketWritten c ok) s (Retires c (({ x with wait := .none }.setG d (BitVec.ofNat 64 v)).at_ (x.pc + 8)) s)) ∧
      (∀ v v' sh, s.spawnRefused coil ring = none →
        s.headXlat coil (s.fld .CP_SRING_CFG_BASE r * 128 + 128 * (tail % 2 ^ s.fld .CP_SRING_CFG_LOG2 r)) .write = .spool w sh → w % 128 = 0 →
        PlainLine s (w / 64) v → PlainLine s (w / 64 + 1) v' → s.vaultCheck v (some coil) sh = spOk → s.vaultCheck v' (some coil) sh = spOk →
        Completes (.spawnTicketWritten c true) s (fun t => (∀ k, k < 16 → t.load (w + 8 * k) 8 = ticket[k]! % 2 ^ 64) ∧
          (∀ k, k < w ∨ w + 128 ≤ k → t.byte k = s.byte k) ∧ t.fld .CP_SRING_PTR_TAIL r = (tail + 1) % 2 ^ 32 ∧
          (t.core c).wait = .none ∧ (t.core c).rg d = 0 ∧ (t.core c).pc = (x.pc + 8) % 2 ^ 64)))

/-- Contexts and invalidations (R260, R261, R284, R286, R295, Table 8.6): a context is enabled only when its root lies in its table region and that region in vaults
of the coil; its table registers are fixed while it is enabled; an accepted invalidation is numbered, and one that starts leaves no translation of its range in any cache. -/
def TranslationContextsPart : Prop :=
  ∀ (s : State) (p coil base count : Nat) (range : Option (Nat × Nat)), s.module.railsOn = true → coil < 32 → s.homeOf coil = some p → base < 2 ^ 17 → count < 9 →
    let root := s.fld .DT_CTX_ROOT_ROOT coil * 4096
    let inside := s.fld .DT_CTX_TBL_BASE coil * 2 ^ 24 ≤ root ∧ root + 4096 ≤ (s.fld .DT_CTX_TBL_BASE coil + s.fld .DT_CTX_TBL_COUNT coil) * 2 ^ 24
    let owned := ∀ i, i < s.fld .DT_CTX_TBL_COUNT coil → s.vaultCoil ((s.fld .DT_CTX_TBL_BASE coil + i) * 2 ^ 24 / vaultSize) = some coil
    let queue := SMap.get [] s.invs coil
    let n := (s.fld .DT_INV_STATUS_ISSUED coil + 1) % 2 ^ 24
    let inv := fun (r : Option (Nat × Nat)) => match r with | some (b, k) => Instr.invRange p coil b k | none => Instr.invAll p coil
    (inside → owned → Sets (.contextEnable p coil) s [(.DT_CTX_CTL_ENABLE, coil, 1), (.DT_CTX_CTL_STATUS, coil, 0)]) ∧
    (¬ inside → Sets (.contextEnable p coil) s [(.DT_CTX_CTL_STATUS, coil, 1)]) ∧
    (inside → ¬ owned → Sets (.contextEnable p coil) s [(.DT_CTX_CTL_STATUS, coil, 2)]) ∧
    Sets (.contextDisable p coil) s [(.DT_CTX_CTL_ENABLE, coil, 0), (.DT_CTX_CTL_STATUS, coil, 0)] ∧
    (s.fld .DT_CTX_CTL_ENABLE coil = 0 → Sets (.ctxTableWrite p coil true base count) s [(.DT_CTX_ROOT_ROOT, coil, base)] ∧
      Sets (.ctxTableWrite p coil false base count) s [(.DT_CTX_TBL_BASE, coil, base), (.DT_CTX_TBL_COUNT, coil, count)]) ∧
    (s.fld .DT_CTX_CTL_ENABLE coil ≠ 0 → ∀ r, Sets (.ctxTableWrite p coil r base count) s [(.DT_CTX_CTL_STATUS, coil, 1)]) ∧
    ((∀ b k, range = some (b, k) → b < 2 ^ 24 ∧ k < 2 ^ 24) →
      (16 ≤ queue.length → Sets (inv range) s [(.DT_INV_STATUS_STATUS, coil, 1)]) ∧
      (queue.length < 16 → Completes (inv range) s (fun t => t.fld .DT_INV_STATUS_ISSUED coil = n ∧ t.fld .DT_INV_STATUS_STATUS coil = 0 ∧
        t.fld .DT_INV_STATUS_PENDING coil = queue.length + 1 ∧ SMap.get [] t.invs coil = queue ++ [{ seq := n, range := range }] ∧ t.mem = s.mem ∧
        (queue = [] → (∀ k, ∀ l ∈ (t.bay k).cache, l.hit coil range = false) ∧ (∀ k, ∀ w ∈ (t.bay k).ptrs, w.hit coil range = false) ∧
          (∀ c, ∀ l ∈ (t.core c).itb ++ (t.core c).dtb, l.hit coil range = false)))) ∧
      (∀ c, queue = [c] → s.invDrained coil c.range = true → Completes (.invalidationDone coil) s (fun t => t.fld .DT_INV_STATUS_DONE coil = c.seq % 2 ^ 24 ∧
        t.fld .DT_INV_STATUS_PENDING coil = 0 ∧ SMap.get [] t.invs coil = [] ∧ t.mem = s.mem)) ∧
      (∀ c rest, queue = c :: rest → s.invDrained coil c.range = false → Ignored (.invalidationDone coil) s))

/-- Grants of shared memory (R281, R616): a grant is made when it is free, its ends are open and its range lies in vaults of its owner; revoking it drops every
translation made through it, and BUSY stands until the accesses made through it have drained. -/
def SharedGrantsPart : Prop :=
  ∀ (s : State) (p g owner grantee perm : Nat), s.module.railsOn = true → g < 256 → owner < 32 → grantee < 32 → perm < 8 →
    let valid := s.fld .DT_SHARE_A_VALID g ≠ 0
    let busy := s.fld .DT_SHARE_A_BUSY g ≠ 0
    let b := s.fld .DT_SHARE_B_BASE g
    let n := s.fld .DT_SHARE_B_COUNT g
    let refused := valid ∨ busy ∨ owner = grantee ∨ s.sealed owner = true ∨ s.sealed grantee = true
    let far := spoolSize < (b + n) * 2 ^ 24
    let owned := ∀ i, i < n → s.vaultCoil ((b + i) * 2 ^ 24 / vaultSize) = some owner
    (s.homeOf owner = some p →
      (refused → Sets (.shareGrant p g owner grantee perm) s [(.DT_SHARE_A_STATUS, g, 2)]) ∧
      (¬ refused → far → Sets (.shareGrant p g owner grantee perm) s [(.DT_SHARE_A_STATUS, g, 3)]) ∧
      (¬ refused → ¬ far → ¬ owned → Sets (.shareGrant p g owner grantee perm) s [(.DT_SHARE_A_STATUS, g, 1)]) ∧
      (¬ refused → ¬ far → owned → Sets (.shareGrant p g owner grantee perm) s [(.DT_SHARE_A_OWNER, g, owner), (.DT_SHARE_A_GRANTEE, g, grantee),
        (.DT_SHARE_A_PERM, g, perm), (.DT_SHARE_A_VALID, g, 1), (.DT_SHARE_A_STATUS, g, 0), (.DT_STATUS_GRANTS, 0, (s.fld .DT_STATUS_GRANTS 0 + 1) % 512)])) ∧
    (s.homeOf (s.fld .DT_SHARE_A_OWNER g) = some p → s.fld .DT_SHARE_A_OWNER g < 32 →
      (valid → Completes (.shareRevoke p g) s (fun t => t.fld .DT_SHARE_A_VALID g = 0 ∧ t.fld .DT_SHARE_A_BUSY g = 1 ∧ t.fld .DT_SHARE_A_STATUS g = 0 ∧ t.mem = s.mem ∧
        (∀ k, ∀ l ∈ (t.bay k).cache, l.grant ≠ some g) ∧ ∀ c, ∀ l ∈ (t.core c).itb ++ (t.core c).dtb, l.grant ≠ some g)) ∧
      (¬ valid → Sets (.shareRevoke p g) s [(.DT_SHARE_A_STATUS, g, if busy then 2 else 0)])) ∧
    (busy → (∀ e ∈ s.cores, ∀ a ∈ e.2.accesses, a.leaf.bind (·.grant) ≠ some g) → Sets (.shareRevokeDrained g) s [(.DT_SHARE_A_BUSY, g, 0)]) ∧
    (∀ e ∈ s.cores, ∀ a ∈ e.2.accesses, a.leaf.bind (·.grant) = some g → Ignored (.shareRevokeDrained g) s)

/-- Misses and walks (R262, R273, R274, R290): a miss that its bay cache holds lets the core go on, another takes a free walker or joins a walk of its fathom; a walk
goes one level down at each pointer, keeps the leaf it finds, and delivers a fault to the core that waits. A faulty walker is used no more. -/
def Obligations.TranslationWalks : Prop :=
  ∀ (s : State) (c coil dva w : Nat) (kind : AccKind),
    let x := s.core c
    let k := bayOfCore c
    let b := s.bay k
    let found := b.cache.find? (fun l => l.serves coil dva)
    (x.stalled = some (kind, dva) → x.coil = some coil → s.fences.cores.contains c = false →
      (∀ l, found = some l → Completes (.translationMiss c) s (fun t => (t.core c).stalled = none ∧ t.fld .CR_STATUS_PSTATE c = 0 ∧
        (kind = .fetch → l ∈ (t.core c).itb) ∧ (kind ≠ .fetch → l ∈ (t.core c).dtb) ∧ (t.core c).pc = x.pc ∧ (t.core c).g = x.g ∧ t.mem = s.mem)) ∧
      (found = none → (∀ z ∈ b.walks, z.miss.same coil dva = false) → (∀ m ∈ b.queue, m.same coil dva = false) → s.freeWalker k = some w →
        Completes (.translationMiss c) s (fun t => (t.bay k).walks = b.walks ++ [Walk.mk w ⟨coil, dva, [.core c 0]⟩ (s.walkStart k coil dva).1 (s.walkStart k coil dva).2 false] ∧ t.core c = x ∧ t.mem = s.mem)) ∧
      (∀ z, found = none → b.walks = [z] → z.miss.same coil dva = true → z.stale = false → b.queue = [] → Completes (.translationMiss c) s (fun t =>
        ∃ z', (t.bay k).walks = [z'] ∧ z'.walker = z.walker ∧ Src.core c 0 ∈ z'.miss.srcs ∧ ∀ q ∈ z.miss.srcs, q ∈ z'.miss.srcs))) ∧
    (∀ z, b.walks = [z] → z.walker = w → z.stale = false → b.queue = [] → s.preFault z.miss.coil z.miss.dva = none →
      (∀ next, s.readEntry z.miss.coil z.level z.miss.dva z.entry = .next next → Completes (.walkEntryRead k w) s (fun t =>
        (t.bay k).walks = [{ z with level := z.level + 1, entry := entryAddr next (z.level + 1) z.miss.dva }] ∧ t.mem = s.mem ∧ t.cores = s.cores)) ∧
      (∀ l, s.readEntry z.miss.coil z.level z.miss.dva z.entry = .leaf l → Completes (.walkEntryRead k w) s (fun t => l ∈ (t.bay k).cache ∧ (t.bay k).walks = [] ∧ t.mem = s.mem)) ∧
      (∀ e, s.readEntry z.miss.coil z.level z.miss.dva z.entry = .fault e → z.miss.srcs = [.core c 0] → z.miss.coil = coil → z.miss.dva = dva → x.stalled = some (kind, dva) →
        x.coil = some coil → x.running = true → x.fault = none → Completes (.walkEntryRead k w) s (fun t => (t.bay k).walks = [] ∧ t.mem = s.mem ∧
          (t.core c).fault.map (fun f => (f.cause, f.addr, f.pc)) = some (e.code, dva, x.pc) ∧ t.fld .DT_FAULT_INFO_CAUSE coil = e.code ∧
          t.fld .DT_FAULT_ADDR_DVA coil = dva % 2 ^ 48))) ∧
    (s.module.railsOn = true → k < 96 → w < 8 → b.dead.contains w = false → b.dead.length < 7 → Completes (.walkerFault k w) s (fun t =>
      w ∈ (t.bay k).dead ∧ (∀ z ∈ (t.bay k).walks, z.walker ≠ w) ∧ t.mem = s.mem)) ∧
    (∀ v r l u z, s.coreLive c = true → s.fetched c = false → x.rig = false → s.xlatDva c x.pc .fetch = .ok v r l →
      (s.silent.keepLeaf c l true).obtain c (v / 64) (r = .str) (leafShared l) .brd false = .have z u → z.poison = false →
      Completes (.l1iFill c) s (fun t => (t.core c).l1i.contains (v / 64) = true ∧ (t.core c).pc = (u.core c).pc ∧ t.mem = u.mem))

/-- The bay bus (R339 to R344, R366): a request that no peer can answer goes home and is pending; a peer that holds the line exclusively supplies it, keeping a shared
copy for a read and none for a read of ownership; a request that has waited too long is promoted. -/
def BusRequestsPart : Prop :=
  ∀ (s : State) (y line q : Nat) (streaming full : Bool) (c : CLine), s.busUp y = true →
    let k := bayOfPly y
    let alone := ∀ z, z / 4 = k → z ≠ y → (s.ply z).copy line = none
    let goesHome := fun (ins : Instr) (req : BayReq) (streaming demand : Bool) => Completes ins s (fun t => t.plies = s.plies ∧ t.mem = s.mem ∧
      (t.bus k).reqs = [{ ply := y, line := line, req := req, coil := s.plyCoil y, streaming := streaming, demand := demand, pending := true,
                          held := (s.bus k).wbs.any (fun w => w.line = line) }])
    let supplied := fun (st : Mesi) (t : State) => (t.bus k).reqs = [] ∧ t.mem = s.mem ∧
      ∃ z, (t.ply y).copy line = some z ∧ z.st = st ∧ z.data = c.data ∧ z.poison = c.poison ∧ z.str = false
    ((s.bus k).reqs = [] →
      goesHome (.bclr y line) .bclr false true ∧ goesHome (.binv y line) .binv false true ∧
      (alone → goesHome (.brd y line streaming) .brd streaming true ∧ goesHome (.brds y line) .brds true false ∧ goesHome (.brdx y line) .brdx false true ∧
        goesHome (.bown y line full) (.bown full) false true) ∧
      (q / 4 = k → q ≠ y → (s.ply q).copy line = some c → c.str = false → (c.st = .e ∨ c.st = .m) → (∀ z, z / 4 = k → z ≠ q → (s.ply z).copy line = none) →
        (s.ply y).cache = [] → s.carved y < 16 →
        (∀ ins ∈ [Instr.brd y line streaming, Instr.brds y line], Completes ins s (fun t => supplied .s t ∧ (t.ply q).copy line = some { c with st := .s } ∧
          (t.bus k).wbs = (s.bus k).wbs ++ [{ ply := q, line := line, kind := .dng, data := if c.st = .m then some c.data else none, poison := c.poison, stage := 1 }])) ∧
        (∀ ins ∈ [Instr.brdx y line, Instr.bown y line false], Completes ins s (fun t => supplied .m t ∧ (t.ply q).copy line = none)))) ∧
    (∀ r, (s.bus k).reqs = [r] → r.ply = y → r.line = line → r.pending = false → r.promoted = false →
      Completes (.requestPromoted y line) s (fun t => (t.bus k).reqs = [{ r with promoted := true, age := max r.age 4096 }] ∧
        t.fld .BA_STATUS_PROMOTED k = 2 ^ (line % 4) ∧ t.mem = s.mem ∧ t.plies = s.plies)) ∧
    ((∀ r ∈ (s.bus k).reqs, ¬ (r.ply = y ∧ r.line = line)) → Ignored (.requestPromoted y line) s)

/-- Write-backs (R340, R343, R349, Table 10.7): the writeback phase accepts a message of a ply, its home writes the data and sets the directory by its kind, and the
acknowledgement frees the buffer entry. -/
def WriteBacksPart : Prop :=
  ∀ (s : State) (y line v : Nat) (w : WbEntry),
    let k := bayOfPly y
    let accepts := fun (ins : Instr) (kind : WbKind) => w.kind = kind → Completes ins s (fun t => (t.bus k).wbs = [{ w with stage := 1 }] ∧
      t.fld .BA_STATUS_WB_PENDING k = 1 ∧ t.mem = s.mem ∧ t.plies = s.plies)
    let homed := fun (ins : Instr) (kind : WbKind) (d : Dir) => w.kind = kind → Completes ins s (fun t => (t.bus k).wbs = [{ w with stage := 2 }] ∧ t.dir line = d ∧
      (∀ x, w.data = some x → t.lineAt (64 * line) = x) ∧ (w.data = none → t.mem = s.mem) ∧ (∀ j, j / 64 ≠ line → t.byte j = s.byte j))
    ((s.bus k).wbs = [w] → w.line = line →
      (w.ply = y → w.stage = 0 → accepts (.bwb y line) .wb ∧ accepts (.bevc y line) .evc ∧ accepts (.bcln y line) .cln) ∧
      (w.stage = 1 → s.hitchOf line = none → lineVault line = some v → s.vaultCheck v none none = spOk → s.dir line = .owned k →
        homed (.wb k line) .wb .none ∧ homed (.evc k line) .evc .none ∧ homed (.cln k line) .cln (.owned k) ∧ homed (.dng k line) .dng (.shared [k])) ∧
      (w.stage = 2 → Completes (.ack k line) s (fun t => (t.bus k).wbs = [] ∧ t.fld .BA_STATUS_WB_PENDING k = 0 ∧ t.mem = s.mem ∧
        (∀ r ∈ (t.bus k).reqs, r.line = line → r.held = false ∧ r.done = false)))) ∧
    Sets (.sweepDone k) s [(.BA_STATUS_SWEEP, k, 0)]

/-- Requests at a vault home slice (R346 to R350, Table 10.6): with no other holder the home grants at once the state that the request asks for, with the vault's data,
and its directory names the new owner or sharer; CLNR and INVR of an unheld line are answered. A request of a coil that the governor pauses waits
(R249). -/
def HomeGrantsPart : Prop :=
  ∀ (s : State) (y line v : Nat) (r : BusReq) (full : Bool),
    let k := bayOfPly y
    let data := s.lineAt (64 * line)
    let grants := fun (ins : Instr) (req : BayReq) (st : Mesi) (withData : Bool) (d : Dir) => r.req = req → Completes ins s (fun t => t.dir line = d ∧ t.mem = s.mem ∧
      (t.txn line).busy = true ∧ (t.txn line).src = k ∧ (t.txn line).ply = y ∧ (t.txn line).grant = some { st := st, data := if withData then some data else none })
    (s.bus k).reqs = [r] → r.ply = y → r.line = line → r.pending = true → r.held = false → r.done = false → s.flipping line = false → s.txn line = {} →
      s.hitchOf line = none → linePort line = none → PlainLine s line v → s.vaultCheck v r.coil r.shared = spOk → s.dir line = .none →
      s.fld .SP_VAULT_STATUS_UE_LINES v < 64 →
      (GovPaused s r.coil → ∀ ins ∈ [Instr.rda y line {}, .rds y line {}, .rdx y line {}, .own y line full {}, .clnr y line, .invr y line], Ignored ins s) ∧ (GovRuns s r.coil →
      grants (.rda y line {}) .brd .e true (.owned k) ∧ grants (.rds y line {}) .brds .s true (.shared [k]) ∧ grants (.rdx y line {}) .brdx .m true (.owned k) ∧
      grants (.own y line full {}) (.bown full) .m (!full) (.owned k) ∧
      (r.req = .bclr → Completes (.clnr y line) s (fun t => t.dir line = .none ∧ (t.txn line).busy = false ∧ (t.bus k).reqs = [{ r with done := true }] ∧ t.mem = s.mem)) ∧
      (r.req = .binv → Completes (.invr y line) s (fun t => t.dir line = .none ∧ (t.txn line).busy = false ∧ (t.bus k).reqs = [{ r with done := true }] ∧ t.mem = s.mem)))

/-- Snoops and their answers (R336, R337, R347, R348, R350): a bay answers with its dirty data or with what it holds, and its copy becomes what the snoop asks for; the
home writes returned data, and grants when no answer is outstanding; the grant is installed, and CmpAck ends the transaction. -/
def SnoopsAndGrantsPart : Prop :=
  ∀ (s : State) (k line y v : Nat) (c : CLine) (g : GrantMsg) (r : BusReq),
    let x := s.txn line
    let nothing := ∀ z, z / 4 = k → (s.ply z).copy line = none
    let only := (s.ply y).copy line = some c ∧ y / 4 = k ∧ ∀ z, z / 4 = k → z ≠ y → (s.ply z).copy line = none
    let snooped := fun (ins : Instr) (kind : Snoop) (after : Option CLine) => x.snoop = kind →
      (nothing → Completes ins s (fun t => (t.txn line).rsps = x.rsps ++ [{ holder := k, rsp := .rspI }] ∧ (t.txn line).waiting = x.waiting.erase k ∧ t.mem = s.mem)) ∧
      (only → c.st = .m → c.str = false → Completes ins s (fun t => (t.txn line).waiting = x.waiting.erase k ∧ t.mem = s.mem ∧ (t.ply y).copy line = after ∧
        (t.txn line).rsps = x.rsps ++ [{ holder := k, rsp := .rspData, data := some c.data, poison := c.poison }]))
    let taken := fun (ins : Instr) (data : LineData) => Completes ins s (fun t => (t.txn line).busy = true ∧ t.dir line = .owned x.src ∧
      (t.txn line).grant = some { st := .m, data := some data } ∧ t.lineAt (64 * line) = data)
    (x.busy = true → x.waiting.contains k = true → k < 96 → s.wbInFlight k line = [] →
      snooped (.snps k line) .snpS (some { c with st := .s }) ∧ snooped (.snpinv k line) .snpInv none ∧ snooped (.snpcur k line) .snpCur (some c) ∧
      snooped (.snpclean k line) .snpClean (some { c with st := .e })) ∧
    (x.busy = true → x.op = .rdx → x.waiting = [] → x.queue = [] → s.hitchOf line = none → PlainLine s line v → (s.dir line ≠ .owned k ∨ 96 ≤ k) →
      (x.rsps = [{ holder := k, rsp := .rspI }] → taken (.rspi k line) (s.lineAt (64 * line))) ∧
      (x.rsps = [{ holder := k, rsp := .rspS }] → taken (.rsps k line) (s.lineAt (64 * line))) ∧
      (x.rsps = [{ holder := k, rsp := .rspV }] → taken (.rspv k line) (s.lineAt (64 * line))) ∧
      (∀ d, x.rsps = [{ holder := k, rsp := .rspData, data := some d }] → taken (.rspdata k line) d)) ∧
    (x.busy = true → x.installed = false → x.grant = some g → x.src = bayOfPly y → x.ply = y → (s.bus x.src).reqs = [r] → r.ply = y → r.line = line → r.pending = true →
      r.demand = true → (∀ f, r.req ≠ .bown f) → (s.ply y).cache = [] → (s.ply y).victim = [] → s.carved y < 16 →
      Completes (.grant line) s (fun t => (t.txn line).installed = true ∧ (t.bus x.src).reqs = [] ∧ t.mem = s.mem ∧
        ∃ z, (t.ply y).copy line = some z ∧ z.st = g.st ∧ z.data = g.data.getD 0 ∧ z.poison = g.poison)) ∧
    (x.busy = true → x.installed = true → x.queue = [] → Completes (.cmpack line) s (fun t => (t.txn line).busy = false ∧ (t.txn line).grant = none ∧ t.mem = s.mem ∧ t.plies = s.plies)) ∧
    (x.busy = false → Ignored (.grant line) s ∧ Ignored (.cmpack line) s)

/-- Non-caching requests at a vault (R214, R330, R348): a read gives the line, a masked write changes exactly the bytes of its mask, an atomic exchanges its field; a
vault that another coil owns answers PERM and nothing in memory changes; the request of a coil that the governor pauses waits (R249). It rests on the model's choices of log entries 6, 16, 90. -/
def Obligations.NonCachingRequests : Prop :=
  ∀ (s : State) (line v off size b op : Nat) (coil shared : Option Nat) (data : LineData) (mask : BitVec 64) (rq : SpoolReq),
    let place := (v * vaultSize + off) / 64
    let served := s.quietLine line = true ∧ PlainLine s line v ∧ s.vaultCheck v coil shared = spOk ∧ s.fld .SP_VAULT_STATUS_UE_LINES v < 64
    let masked := fun (l : Nat) (d : LineData) (m : BitVec 64) (t : State) =>
      ∀ j, t.byte j = if j / 64 = l ∧ m.getLsbD (j % 64) = true then BitVec.ofNat 8 (d.toNat / 2 ^ (8 * (j % 64))) else s.byte j
    let refused := fun (ins : Instr) => Completes ins s (fun t => t.mem = s.mem ∧ t.plies = s.plies)
    (served → GovPaused s coil → Ignored (.rdnc line coil shared {}) s ∧ Ignored (.wrnc line coil shared data mask false) s ∧ Ignored (.atom line coil shared op off size b 0) s) ∧
    (served → GovRuns s coil →
      Completes (.rdnc line coil shared {}) s (fun t => t.out = [.home 0 (s.lineAt (64 * line)).toNat false] ∧ t.mem = s.mem) ∧
      Completes (.wrnc line coil shared data mask false) s (fun t => masked line data mask t ∧ .home 0 0 false ∈ t.out ∧ t.dir line = .none) ∧
      ((size = 4 ∨ size = 8) → off % size = 0 → off + size ≤ 64 → op = 0x11 → Completes (.atom line coil shared op off size b 0) s (fun t =>
        Wrote (64 * line + off) size ((s.load (64 * line + off) size + b) % 2 ^ (8 * size)) s t ∧ .home 0 (s.load (64 * line + off) size) false ∈ t.out ∧ t.dir line = .none))) ∧
    (s.quietLine line = true → lineVault line = some v → s.vaultCheck v coil shared ≠ spOk →
      refused (.wrnc line coil shared data mask false) ∧ refused (.atom line coil shared op off size b 0)) ∧
    (s.module.railsOn = true → v < 3072 → off < vaultSize → (s.vault v).copying = [] → PlainLine s place v → s.vaultCheck v rq.coil rq.shared = spOk → rq.check = {} →
      s.fld .SP_VAULT_STATUS_UE_LINES v < 64 → GovRuns s rq.coil →
      (rq.write = true → rq.poison = false → Completes (.vaultRequest v off rq) s (fun t => masked place rq.data rq.mask t ∧ .spool 0 0 false ∈ t.out)) ∧
      (rq.write = false → Completes (.vaultRequest v off rq) s (fun t => t.out = [.spool 0 (s.lineAt (64 * place)) false] ∧ t.mem = s.mem))) ∧
    (s.module.railsOn = true → v < 3072 → off < vaultSize → s.fld .SP_SCRUB_CTL_ENABLE 0 ≠ 0 → s.fences.vaults.contains v = false → (s.vault v).resetting = false →
      s.fld .SP_VAULT_STATUS_UE_LINES v < 64 →
      (Ignored (.patrolScrub v off {} false) s) ∧
      Completes (.patrolScrub v off {} true) s (fun t => t.fld .SP_SCRUB_STATUS_PASSES 0 = (s.fld .SP_SCRUB_STATUS_PASSES 0 + 1) % 2 ^ 16 ∧ (t.vault v).rowCe = [] ∧
        (t.vault v).periodCe = 0 ∧ t.mem = s.mem))

/-- The host's answers to the Hitch (R355, Table 10.9): a GO response grants the state that was asked for, with the host's data; Err installs nothing and poisons whoever
waits; GO_WritePull sends the evicted data. -/
def HostGrantsPart : Prop :=
  ∀ (s : State) (p id : Nat) (r : D2h) (go : GoKind) (data : LineData) (poison : Bool), (s.port p).d2h = [r] → r.id = id →
    let x := s.txn r.line
    (x.busy = true → x.d2h = some r.op → r.op ≠ .woWrInv → (s.port p).sf = [] → go = .s ∨ go = .e ∨ go = .m →
      Completes (.go p id go data poison) s (fun t => (t.port p).d2h = [] ∧ t.mem = s.mem ∧ (t.sf p r.line).holders = [x.src] ∧ (t.txn r.line).d2h = none ∧
        (t.txn r.line).grant = some { st := if r.op = .rdShared then .s else .m, data := if r.op = .rdOwnNoData then none else some data, poison := poison })) ∧
    (x.busy = true → x.d2h = some r.op → r.op ≠ .woWrInv → x.queue = [] → Completes (.go p id .err data poison) s (fun t => (t.port p).d2h = [] ∧ t.mem = s.mem ∧
      (t.txn r.line).busy = false ∧ (t.ply x.ply).poisonedMiss.contains r.line = true ∧ ∀ q ∈ (t.bus (bayOfPly x.ply)).reqs, ¬ (q.ply = x.ply ∧ q.line = r.line))) ∧
    (x.busy = false → x.queue = [] → r.op = .cleanEvict → Completes (.go p id .i data poison) s (fun t => (t.port p).d2h = [] ∧ t.mem = s.mem ∧ t.plies = s.plies)) ∧
    (r.op = .dirtyEvict → r.again = false → x.busy = false → x.queue = [] → Completes (.goWritepull p id) s (fun t => (t.port p).d2h = [] ∧ t.mem = s.mem ∧
      t.out = [.d2h p id .dirtyEvict r.line (some r.data) r.poison])) ∧
    (r.op ≠ .dirtyEvict → Ignored (.goWritepull p id) s)

/-- Host snoops and back-invalidations (R357, R359, Table 10.10): a snoop of a line that no device cache holds is a miss; one of a line that a bay holds modified is
answered with its data, and the copy becomes what the snoop asks for; BIRsp lets the transaction that waits for it go on; a conflicting host request waits behind it. -/
def HostSnoopsPart : Prop :=
  ∀ (s : State) (p addr k y line v mv snp : Nat) (c : CLine) (kind : Rsp),
    let hl := hostLine p addr
    let e := s.sf p hl
    let only := (s.ply y).copy hl = some c ∧ y / 4 = k ∧ (∀ z, z / 4 = k → z ≠ y → (s.ply z).copy hl = none) ∧ c.str = false ∧ s.wbInFlight k hl = []
    let answer := fun (ins : Instr) (code : Nat) (after : Option CLine) => Completes ins s (fun t => t.out = [.h2dRsp p code (if c.st = .m then some c.data else none)] ∧
      (t.ply y).copy hl = after ∧ t.mem = s.mem)
    let x := s.txn line
    (s.fld .HT_HOLD_STATUS_HOLD p ≠ 0 ∨ e.holders = [] →
      ∀ ins ∈ [Instr.h2dSnpinv p addr, Instr.h2dSnpdata p addr, Instr.h2dSnpcur p addr], Sends ins s (.h2dRsp p 0 none)) ∧
    (s.fld .HT_HOLD_STATUS_HOLD p = 0 → e.holders = [k] → only →
      (c.st = .m → answer (.h2dSnpinv p addr) 2 none ∧ answer (.h2dSnpdata p addr) 4 (some { c with st := .s }) ∧ answer (.h2dSnpcur p addr) 6 (some c)) ∧
      (c.st = .e → answer (.h2dSnpinv p addr) 1 none ∧ answer (.h2dSnpdata p addr) 3 (some { c with st := .s }) ∧ answer (.h2dSnpcur p addr) 5 (some c))) ∧
    ((s.port p).backInv = [line] → x.busy = true → x.waiting = [96 + p] → x.rsps = [] → x.op = .rdx → x.queue = [] → s.hitchOf line = none → PlainLine s line v →
      Completes (.birsp p line kind) s (fun t => (t.port p).backInv = [] ∧ (t.txn line).waiting = [] ∧ t.dir line = .owned x.src ∧ t.mem = s.mem ∧
        (t.txn line).grant = some { st := .m, data := some (s.lineAt (64 * line)) })) ∧
    ((s.port p).backInv.contains line = false → Ignored (.birsp p line kind) s ∧ Ignored (.biconflict p line (.memRd mv snp)) s) ∧
    ((s.port p).backInv.contains line = true → x.busy = true → Completes (.biconflict p line (.memRd mv snp)) s (fun t =>
      t.txn line = { x with queue := x.queue ++ [{ op := .memRd mv snp, src := 96 + p }] } ∧ t.mem = s.mem ∧ t.plies = s.plies))

/-- Bias flips (R145, R360, R362): a flip is accepted only in HDM-D mode, one at a time, within the decoded fathoms; when it is done the fathom has its new bias. -/
def BiasFlipsPart : Prop :=
  ∀ (s : State) (p fathom : Nat) (toDevice : Bool), p < 8 → fathom < 2 ^ 14 → s.module.railsOn = true →
    let flip := Instr.biasFlip p fathom toDevice
    let f := s.fld .HT_BIAS_FLIP_FATHOM p
    (s.fld .HT_LINK_STATUS_HDM p ≠ 1 → Sets flip s [(.HT_BIAS_FLIP_STATUS, p, 2)]) ∧
    (s.fld .HT_LINK_STATUS_HDM p = 1 → s.fld .HT_BIAS_FLIP_BUSY p ≠ 0 → Sets flip s [(.HT_BIAS_FLIP_STATUS, p, 1)]) ∧
    (s.fld .HT_LINK_STATUS_HDM p = 1 → s.fld .HT_BIAS_FLIP_BUSY p = 0 → s.hdmFathoms p ≤ fathom → Sets flip s [(.HT_BIAS_FLIP_STATUS, p, 3)]) ∧
    (s.fld .HT_LINK_STATUS_HDM p = 1 → s.fld .HT_BIAS_FLIP_BUSY p = 0 → fathom < s.hdmFathoms p → Sets flip s [(.HT_BIAS_FLIP_FATHOM, p, fathom),
      (.HT_BIAS_FLIP_TO_DEVICE, p, b2n toDevice), (.HT_BIAS_FLIP_STATUS, p, 0), (.HT_BIAS_FLIP_BUSY, p, 1)]) ∧
    (s.fld .HT_BIAS_FLIP_BUSY p ≠ 0 → Completes (.biasFlipDone p) s (fun t => t.fld .HT_BIAS_FLIP_BUSY p = 0 ∧
      (t.fld .HT_BIAS_BIAS (512 * p + f / 32)).testBit (f % 32) = s.flag .HT_BIAS_FLIP_TO_DEVICE p)) ∧
    (s.fld .HT_BIAS_FLIP_BUSY p = 0 → Ignored (.biasFlipDone p) s)

/-- Host memory requests at device memory (R239, R241, R358, R361, Tables 4.2 and 10.11): in HDM-D mode a read gives the line and a write stores it; in HDM-DB mode the home
also keeps the directory. MemSpecRd changes nothing. It rests on the model's choices of log entries 6, 34, 41. -/
def Obligations.HostMemoryRequests : Prop :=
  ∀ (s : State) (p dpa line coil v mv snp : Nat) (data : LineData) (mask : BitVec 64) (x : D2h) (rq : HdmReq), p < 8 →
    let q := 96 + p
    let now := s.lineAt (64 * line)
    let stored := fun (d : LineData) (m : BitVec 64) (t : State) =>
      ∀ j, t.byte j = if j / 64 = line ∧ m.getLsbD (j % 64) = true then BitVec.ofNat 8 (d.toNat / 2 ^ (8 * (j % 64))) else s.byte j
    let reads := fun (ins : Instr) (code : Nat) (d : Dir) => Completes ins s (fun t => t.out = [.memReply p code now false] ∧ t.dir line = d ∧ t.mem = s.mem)
    let ready := (s.port p).linkUp = true ∧ s.fld .HT_HOLD_STATUS_HOLD p = 0 ∧ s.fld .HT_IDE_CTL_REQUIRE_CXL p = 0 ∧ s.hdmAt p dpa = .at line coil ∧ PlainLine s line v
    let inD := ready ∧ s.fld .HT_LINK_STATUS_HDM p = 1
    let inDB := ready ∧ s.fld .HT_LINK_STATUS_HDM p = 2 ∧ s.quietLine line = true ∧ s.dir line = .none
    Ignored (.memspecrd p dpa) s ∧
    (inD → Completes (.memrd p dpa mv snp) s (fun t => t.out = [.memReply p 0 now false] ∧ t.mem = s.mem) ∧
      Completes (.memrddata p dpa) s (fun t => t.out = [.memReply p 0 now false] ∧ t.mem = s.mem) ∧
      Sends (.meminv p dpa mv) s (.memAck p) ∧ Sends (.memclnevct p dpa) s (.memAck p) ∧
      Completes (.memwr p dpa mv data false) s (fun t => stored data (BitVec.allOnes 64) t ∧ t.out = [.memAck p]) ∧
      Completes (.memwrptl p dpa mv data mask false) s (fun t => stored data mask t ∧ t.out = [.memAck p]) ∧
      ((s.port p).d2h = [x] → x.line = line → (s.port p).sf = [] → (s.txn line).busy = true → (s.txn line).d2h = some x.op →
        Completes (.memrdfwd p dpa) s (fun t => (t.port p).d2h = [] ∧ t.mem = s.mem ∧
          (t.txn line).grant = some { st := if x.op = .rdShared then .s else .m, data := some now })) ∧
      ((s.port p).d2h = [x] → x.line = line → x.op = .dirtyEvict → x.again = false → x.mask = BitVec.allOnes 64 → x.poison = false → (s.txn line).queue = [] →
        Completes (.memwrfwd p dpa) s (fun t => (t.port p).d2h = [] ∧ stored x.data (BitVec.allOnes 64) t ∧ t.out = [.memAck p]))) ∧
    (inDB → reads (.memrd p dpa 2 snp) 2 (.owned q) ∧ reads (.memrd p dpa 1 snp) 1 (.shared [q]) ∧ reads (.memrd p dpa 0 snp) 0 .none ∧
      reads (.memrddata p dpa) 2 (.owned q) ∧
      Completes (.meminv p dpa 0) s (fun t => t.out = [.memReply p 0 0 false] ∧ t.dir line = .none ∧ t.mem = s.mem) ∧
      (mv ≠ 0 → Completes (.meminv p dpa mv) s (fun t => t.out = [.memReply p 2 0 false] ∧ t.dir line = .owned q ∧ t.mem = s.mem)) ∧
      Completes (.memclnevct p dpa) s (fun t => t.out = [.memReply p 0 0 false] ∧ t.dir line = .none ∧ t.mem = s.mem) ∧
      Completes (.memwr p dpa mv data false) s (fun t => stored data (BitVec.allOnes 64) t ∧ t.dir line = .none ∧ t.out = [.memReply p 0 0 false]) ∧
      Completes (.memwrptl p dpa mv data mask false) s (fun t => stored data mask t ∧ t.dir line = .none ∧ t.out = [.memReply p 0 0 false])) ∧
    (ready → s.fld .HT_LINK_STATUS_HDM p ≠ 0 → s.fld .HT_LINK_STATUS_READY p ≠ 0 → rq.io = true → s.fld .HT_PM_STATUS_DSTATE p ≠ 3 →
      (s.fld .HT_IDE_CTL_REQUIRE_IO p = 0 ∨ rq.secure = true) → s.quietLine line = true → s.vaultCheck v (some coil) none = spOk → rq.poison = false →
      (rq.write = false → Completes (.hdmAccess p dpa rq) s (fun t => t.out = [.ioReply p 0 now false] ∧ t.mem = s.mem)) ∧
      (rq.write = true → Completes (.hdmAccess p dpa rq) s (fun t => stored rq.data rq.mask t)))

/-- Links of the host ports (R90, R91, R108, R131, R134, R140, R166, Table 4.2): PERST_N, a hot reset and a surprise link down put the port into reset; it is ready again at
HITCH_READY; a trained link fixes speed, width, protocol and memory mode. It rests on the model's choices of log entries 6, 30, 38. -/
def Obligations.HostLinks : Prop :=
  ∀ (s : State) (p width : Nat) (enter : Bool) (o : LinkOffer), p < 8 →
    let x := s.port p
    let proto := if o.proto = 0 ∨ o.rate < 5 then 1 else if o.proto = 1 then 2 else 3
    let legal := fun (w : Nat) => w = 4 ∨ w = 8 ∨ w = 16
    let inReset := fun (t : State) => (t.port p).resetting = true ∧ (t.port p).linkUp = false ∧ t.fld .HT_LINK_STATUS_READY p = 0
    (s.perst p = false → s.module.railsOn = false → Completes (.perstNAssert p) s (fun t => t.perst p = true ∧ t.ports = s.ports ∧ t.regs = s.regs ∧ t.mem = s.mem)) ∧
    (s.perst p = false → s.module.railsOn = true → x.resetting = false → Completes (.perstNAssert p) s (fun t => t.perst p = true ∧ inReset t ∧ (t.port p).released = false)) ∧
    (s.perst p = true → Ignored (.perstNAssert p) s ∧ Completes (.perstNDeassert p) s (fun t => t.perst p = false ∧ t.regs = s.regs ∧ t.mem = s.mem ∧
      (t.port p).released = (x.released || x.present && s.releaseStep))) ∧
    (s.ready = true → x.present = true → s.perst p = false → s.fld .HT_LINK_STATUS_READY p = 0 → Completes (.hitchReady p) s (fun t =>
      t.fld .HT_LINK_STATUS_READY p = 1 ∧ t.cfgVal p 0 .memoryInfoValid = 1 ∧ t.cfgVal p 0 .memoryActive = 1)) ∧
    (x.released = true → s.perst p = false → 1 ≤ o.rate → o.rate ≤ 6 → legal o.width → o.degraded = false → Completes (.linkTrained p o) s (fun t =>
      (t.port p).linkUp = true ∧ (t.port p).trained = o.width ∧ t.fld .HT_LINK_STATUS_WIDTH p = o.width ∧ t.fld .HT_LINK_STATUS_PROTO p = proto ∧
      t.fld .HT_LINK_STATUS_HDM p = proto - 1 ∧ t.fld .HT_LINK_STATUS_SPEED p = (if proto = 2 then 5 else o.rate) ∧ t.fld .HT_LINK_STATUS_L0P p = 0 ∧
      t.fld .HT_LINK_STATUS_L1 p = 0)) ∧
    (x.linkUp = true → x.resetting = false → Completes (.hotReset p) s inReset) ∧
    (x.linkUp = true → x.resetting = false → s.perst p = false → Completes (.surpriseDown p) s (fun t => inReset t ∧ (t.port p).surprise = true ∧
      HostError.surpriseDown ∈ (t.port p).status)) ∧
    (x.linkUp = true → s.fld .HT_LINK_STATUS_PROTO p ≠ 2 → legal width → width ≤ x.trained → Completes (.l0pWidthChange p width) s (fun t =>
      t.fld .HT_LINK_STATUS_WIDTH p = width ∧ t.fld .HT_LINK_STATUS_L0P p = b2n (decide (width < x.trained)) ∧ (t.port p).linkUp = true)) ∧
    (x.linkUp = true → (enter = false ∨ s.fld .HT_PM_STATUS_WB_BUSY p = 0) → Sets (.l1Entry p enter) s [(.HT_LINK_STATUS_L1, p, b2n enter)]) ∧
    (x.linkUp = false → ∀ ins ∈ [Instr.hotReset p, Instr.surpriseDown p, Instr.l0pWidthChange p width, Instr.l1Entry p enter], Ignored ins s)

/-- Configuration requests, power states and function-level reset (R93, R109 to R113, R131 to R139, Table 4.12): a request is answered by the readiness of its function; D3hot
writes host lines back and D0 ends it; a reset function is silent until its steps end. It rests on the model's choices of log entries 6, 35. -/
def Obligations.HostFunctions : Prop :=
  ∀ (s : State) (p fn n v vec : Nat) (r : CfgReq) (e : HostError) (m : Bool), p < 8 →
    let x := s.port p
    let config := Instr.configRequest p fn
    let serves := x.linkUp = true ∧ s.visible p fn = true ∧ s.inFlr p fn = false
    let clean := fun (t : State) => ∀ l, (t.sf p l).holders = []
    (x.linkUp = false → Ignored (config r) s) ∧
    (x.linkUp = true → s.fld .HT_LINK_STATUS_READY p = 0 → Sends (config r) s (.cfgReply p fn (if fn = 0 then 2 else 1) 0)) ∧
    (x.linkUp = true → s.fld .HT_LINK_STATUS_READY p ≠ 0 → s.visible p fn = false → Sends (config r) s (.cfgReply p fn 1 0)) ∧
    (x.linkUp = true → s.visible p fn = true → s.inFlr p fn = true → Sends (config r) s (.cfgReply p fn 2 0)) ∧
    (serves → Sends (config (.read .vendorId)) s (.cfgReply p fn 0 0x1F6E) ∧ Sends (config (.read .deviceId)) s (.cfgReply p fn 0 (if fn = 0 then 0x0B20 else 0x0B21)) ∧
      Sends (config (.read .busMaster)) s (.cfgReply p fn 0 (s.cfgVal p fn .busMaster)) ∧ Sends (config (.write .vendorId v)) s (.cfgReply p fn 0 0) ∧
      Completes (config (.write .busMaster v)) s (fun t => t.out = [.cfgReply p fn 0 0] ∧ t.cfgVal p fn .busMaster = v ∧ t.regs = s.regs ∧ t.mem = s.mem) ∧
      Completes (config (.maskVector vec true)) s (fun t => t.out = [.cfgReply p fn 0 0] ∧ (fn, vec) ∈ (t.port p).vecMask ∧ t.regs = s.regs) ∧
      Completes (config (.setMask e m)) s (fun t => t.out = [.cfgReply p fn 0 0] ∧ (e ∈ (t.port p).masked ↔ m = true) ∧ t.regs = s.regs) ∧
      Completes (config (.clearStatus e)) s (fun t => t.out = [.cfgReply p fn 0 0] ∧ e ∉ (t.port p).status ∧ t.regs = s.regs)) ∧
    (s.visible p 0 = true → s.fld .HT_PM_STATUS_DSTATE p = 0 → Sets (.setD3hot p) s [(.HT_PM_STATUS_DSTATE, p, 3),
      (.HT_PM_STATUS_WB_BUSY, p, if s.fld .HT_HOLD_STATUS_HOLD p = 0 then 1 else 0)]) ∧
    (s.fld .HT_PM_STATUS_WB_BUSY p ≠ 0 → Completes (.d3hotWritebackDone p) s (fun t => t.fld .HT_PM_STATUS_WB_BUSY p = 0 ∧ clean t ∧ t.mem = s.mem)) ∧
    (s.visible p 0 = true → s.fld .HT_PM_STATUS_DSTATE p = 3 → Completes (.returnToD0 p) s (fun t => t.fld .HT_PM_STATUS_DSTATE p = 0) ∧
      (s.fld .HT_HOLD_STATUS_HOLD p ≠ 0 → Sets (.returnToD0 p) s [(.HT_PM_STATUS_DSTATE, p, 0), (.HT_PM_STATUS_WAKE, p, 0)])) ∧
    Sets (.pmeStatusClear p) s [(.HT_PM_STATUS_PME_PENDING, p, 0), (.HT_PM_STATUS_WAKE, p, 0)] ∧
    (s.visible p fn = true → s.inFlr p fn = false → Completes (.initiateFlr p fn) s (fun t => t.inFlr p fn = true ∧ t.mem = s.mem ∧
      t.fld .HT_FLR_STATUS_IN_FLR p = (if fn = 0 then 1 else (s.fld .HT_FLR_STATUS_IN_FLR p ||| 2 ^ fn) % 2 ^ 33))) ∧
    (x.flr = [(fn, n)] →
      (n = 2 → s.fnCoils p fn = [] → s.fnChannels p fn = [] → Completes (.flrStepEnd p fn) s (fun t => (t.port p).flr = [(fn, 3)] ∧ t.regs = s.regs ∧ t.mem = s.mem)) ∧
      (n = 3 → (s.fnCoils p fn).all s.coilQuiet = true → Completes (.flrStepEnd p fn) s (fun t => (t.port p).flr = [(fn, 4)] ∧ t.mem = s.mem ∧
        ∀ g ∈ (t.port p).tags, (fn = 0 ∨ g.fn = fn) → g.discard = true)) ∧
      (n = 3 → (s.fnCoils p fn).all s.coilQuiet = false → Ignored (.flrStepEnd p fn) s) ∧
      (n = 4 → fn = 0 → Completes (.flrStepEnd p fn) s (fun t => clean t ∧ t.mem = s.mem)) ∧
      (n = 5 → fn ≠ 0 → Completes (.flrStepEnd p fn) s (fun t => (t.port p).flr = [(fn, 6)] ∧ (∀ f, t.cfgVal p fn f = 0) ∧ fn ∉ (t.port p).msixOn ∧ t.mem = s.mem)) ∧
      (n = 6 → fn ≤ 32 → Completes (.flrStepEnd p fn) s (fun t => t.inFlr p fn = false ∧ (t.fld .HT_FLR_STATUS_IN_FLR p).testBit fn = false ∧ t.mem = s.mem))) ∧
    (s.visible p 0 = true → Completes (.initiateCacheWriteback p) s (fun t => clean t ∧ t.cfgVal p 0 .cacheInvalid = 1 ∧ t.mem = s.mem))

/-- Requests to the host, errors and Port Hold (R146 to R165, Tables 5.1, 5.2 and 5.4): completions answer their source; an error is recorded, and one of fatal class holds the
port; a held port is released only when its entry has completed and with the right key. It rests on the model's choices of log entries 6, 32, 37. -/
def Obligations.HostErrorsAndHold : Prop :=
  ∀ (s : State) (p tag id key c d : Nat) (g : IoTag) (data : List Byte) (a : CoreAccess) (i : ErrInfo), p < 8 → (s.port p).reclassed = [] →
    let x := s.port p
    let held := s.fld .HT_HOLD_STATUS_HOLD p ≠ 0
    let released := [(Fld.HT_HOLD_STATUS_RELEASE_STATUS, p, 0), (.HT_HOLD_STATUS_HOLD, p, 0), (.HT_LINK_STATUS_HOLD, p, 0)]
    let status := fun (n : Nat) => Sets (.holdRelease p key true) s [(.HT_HOLD_STATUS_RELEASE_STATUS, p, n)]
    (x.tags = [g] → g.tag = tag → (g.got ++ data).length < g.len → Completes (.cxlIoCompletion p tag data false) s (fun t =>
      (t.port p).tags = [{ g with got := g.got ++ data }] ∧ t.cores = s.cores ∧ t.mem = s.mem)) ∧
    (x.tags = [g] → g.tag = tag → g.len ≤ (g.got ++ data).length → g.discard = true → Completes (.cxlIoCompletion p tag data false) s (fun t =>
      (t.port p).tags = [] ∧ t.cores = s.cores ∧ t.mem = s.mem)) ∧
    (x.tags = [g] → g.tag = tag → g.len ≤ (g.got ++ data).length → g.discard = false → g.poison = false → g.src = .core c id → (s.core c).ending = false →
      (s.core c).accesses = [a] → a.id = id → (∃ o b z, a.op = .amo o b z d) → Completes (.cxlIoCompletion p tag data false) s (fun t =>
        (t.port p).tags = [] ∧ (t.core c).accesses = [] ∧ (d ≠ 0 → (t.core c).rg d = BitVec.ofNat 64 (leNat (g.got ++ data))) ∧ t.mem = s.mem)) ∧
    (x.tags = [g] → g.tag = tag → g.discard = true → Completes (.completionTimeout p tag) s (fun t => (t.port p).tags = [] ∧ .completionTimeout ∈ (t.port p).status)) ∧
    (x.tags = [] → Ignored (.completionTimeout p tag) s) ∧
    (x.d2h.any (fun r => r.id = id) = true → held → Completes (.d2hTimeout p id) s (fun t => t.fld .HT_ERR_STATUS_D2H_TIMEOUT p = 1 ∧ t.mem = s.mem)) ∧
    (x.present = true → s.module.railsOn = true → Completes (.hostPortError p .sfCorr i) s (fun t => t.fld .HT_ERR_STATUS_SF_CORR p = 1 ∧
      t.fld .HT_ERR_CE_COUNT_COUNT p ≠ 0 ∧ t.fld .HT_HOLD_STATUS_HOLD p = s.fld .HT_HOLD_STATUS_HOLD p ∧ t.mem = s.mem)) ∧
    (x.present = true → s.module.railsOn = true → Completes (.hostPortError p .internal i) s (fun t => t.fld .HT_ERR_STATUS_INTERNAL p = 1 ∧
      t.fld .HT_HOLD_STATUS_HOLD p ≠ 0)) ∧
    (held → Sets (.portHoldDone p) s [(.HT_HOLD_STATUS_DONE, p, 1)]) ∧
    (¬ held → Ignored (.portHoldDone p) s) ∧
    (s.module.railsOn = true →
      (key ≠ 0xC1EA → status 2) ∧ (key = 0xC1EA → ¬ held → status 3) ∧ (key = 0xC1EA → held → s.fld .HT_HOLD_STATUS_DONE p = 0 → status 1) ∧
      (key = 0xC1EA → held → s.fld .HT_HOLD_STATUS_DONE p ≠ 0 → s.fld .HT_PM_STATUS_DSTATE p = 3 → Sets (.holdRelease p key true) s released) ∧
      (key = 0xC1EA → held → s.fld .HT_HOLD_STATUS_DONE p ≠ 0 → Completes (.holdRelease p key true) s (fun t => t.fld .HT_HOLD_STATUS_HOLD p = 0 ∧
        t.fld .HT_HOLD_STATUS_RELEASE_STATUS p = 0))) ∧
    (s.cleatUp = true → s.ready = true →
      (held → Sends (.portHold p) s (.pldmReply 0 [])) ∧
      (¬ held → Completes (.portHold p) s (fun t => t.fld .HT_HOLD_STATUS_HOLD p = 1 ∧ t.fld .HT_HOLD_STATUS_CAUSE p = 3)) ∧
      (held → s.fld .HT_HOLD_STATUS_DONE p = 0 → Completes (.portRelease p) s (fun t => t.out = [.pldmReply 0 [1]] ∧ t.fld .HT_HOLD_STATUS_RELEASE_STATUS p = 1 ∧
        t.fld .HT_HOLD_STATUS_HOLD p = s.fld .HT_HOLD_STATUS_HOLD p)))

/-- Link security (R170 to R173, Table 5.6): keys are programmed, come into use and are dropped on a ready PF, by stream, substream, direction and key set. -/
def LinkSecurityPart : Prop :=
  ∀ (s : State) (p stream sub dir set : Nat) (io cxl : Bool), s.visible p 0 = true → stream < 5 → sub < 3 → dir < 2 → set < 2 →
    let ok := fun (t : State) => t.out = [.ideReply p true []] ∧ t.mem = s.mem ∧ t.cores = s.cores
    let no := Out.ideReply p false []
    let has := fun (t : State) (st : Nat) (k : Nat × Nat × Nat) => (t.ide p st).programmed.contains k = true
    let uses := fun (t : State) (st : Nat) (k : Nat × Nat × Nat) => (t.ide p st).active.contains k = true
    let prog := fun (ins : Instr) (st : Nat) (k : Nat × Nat × Nat) =>
      (¬ uses s st k → Completes ins s (fun t => ok t ∧ has t st k ∧ (t.ide p st).active = (s.ide p st).active)) ∧ (uses s st k → Sends ins s no)
    let go := fun (ins : Instr) (st : Nat) (k : Nat × Nat × Nat) => (has s st k → Completes ins s (fun t => ok t ∧ uses t st k)) ∧ (¬ has s st k → Sends ins s no)
    let stop := fun (ins : Instr) (st : Nat) (k : Nat × Nat × Nat) => Completes ins s (fun t => ok t ∧ ¬ uses t st k ∧ ¬ has t st k)
    Sends (.query p) s (.ideReply p true [1, 4]) ∧ Sends (.cxlQuery p) s (.ideReply p true [1]) ∧
    prog (.keyProg p stream sub dir set) stream (sub, dir, set) ∧ go (.kSetGo p stream sub dir set) stream (sub, dir, set) ∧
    stop (.kSetStop p stream sub dir set) stream (sub, dir, set) ∧
    prog (.cxlKeyProg p dir set) 5 (0, dir, set) ∧ go (.cxlKSetGo p dir set) 5 (0, dir, set) ∧ stop (.cxlKSetStop p dir set) 5 (0, dir, set) ∧
    Completes (.cxlGetkey p dir set) s (fun t => has t 5 (0, dir, set) ∧ ∃ key, t.out = [.ideReply p true [key]]) ∧
    ((s.port p).present = true → Sets (.ideRequire p io cxl) s
      [(.HT_IDE_CTL_REQUIRE_IO, p, if io then 1 else s.fld .HT_IDE_CTL_REQUIRE_IO p), (.HT_IDE_CTL_REQUIRE_CXL, p, if cxl then 1 else s.fld .HT_IDE_CTL_REQUIRE_CXL p)])

/-- Bindings of virtual functions and owners of port channels (R115, R142, R145, R605, R606): a coil has at most one home; a channel changes hands only when it is idle. -/
def HostBindingsPart : Prop :=
  ∀ (s : State) (p n coil j func : Nat), p < 8 → 1 ≤ n → n ≤ 32 → coil < 32 → j < 64 → func ≤ 32 → s.fld .HT_LINK_STATUS_READY p ≠ 0 →
    let i := 32 * p + (n - 1)
    let bound := s.fld .HT_VF_BIND_VALID i ≠ 0
    let st := s.fld .CP_COIL_ADMIN_STATE coil
    let busy := s.inFlr p n = true ∨ st = 0 ∨ st = 3 ∨ s.fld .HT_LINK_STATUS_PROTO p < 2
    let here := bound ∧ s.fld .HT_VF_BIND_COIL i = coil
    let taken := bound ∨ s.fld .CP_COIL_ADMIN_HOME_VALID coil ≠ 0
    let q := 64 * p + j
    let owned := s.fld .HT_TK_OWNER_VALID q ≠ 0
    let idle := s.channelIdle (12288 + q) = true
    (here → Sets (.vfBind p n coil) s [(.HT_VF_BIND_STATUS, i, 0)]) ∧
    (¬ here → busy → Sets (.vfBind p n coil) s [(.HT_VF_BIND_STATUS, i, 2)]) ∧
    (¬ here → ¬ busy → taken → Sets (.vfBind p n coil) s [(.HT_VF_BIND_STATUS, i, 1)]) ∧
    (¬ busy → ¬ taken → Completes (.vfBind p n coil) s (fun t => t.fld .HT_VF_BIND_COIL i = coil ∧ t.fld .HT_VF_BIND_VALID i = 1 ∧ t.fld .HT_VF_BIND_STATUS i = 0 ∧
      t.homeOf coil = some p)) ∧
    (¬ bound → Sets (.vfUnbind p n) s [(.HT_VF_BIND_STATUS, i, 0)]) ∧
    (bound → (s.inFlr p n = true ∨ 0 < s.coilInFlight (s.fld .HT_VF_BIND_COIL i)) → Sets (.vfUnbind p n) s [(.HT_VF_BIND_STATUS, i, 2)]) ∧
    (bound → s.inFlr p n = false → s.coilInFlight (s.fld .HT_VF_BIND_COIL i) = 0 → Completes (.vfUnbind p n) s (fun t => t.fld .HT_VF_BIND_VALID i = 0 ∧
      t.fld .HT_VF_BIND_STATUS i = 0 ∧ t.homeOf (s.fld .HT_VF_BIND_COIL i) = none)) ∧
    (owned → ¬ idle → Sets (.tkOwnerWrite p j func coil false) s [(.HT_TK_OWNER_STATUS, q, 2)]) ∧
    (¬ owned ∨ idle → Sets (.tkOwnerWrite p j func coil false) s [(.HT_TK_OWNER_FUNC, q, 0), (.HT_TK_OWNER_COIL, q, 0), (.HT_TK_OWNER_VALID, q, 0), (.HT_TK_OWNER_STATUS, q, 0)]) ∧
    (owned → s.fld .HT_TK_OWNER_FUNC q ≠ func → Sets (.tkOwnerWrite p j func coil true) s [(.HT_TK_OWNER_STATUS, q, 1)]) ∧
    (¬ owned → (func = 0 → s.homeOf coil = some p) → (func ≠ 0 → s.fld .HT_VF_BIND_VALID (32 * p + (func - 1)) ≠ 0) →
      Sets (.tkOwnerWrite p j func coil true) s [(.HT_TK_OWNER_FUNC, q, func), (.HT_TK_OWNER_COIL, q, coil), (.HT_TK_OWNER_VALID, q, 1), (.HT_TK_OWNER_STATUS, q, 0)]) ∧
    (¬ owned → (func = 0 ∧ s.homeOf coil ≠ some p ∨ func ≠ 0 ∧ s.fld .HT_VF_BIND_VALID (32 * p + (func - 1)) = 0) →
      Sets (.tkOwnerWrite p j func coil true) s [(.HT_TK_OWNER_STATUS, q, 3)])

/-- Port `p` may write the registers of Tackle channel `ch` (R530, R532). -/
def ChannelPort (s : State) (p ch : Nat) : Prop :=
  (∃ c, ch < 12288 ∧ s.plyCoil (ch / 32) = some c ∧ s.module.railsOn = true ∧ c < 32 ∧ s.homeOf c = some p) ∨ (12288 ≤ ch ∧ ch < 12800 ∧ p = (ch - 12288) / 64)

/-- Control of Tackle channels (R505 to R507, R522, R527, R539, Table 15.2): a channel is enabled with an aligned ring and an owner; TAIL moves within the ring; pausing stops it
between beats, disabling drops what it holds and empties its ring. -/
def TackleChannelsPart : Prop :=
  ∀ (s : State) (p ch tail c tag : Nat) (ok : Bool),
    let x := s.chan ch
    let on := s.fld .TK_CH_CTL_ENABLE ch ≠ 0
    let st := s.fld .TK_CH_STATUS_STATE ch
    let done := s.fld .TK_CH_DONE_DONE ch
    let aligned := s.fld .TK_CH_RING_BASE ch % 2 ^ s.fld .TK_CH_RING_LOG2 ch = 0
    let unowned := 12288 ≤ ch ∧ s.fld .HT_TK_OWNER_VALID (ch - 12288) = 0
    let full := 2 ^ s.fld .TK_CH_RING_LOG2 ch < (tail + 2 ^ 32 - done) % 2 ^ 32
    let notice := fun (n : Nat) => Sets (.tailWrite p ch tail) s [(.TK_CH_TAIL_STATUS, ch, n)]
    (ChannelPort s p ch →
      (¬ on → st ≠ 6 → unowned → Sets (.channelEnable p ch) s [(.TK_CH_CTL_STATUS, ch, 2)]) ∧
      (¬ on → st ≠ 6 → ¬ unowned → ¬ aligned → Sets (.channelEnable p ch) s [(.TK_CH_CTL_STATUS, ch, 1)]) ∧
      (¬ on → st ≠ 6 → ¬ unowned → aligned → done = s.fld .TK_CH_TAIL_TAIL ch → s.fld .TK_CH_CTL_PAUSE ch = 0 →
        Sets (.channelEnable p ch) s [(.TK_CH_CTL_ENABLE, ch, 1), (.TK_CH_CTL_STATUS, ch, 0), (.TK_CH_STATUS_STATE, ch, 1)]) ∧
      (on → Ignored (.channelEnable p ch) s) ∧ (¬ on → Ignored (.channelDisable p ch) s) ∧
      (on → Completes (.channelDisable p ch) s (fun t => t.fld .TK_CH_CTL_ENABLE ch = 0 ∧ t.fld .TK_CH_STATUS_STATE ch = 6 ∧ t.fld .TK_CH_TAIL_TAIL ch = done % 2 ^ 32 ∧
        t.fld .TK_CH_DONE_DONE ch = done ∧ (t.chan ch).cur = none ∧ (t.chan ch).beats = [] ∧ t.mem = s.mem)) ∧
      (tail < 2 ^ 32 →
        (¬ on ∨ s.chCoil ch = none → notice 1) ∧ (on → s.chCoil ch ≠ none → s.fld .TK_CH_CTL_WATCH ch ≠ 0 → notice 3) ∧
        (on → s.chCoil ch ≠ none → s.fld .TK_CH_CTL_WATCH ch = 0 → full → notice 2) ∧
        (on → s.chCoil ch ≠ none → s.fld .TK_CH_CTL_WATCH ch = 0 → ¬ full → Completes (.tailWrite p ch tail) s (fun t => t.fld .TK_CH_TAIL_TAIL ch = tail ∧
          t.fld .TK_CH_TAIL_STATUS ch = 0 ∧ t.mem = s.mem ∧
          (st = 1 ∨ st = 2 → s.fld .TK_CH_CTL_PAUSE ch = 0 → t.fld .TK_CH_STATUS_STATE ch = if done = tail then 1 else 2)))) ∧
      (st = 2 → Sets (.pause p ch) s [(.TK_CH_CTL_PAUSE, ch, 1), (.TK_CH_STATUS_STATE, ch, 3)]) ∧
      (st = 4 → done = s.fld .TK_CH_TAIL_TAIL ch → Sets (.pauseClear p ch) s [(.TK_CH_CTL_PAUSE, ch, 0), (.TK_CH_STATUS_STATE, ch, 1)]) ∧
      (st = 4 → done ≠ s.fld .TK_CH_TAIL_TAIL ch → Completes (.pauseClear p ch) s (fun t => t.fld .TK_CH_CTL_PAUSE ch = 0 ∧ t.fld .TK_CH_STATUS_STATE ch = 2 ∧ t.mem = s.mem))) ∧
    (st = 3 → x.beats = [] → x.status = false → Sets (.paused ch) s [(.TK_CH_STATUS_STATE, ch, 4)]) ∧
    (st ≠ 3 → Ignored (.paused ch) s) ∧
    (st = 6 → s.chOutstanding ch = false → ¬ on → Completes (.channelStopped ch) s (fun t => t.fld .TK_CH_STATUS_STATE ch = 0 ∧ t.chan ch = {} ∧ t.mem = s.mem)) ∧
    (st ≠ 6 ∨ s.chOutstanding ch = true → Ignored (.channelStopped ch) s) ∧
    (∀ y coil w leaf v u u', chPly ch = some y → s.chCoil ch = some coil → s.fld .TK_CH_CTL_WATCH ch ≠ 0 → (st ≠ 0 ∧ st ≠ 5 ∧ st ≠ 6) →
      s.silent.xlatCh ch coil (s.fld .TK_CH_WATCH_ADDR ch * 8) .read = (.mem w leaf, u) → u.watchable y w leaf = true →
      u.tkRead ch coil 0 w 8 leaf true false = .done v false u' → u'.tailBeyond ch (v % 2 ^ 32) = false →
      Completes (.tailWordChange ch) s (fun t => t.fld .TK_CH_TAIL_TAIL ch = v % 2 ^ 32 ∧ t.mem = u'.mem)) ∧
    (c < 3072 → s.fld .CR_STATUS_PSTATE c = 4 → s.wantsTile c = true → (s.core c).resetting = false → (s.core c).waking = false →
      Completes (.tileStorePowerUp c) s (fun t => t.core c = { s.core c with tile := [], tilePoison := [] } ∧ t.fld .CR_STATUS_PSTATE c = 3 ∧ t.mem = s.mem)) ∧
    ((∃ g ∈ (s.port p).tags, g.tag = tag ∧ g.len = 0) → (s.core c).flushing = [(p, tag)] → (∀ e ∈ s.channels, e.2.eocDue = false) →
      Completes (.flushReadDone p tag ok) s (fun t => (t.core c).flushing = [] ∧ (∀ g ∈ (t.port p).tags, g.tag ≠ tag) ∧ t.mem = s.mem ∧
        (ok = true → (t.core c).fault = (s.core c).fault) ∧
        (ok = false → (s.core c).running = true → (s.core c).fault = none → (t.core c).fault.map (·.code) = some 3)))

/-- Tackle transfers (R509 to R518, R520, Tables 15.6 and 15.7), beat by beat between scratch spaces: a descriptor is taken from its ring, a beat's bytes are read and then
written unchanged where source and destination are apart, the descriptor completes once all its beats are written, and its status write advances DONE. -/
def TackleTransfersPart : Prop :=
  ∀ (s : State) (ch coil : Nat) (d : TackleDesc) (b : Beat),
    let x := s.chan ch
    let ready := fun (a n : Nat) => a % 64 + n ≤ 64 ∧ a < 384 * 2 ^ 24 ∧ s.targetCheck (some coil) none ((scratchBase + a) / 64) = spOk ∧
      s.carveHolds (scratchBase + a) = false ∧ (s.ply (a / 2 ^ 24)).scratchPoison.contains (a % 2 ^ 24 / 64) = false
    let copy := d.op = 0 ∧ d.srcSpace = 2 ∧ d.dstSpace = 2 ∧ d.srcWrap = 0 ∧ d.dstWrap = 0 ∧ d.hint = false
    let apart := ∀ r y q z, r < d.rows → y < d.length → q < d.rows → z < d.length → d.srcAt r y ≠ d.dstAt q z
    s.chCoil ch = some coil → s.mayBeat ch = true → s.fld .TK_CH_STATUS_STATE ch = 2 →
      (x.cur = some d → copy → x.unread = true → x.beats = [] → x.row = 0 → x.off = 0 → ready d.src d.length → d.dst % 64 + d.length ≤ 64 → d.dst < 2 ^ 33 →
        Completes (.beatReadData ch) s (fun t => t.mem = s.mem ∧ (t.chan ch).row = 1 ∧ (t.chan ch).cur = some d ∧ ∃ z, (t.chan ch).beats = [z] ∧ z.stage = .staged ∧
          z.row = 0 ∧ z.off = 0 ∧ z.len = d.length ∧ z.data = s.load (scratchBase + d.src) d.length ∧ z.poison = false ∧ z.desc = d)) ∧
      (x.beats = [b] → b.stage = .staged → b.desc = d → copy → apart → b.poison = false → x.eocDue = false → ready (d.dstAt b.row b.off) b.len →
        Completes (.beatWriteAck ch) s (fun t => (t.chan ch).beats = [] ∧ Wrote (scratchBase + d.dstAt b.row b.off) b.len (b.data % 2 ^ (8 * b.len)) s t ∧
          t.fld .TK_CH_BYTES_COUNT ch = (s.fld .TK_CH_BYTES_COUNT ch + b.len) % 2 ^ 64)) ∧
      (x.cur = some d → x.status = false → x.unread = false → x.beats = [] → (d.barrier = false ∨ x.flush = [] ∧ x.flushing = []) →
        Completes (.descriptorComplete ch) s (fun t => t.chan ch = { x with status := true } ∧ t.mem = s.mem)) ∧
      (x.cur = none → Ignored (.descriptorComplete ch) s) ∧
      (∀ w leaf u v u', x.cur = none → chPly ch ≠ none → s.silent.xlatCh ch coil (s.slotDva ch (s.fld .TK_CH_DONE_DONE ch)) .read = (.mem w leaf, u) →
        leaf.any (fun l => l.region = .coh) = true → u.tkRead ch coil 0 w 64 leaf true false = .done v false u' →
        Completes (.descriptorFetched ch none) s (fun t => (t.chan ch).cur = some (descOf (s.fld .TK_CH_DONE_DONE ch) v) ∧ (t.chan ch).row = 0 ∧ (t.chan ch).off = 0 ∧
          (t.chan ch).bad.map (·.reason) = (descOf (s.fld .TK_CH_DONE_DONE ch) v).check false ∧ t.mem = u'.mem)) ∧
      (∀ w leaf u v po u', x.cur = some d → x.status = true → s.silent.xlatCh ch coil (s.slotDva ch d.idx + 0x30) .write = (.mem w leaf, u) →
        u.tkWrite ch coil 0 w 16 (statusWords d x.bad) false leaf true false = .done v po u' →
        Completes (.statusWriteAck ch) s (fun t => t.fld .TK_CH_DONE_DONE ch = (u'.fld .TK_CH_DONE_DONE ch + 1) % 2 ^ 32 ∧ (t.chan ch).cur = none ∧
          (t.chan ch).status = false ∧ t.mem = u'.mem))

/-- After a masked write to a line, the bytes of the mask hold the data and every other byte of memory is as before. -/
def LineWrote (line : Nat) (data : LineData) (mask : BitVec 64) (s t : State) : Prop :=
  (∀ i, i < 64 → t.byte (64 * line + i) = if mask.getLsbD i then BitVec.ofNat 8 (data.toNat >>> (8 * i)) else s.byte (64 * line + i)) ∧
    ∀ k, k < 64 * line ∨ 64 * line + 64 ≤ k → t.byte k = s.byte k

/-- The buffers of a core (R302, R306, R308, R309, R319, R390, Table 11.7): a line of its own ply's scratch fills piece by piece from the critical one, drains start on a timeout and
are acknowledged when the bytes have reached their scratch, and an access of another ply's scratch is performed at its response. It rests on the model's choices of log entries 6, 20, 22. -/
def Obligations.CoreBuffers : Prop :=
  ∀ (s : State) (c line q y off block id d : Nat) (e : MbEntry) (z : NtEntry) (a : CoreAccess) (p : Part),
    let x := s.core c
    let reachable := fun (wpa : Nat) => s.targetCheck x.coil none (wpa / 64) = spOk ∧ (∃ y o, placeOf wpa = .scratch y o)
    let clean := fun (wpa : Nat) => s.scratchPoisoned wpa = false
    (placeOf (64 * line) = .scratch (plyOfCore c) off → s.scratchValid (plyOfCore c) off = true →
      (s.ply (plyOfCore c)).scratchPoison.contains (off / 64) = false → s.l1dPieces c line = 0 → x.accesses = [a] → a.op = .load (.g d 8 false) → a.dev = false →
      d < 32 → a.got = [] → a.parts = [p] → p.wpa / 64 = line → p.size = 8 → p.wpa % 8 = 0 → p.elem = 0 →
        (q = p.wpa % 64 / 16 → Completes (.l1dFillPiece c line q) s (fun t => t.l1dPieces c line = 2 ^ q ∧ (t.core c).accesses = [] ∧ t.mem = s.mem ∧
          (t.core c).g = (x.setG d (BitVec.ofNat 64 (s.load p.wpa 8))).g)) ∧
        (q ≠ p.wpa % 64 / 16 → Ignored (.l1dFillPiece c line q) s)) ∧
    (x.mb = [e] → e.line = line →
      (e.draining = true → e.shared = none → placeOf (64 * line) = .scratch y off → reachable (64 * line) →
        Completes (.mbDrainAck c line) s (fun t => t.core c = { x with mb := [] } ∧ LineWrote line e.data e.mask s t)) ∧
      (e.draining = false → Ignored (.mbDrainAck c line) s) ∧
      (e.draining = false → placeOf (64 * line) = .scratch y off →
        CoreIs (.mbDrainTimeout c line) c { x with mb := [{ e with draining := true }] } s)) ∧
    (x.nt = [z] → z.block = block →
      CoreIs (.ntDrainTimeout c block) c { x with nt := [{ z with draining := true }] } s ∧
      (z.draining = true → z.shared = none → placeOf (256 * block) = .scratch y off → (∀ i, i < 4 → reachable (64 * (4 * block + i))) →
        Completes (.ntDrainAck c block) s (fun t => t.core c = { x with nt := [] } ∧
          (∀ i, i < 256 → t.byte (256 * block + i) = if z.mask.getLsbD i then BitVec.ofNat 8 (z.data.toNat >>> (8 * i)) else s.byte (256 * block + i)) ∧
          ∀ k, k < 256 * block ∨ 256 * block + 256 ≤ k → t.byte k = s.byte k))) ∧
    (x.accesses = [a] → a.id = id → a.parts = [p] → a.leaf = none → x.rig = false → reachable p.wpa → clean p.wpa → p.size ≤ 8 → p.wpa % 64 + p.size ≤ 64 →
      (∀ op b m, a.op = .amo op b m d → Completes (.coreAccessResponse c id {}) s (fun t => (t.core c).accesses = [] ∧
        (t.core c).g = (x.setG d (BitVec.ofNat 64 (s.load p.wpa p.size))).g ∧ Wrote p.wpa p.size (amoValue op p.size (s.load p.wpa p.size) b m % 2 ^ (8 * p.size)) s t)) ∧
      (a.op = .ldrsv d → Completes (.coreAccessResponse c id {}) s (fun t => (t.core c).accesses = [] ∧ t.mem = s.mem ∧
        (t.core c).g = (x.setG d (BitVec.ofNat 64 (s.load p.wpa p.size))).g ∧ (t.core c).rsv = some { base := 64 * (p.wpa / 64), size := 64 }))) ∧
    ((∀ w ∈ x.accesses, w.id ≠ id) → Ignored (.coreAccessResponse c id {}) s)

/-- The home port of the coil that owns ply `y`, whose host may write the ply's registers. -/
def PlyPort (s : State) (p y : Nat) : Prop := y < 384 ∧ ∃ c, s.plyCoil y = some c ∧ s.module.railsOn = true ∧ c < 32 ∧ s.homeOf c = some p

/-- Ply scratch is carved out of the ply cache (R318, R320): refused while the ply works, locked in a sealed coil, and finished with zero bytes in every way that changes
sides; the response to a read of an STR line of Spool fills the ply cache. -/
def CarvingPart : Prop :=
  ∀ (s : State) (p y ways line v : Nat) (r : BusReq),
    let k := bayOfPly y
    let lo := scratchBase + y * 2 ^ 24
    let sealed := ∃ c, s.plyCoil y = some c ∧ s.sealed c = true
    let busy := s.plyBusy y = true ∨ (s.ply y).carving ≠ none ∨ (s.ply y).maint ≠ none
    let room := ∀ e ∈ (s.ply y).cache, e.2.way < 16 - ways
    let keep := min (s.carved y) ways * 2 ^ 20
    (PlyPort s p y →
      (sealed ∨ 8 < ways → Ignored (.carve p y ways) s) ∧
      (¬ sealed → ways ≤ 8 → busy → Sets (.carve p y ways) s [(.PC_SCRATCH_STATUS, y, 1)]) ∧
      (¬ sealed → ways ≤ 8 → ¬ busy → room → Completes (.carve p y ways) s (fun t => t.mem = s.mem ∧ t.fld .PC_SCRATCH_WAYS y = ways ∧ t.fld .PC_SCRATCH_STATUS y = 0 ∧
        t.fld .PC_STATUS_CARVE_BUSY y = 1 ∧ t.carved y = s.carved y ∧ (t.ply y).cache = (s.ply y).cache ∧
        (∀ off, t.scratchWaits y off = true ↔ s.carved y * 2 ^ 20 ≤ off ∧ off < ways * 2 ^ 20)))) ∧
    ((s.ply y).carving = none → Ignored (.carveDone y) s) ∧
    ((s.ply y).carving = some ways → ways ≤ 8 → room → Completes (.carveDone y) s (fun t => t.carved y = ways ∧ t.fld .PC_STATUS_CARVE_BUSY y = 0 ∧
      (t.ply y).carving = none ∧ (∀ off, t.scratchWaits y off = false) ∧ (∀ a, lo + keep ≤ a → a < lo + 2 ^ 24 → t.byte a = 0) ∧
      ∀ a, a < lo + keep ∨ lo + 2 ^ 24 ≤ a → t.byte a = s.byte a)) ∧
    ((s.bus k).reqs = [r] → r.ply = y → r.line = line → r.req = .bnc → r.streaming = false → r.demand = true → lineVault line = some v →
      s.vaultCheck v r.coil r.shared = spOk → (s.line line).poison = false → s.tagMismatch line v = false → (s.ply y).cache = [] → s.carved y < 16 →
      s.fld .SP_VAULT_STATUS_UE_LINES v < 64 → GovRuns s r.coil →
      Completes (.bnc y line {}) s (fun t => (t.bus k).reqs = [] ∧ t.mem = s.mem ∧ ∃ w, (t.ply y).copy line =
        some { st := .s, data := s.lineAt (64 * line), str := true, age := 1, way := w }))

/-- Maintenance by way (R322 to R325, Table 9.7): BUSY while one runs, RESERVED and SCRATCH for what no way holds; cleaning writes a dirty line back and keeps it, invalidating
removes it, and the operation ends when its write-backs have been acknowledged. -/
def MaintenanceByWayPart : Prop :=
  ∀ (s : State) (p y way set l c id : Nat) (cl : CLine) (m : Maint) (a : CoreAccess),
    let k := bayOfPly y
    let refuses := fun (i : Instr) (n : Nat) => Sets i s [(.PC_MAINT_STATUS, y, n)]
    let byWay := [Instr.cleanWay p y way set, .invWay p y way set, .cleanInvWay p y way set]
    let busy := (s.ply y).maint ≠ none ∨ (s.ply y).carving ≠ none
    let reserved := 16 < way ∨ 16384 ≤ set ∨ (way = 16 ∧ 32 ≤ set)
    let scratch := way < 16 ∧ 16 - s.carved y ≤ way
    let back := fun (kind : WbKind) => (s.bus k).wbs ++ [{ ply := y, line := l, kind := kind, data := some cl.data, poison := cl.poison }]
    let runs := fun (op : Nat) (t : State) => t.mem = s.mem ∧ t.fld .PC_MAINT_STATUS y = 0 ∧ t.fld .PC_STATUS_MAINT_BUSY y = 1 ∧
      (t.ply y).maint = some { op := op, way := way, set := set, waits := [l] }
    (PlyPort s p y →
      (busy → (∀ i ∈ byWay, refuses i 1) ∧ refuses (.cleanInvAll p y) 1) ∧
      (¬ busy → reserved → ∀ i ∈ byWay, refuses i 3) ∧ (¬ busy → ¬ reserved → scratch → ∀ i ∈ byWay, refuses i 2) ∧
      (¬ busy → Completes (.cleanInvAll p y) s (fun t => (t.ply y).cache = [] ∧ (t.ply y).victim = [] ∧ t.fld .PC_MAINT_STATUS y = 0 ∧ t.fld .PC_STATUS_MAINT_BUSY y = 1)) ∧
      (¬ busy → ¬ reserved → ¬ scratch → s.lineOfWay y way set = some l → (s.ply y).copy l = some cl → cl.str = false → cl.st = .m →
        Completes (.cleanWay p y way set) s (fun t => runs 1 t ∧ (t.ply y).copy l = some { cl with st := .e } ∧ (t.bus k).wbs = back .cln) ∧
        Completes (.invWay p y way set) s (fun t => runs 2 t ∧ (t.ply y).copy l = none ∧ (t.bus k).wbs = back .wb) ∧
        Completes (.cleanInvWay p y way set) s (fun t => runs 3 t ∧ (t.ply y).copy l = none ∧ (t.bus k).wbs = back .wb))) ∧
    ((s.ply y).maint = none → Ignored (.maintDone y none) s) ∧
    ((s.ply y).maint = some m → (∃ j ∈ m.waits, s.maintQuiet y j = false) → Ignored (.maintDone y none) s) ∧
    ((s.ply y).maint = some m → (∀ j ∈ m.waits, s.maintQuiet y j = true) → Completes (.maintDone y none) s (fun t => t.ply y = { s.ply y with maint := none } ∧
      t.fld .PC_STATUS_MAINT_BUSY y = 0 ∧ t = { s with plies := t.plies, regs := t.regs, out := [], outputs := t.outputs })) ∧
    ((s.core c).accesses = [a] → a.id = id → (∃ op, a.op = .maint op ∧ op ≠ opZero) → a.parts ≠ [] → plyOfCore c = y →
      (∀ w, a.parts.head?.map (·.wpa) = some w → s.maintQuiet y (w / 64) = true) →
      CoreIs (.maintDone y (some (c, id))) c { s.core c with accesses := [] } s)
/-- The control port, through which wafer-scoped registers are written. -/
def Control (s : State) (p : Nat) : Prop := s.module.railsOn = true ∧ p = s.module.controlPort

/-- The home port of coil `c`, through which its registers are written. -/
def Home (s : State) (p c : Nat) : Prop := s.module.railsOn = true ∧ c < 32 ∧ s.homeOf c = some p

/-- The allowances of Table 7.6 touch the governor's report of the coils and nothing else. -/
def GovernorOnly (s t : State) : Prop := t = { s with regs := t.regs, gov := t.gov, out := [], outputs := t.outputs }

/-- Vault ownership (R213, R215, R216, R236, R237): a free vault takes its owner, a vault of another coil refuses, and so do vaults in CLEARING and FENCED; a release starts the
clearing, unless a stripe list or an HDM map names the vault; clearing leaves zero bytes without tags. A row's copy to a spare is journalled. -/
def VaultOwnershipPart : Prop :=
  ∀ (s : State) (p v coil row celsius : Nat), v < 3072 →
    let st := s.fld .SP_VAULT_STATUS_STATE v
    let owned := s.fld .SP_VAULT_OWNER_VALID v ≠ 0
    let locked := owned ∧ s.sealed (s.fld .SP_VAULT_OWNER_COIL v) = true
    let named := s.striped v = true ∨ s.hdmNames v = true
    let notice := fun (i : Instr) (n : Nat) => Sets i s [(.SP_VAULT_OWNER_STATUS, v, n)]
    (Control s p → coil < 32 →
      (locked → Ignored (.vaultAssign p v coil) s ∧ Ignored (.vaultRelease p v) s) ∧
      (¬ locked → (st = 3 → notice (.vaultAssign p v coil) 3) ∧ (st = 2 → notice (.vaultAssign p v coil) 2) ∧
        (st ≠ 3 → st ≠ 2 → owned → s.fld .SP_VAULT_OWNER_COIL v ≠ coil → notice (.vaultAssign p v coil) 1) ∧
        (st ≠ 3 → st ≠ 2 → owned → s.fld .SP_VAULT_OWNER_COIL v = coil → notice (.vaultAssign p v coil) 0) ∧
        (st ≠ 3 → st ≠ 2 → ¬ owned → Sets (.vaultAssign p v coil) s [(.SP_VAULT_OWNER_COIL, v, coil), (.SP_VAULT_OWNER_VALID, v, 1), (.SP_VAULT_OWNER_STATUS, v, 0),
          (.SP_VAULT_STATUS_STATE, v, 1)])) ∧
      (¬ locked → (st = 2 ∨ named → notice (.vaultRelease p v) 2) ∧ (st ≠ 2 → ¬ named → ¬ owned → notice (.vaultRelease p v) 0) ∧
        (st ≠ 2 → ¬ named → owned → Sets (.vaultRelease p v) s [(.SP_VAULT_OWNER_COIL, v, 0), (.SP_VAULT_OWNER_VALID, v, 0), (.SP_VAULT_OWNER_STATUS, v, 0),
          (.SP_VAULT_STATUS_STATE, v, if st = 3 then 3 else 2)]))) ∧
    (st = 2 → s.fences.vaults.contains v = false → Completes (.vaultClearDone v) s (fun t => t.fld .SP_VAULT_STATUS_STATE v = 0 ∧
      (∀ a, v * vaultSize ≤ a → a < (v + 1) * vaultSize → t.byte a = 0) ∧ (∀ l, inVault v l = true → (t.line l).tag = none ∧ (t.line l).poison = false ∧ (t.line l).dir = .none) ∧
      ∀ a, a < v * vaultSize ∨ (v + 1) * vaultSize ≤ a → t.byte a = s.byte a)) ∧
    (st ≠ 2 ∨ s.fences.vaults.contains v = true → Ignored (.vaultClearDone v) s) ∧
    (row ∈ (s.vault v).copying → Completes (.spareRowCopyDone v row) s (fun t => row ∉ (t.vault v).copying ∧
      SMap.get 0 t.nvm.live.spares v = s.fld .SP_VAULT_STATUS_SPARES_USED v ∧ t.mem = s.mem)) ∧
    (row ∉ (s.vault v).copying → Ignored (.spareRowCopyDone v row) s) ∧
    (s.module.railsOn = true → Completes (.vaultRefreshChange v celsius) s (fun t => t.fld .SP_VAULT_STATUS_REFRESH v = (if celsius ≤ 85 then 0 else if celsius ≤ 95 then 1 else 2) ∧
      t = { s with regs := t.regs, out := [], outputs := t.outputs }))

/-- Keys, stripes, HDM maps and reservations (R219, R231, R239, R240, R244, R246, R248): each register refuses with the status of the first condition that fails and otherwise takes
effect; the slice boundary pauses the next coils of the frame. -/
def SpoolRegistersPart : Prop :=
  ∀ (s : State) (p coil f fathom gbps : Nat) (valid : Bool),
    let keyed := s.fld .SP_KEY_CTL_VALID coil ≠ 0
    let inUse := s.ownsVault coil = true ∨ ∃ i ∈ s.hdmEntries, s.fld .SP_HDM_MAP_COIL i = coil
    let n := s.fld .SP_STRIPE_CTL_COUNT coil
    let slot := fun (i : Nat) => s.fld .SP_STRIPE_LIST_VAULT (3072 * coil + i)
    let good := fun (v : Nat) => s.vaultCoil v = some coil ∧ s.fences.vaults.contains v = false
    let active := s.fld .SP_STRIPE_CTL_ACTIVE coil ≠ 0
    let m := 16384 * p + f
    let vault := fathom * 2 ^ 24 / vaultSize
    let mapped := s.homeOf coil = some p ∧ good vault
    let g := gbps % 2 ^ 18
    let old := s.fld .SP_RSV_GBPS coil
    let wafer := 80 * s.fld .SP_GOV_CAPACITY 0 < 100 * (s.rsvSum (fun _ => true) - old + g)
    let own := 80 * 64 * s.usableOwned coil < 100 * g
    (Home s p coil →
      (keyed → Sets (.keyGenerate p coil) s [(.SP_KEY_CTL_STATUS, coil, 1)]) ∧
      (¬ keyed → Completes (.keyGenerate p coil) s (fun t => t.keyed coil = true ∧ t.fld .SP_KEY_CTL_STATUS coil = 0 ∧ SMap.get 0 t.keys coil = s.fresh + 1 ∧
        (∀ j, j ≠ coil → SMap.get 0 t.keys j = SMap.get 0 s.keys j) ∧ t.mem = s.mem)) ∧
      (inUse → Sets (.keyClear p coil) s [(.SP_KEY_CTL_STATUS, coil, 2)]) ∧
      (¬ inUse → Completes (.keyClear p coil) s (fun t => t.keyed coil = false ∧ t.fld .SP_KEY_CTL_STATUS coil = 0 ∧ SMap.get 0 t.keys coil = 0 ∧ t.mem = s.mem)) ∧
      (¬ active → 3072 < n → Sets (.stripeActivate p coil) s [(.SP_STRIPE_CTL_STATUS, coil, 3)]) ∧
      (¬ active → n ≤ 3072 → (∃ i, i < n ∧ ¬ good (slot i)) → Sets (.stripeActivate p coil) s [(.SP_STRIPE_CTL_STATUS, coil, 1)]) ∧
      (¬ active → n ≤ 3072 → (∀ i, i < n → good (slot i)) → Completes (.stripeActivate p coil) s (fun t => t.fld .SP_STRIPE_CTL_ACTIVE coil = 1 ∧
        t.fld .SP_STRIPE_CTL_STATUS coil = 0 ∧ t = { s with regs := t.regs, out := [], outputs := t.outputs } ∧
        ∀ csa, csa < n * vaultSize → t.stripeWpa coil csa = some (slot (csa / 4096 % n) * vaultSize + (csa / 4096 / n * 4096 + csa % 4096)))) ∧
      Sets (.stripeDeactivate p coil) s [(.SP_STRIPE_CTL_ACTIVE, coil, 0), (.SP_STRIPE_CTL_STATUS, coil, 0)] ∧
      (s.sealed coil = true → Ignored (.reservationWrite p coil gbps) s) ∧
      (s.sealed coil = false → old < g → wafer → Sets (.reservationWrite p coil gbps) s [(.SP_RSV_STATUS, coil, 1)]) ∧
      (s.sealed coil = false → old < g → ¬ wafer → own → Sets (.reservationWrite p coil gbps) s [(.SP_RSV_STATUS, coil, 2)]) ∧
      (s.sealed coil = false → (g ≤ old ∨ ¬ wafer ∧ ¬ own) → Completes (.reservationWrite p coil gbps) s (fun t => t.fld .SP_RSV_GBPS coil = g ∧ t.fld .SP_RSV_STATUS coil = 0 ∧
        t.fld .SP_GOV_RSV_TOTAL 0 = t.rsvSum (fun _ => true) % 2 ^ 24 ∧ GovernorOnly s t))) ∧
    (p < 8 → f < 16384 → coil < 32 → fathom < 2 ^ 17 → s.module.railsOn = true →
      (valid = true → spoolSize ≤ fathom * 2 ^ 24 → Sets (.hdmMapWrite p f fathom coil valid) s [(.SP_HDM_MAP_STATUS, m, 2)]) ∧
      (valid = true → fathom * 2 ^ 24 < spoolSize → ¬ mapped → Sets (.hdmMapWrite p f fathom coil valid) s [(.SP_HDM_MAP_STATUS, m, 1)]) ∧
      (valid = false ∨ fathom * 2 ^ 24 < spoolSize ∧ mapped → Sets (.hdmMapWrite p f fathom coil valid) s [(.SP_HDM_MAP_FATHOM, m, fathom), (.SP_HDM_MAP_COIL, m, coil),
        (.SP_HDM_MAP_VALID, m, if valid then 1 else 0), (.SP_HDM_MAP_STATUS, m, 0)])) ∧
    (s.fld .SP_GOV_STATE 0 ≠ 2 → Ignored .sliceBoundary s) ∧
    (s.fld .SP_GOV_STATE 0 = 2 → 0 < s.sealedCoils.length → Completes .sliceBoundary s (fun t => t.gov.slice = (s.gov.slice + 1) % s.sealedCoils.length ∧ GovernorOnly s t ∧
      ∀ c, c < 32 → (t.fld .CP_COIL_CTL_PAUSED c = 1 ↔ ∃ i, i < s.fld .SP_GOV_SEALED_PAUSE_Q 0 ∧
        s.sealedCoils[(t.gov.slice + i) % s.sealedCoils.length]? = some c)))
/-- Coils come and go (R604, R612, R613, R617, R623 to R627, Table 18.3): each command of CP_COIL_ADMIN, CP_COIL_RUN and CP_COIL_POWER through its port, with the statuses that refuse it. It rests on the model's choices of log entries 6, 69. -/
def Obligations.CoilControl : Prop :=
  ∀ (s : State) (p coil w : Nat) (on : Bool), coil < 32 →
    let state := s.fld .CP_COIL_ADMIN_STATE coil
    let op := s.fld .CP_COIL_CTL_FIXED_OP coil
    let admin := fun (i : Instr) (n : Nat) => Sets i s [(.CP_COIL_ADMIN_STATUS, coil, n)]
    let idle := s.coilInFlight coil = 0 ∧ ∀ e ∈ s.cap.clearing, e.2.coil ≠ coil
    let whole := (∃ y, y < 384 ∧ s.plyCoil y = some coil) ∧
      ∀ y z, y < 384 → z < 384 → bayOfPly y = bayOfPly z → s.plyCoil y = some coil → s.plyEnabled z = true → s.plyCoil z = some coil
    let shared := s.holdsSplice coil = true ∨ ∃ g, g < 256 ∧ s.fld .DT_SHARE_A_VALID g ≠ 0 ∧ (s.fld .DT_SHARE_A_OWNER g = coil ∨ s.fld .DT_SHARE_A_GRANTEE g = coil)
    let c1 := state = 1 ∧ s.fld .CP_COIL_ADMIN_HOME_VALID coil ≠ 0 ∧ s.keyed coil = true
    let c5 := s.fld .SP_RSV_GBPS coil ≠ 0
    let c6 := leastShare (s.baysOf coil).length op ≤ s.fld .CP_COIL_POWER_SHARE_W coil
    let seals := fun (n : Nat) => admin (.seal p coil) n
    let mapped := ∃ i ∈ s.hdmEntries, s.fld .SP_HDM_MAP_COIL i = coil
    let others := ((List.range 32).filter (· ≠ coil)).foldl (fun n c => n + s.fld .CP_COIL_POWER_SHARE_W c) 0
    let fits := w ≤ s.fld .CP_COIL_POWER_SHARE_W coil ∨ 10 * (others + w) ≤ 8 * (min 20000 (935 * (s.capW - 60) / 1000) - 4500)
    let resetting := s.fld .CP_COIL_RUN_RESETTING coil ≠ 0
    let wiped := fun (t : State) => t.coilInFlight coil = 0 ∧ t.fld .CP_COIL_RUN_RESETTING coil = 1 ∧ t.fld .CP_COIL_POWER_SHARE_W coil = s.fld .CP_COIL_POWER_SHARE_W coil ∧
      t.fld .CP_COIL_CTL_FIXED_OP coil = op ∧ t.fld .CP_COIL_CTL_QUIESCED coil = s.fld .CP_COIL_CTL_QUIESCED coil ∧
      ∀ i, i < 64 → t.fld .CP_SRING_CFG_ENABLE (64 * coil + i) = 0 ∧ t.fld .CP_CRING_CFG_ENABLE (64 * coil + i) = 0
    (Control s p →
      (state ≠ 0 → admin (.create p coil) 2) ∧
      (state = 0 → Completes (.create p coil) s (fun t => t.fld .CP_COIL_ADMIN_STATE coil = 1 ∧ t.fld .CP_COIL_ADMIN_STATUS coil = 0 ∧ t.fld .CP_COIL_CTL_FIXED_OP coil = 7 ∧
        t.fld .CP_COIL_CTL_INFLIGHT_MAX coil = 65536 ∧ t.fld .CP_COIL_POWER_SHARE_W coil = 0 ∧ t.fld .SP_RSV_GBPS coil = 0 ∧ t.fld .SP_STRIPE_CTL_ACTIVE coil = 0 ∧
        t.fld .DT_CTX_CTL_ENABLE coil = 0 ∧ (∀ i, i < 64 → t.fld .CP_SRING_CFG_ENABLE (64 * coil + i) = 0) ∧ t.mem = s.mem)) ∧
      (¬ c1 → seals 1) ∧ (c1 → ¬ idle → seals 1) ∧ (c1 → idle → ¬ whole → seals 3) ∧ (c1 → idle → whole → 4 < op → seals 4) ∧
      (c1 → idle → whole → op ≤ 4 → ¬ c5 → seals 5) ∧ (c1 → idle → whole → op ≤ 4 → c5 → ¬ c6 → seals 6) ∧ (c1 → idle → whole → op ≤ 4 → c5 → c6 → shared → seals 7) ∧
      (c1 → idle → whole → op ≤ 4 → c5 → c6 → ¬ shared → Completes (.seal p coil) s (fun t => t.sealed coil = true ∧ t.fld .CP_COIL_ADMIN_STATUS coil = 0 ∧ t.mem = s.mem)) ∧
      (state = 2 → Ignored (.coilRepeatableWrite p coil on) s) ∧
      (state ≠ 2 → (state ≠ 1 ∨ ∃ i, i < 64 ∧ s.fld .CP_SRING_CFG_ENABLE (64 * coil + i) ≠ 0) → admin (.coilRepeatableWrite p coil on) 1) ∧
      (state = 1 → (∀ i, i < 64 → s.fld .CP_SRING_CFG_ENABLE (64 * coil + i) = 0) →
        Sets (.coilRepeatableWrite p coil on) s [(.CP_COIL_ADMIN_REPEATABLE, coil, if on then 1 else 0), (.CP_COIL_ADMIN_STATUS, coil, 0)]) ∧
      (state ≠ 1 → state ≠ 2 → admin (.destroy p coil) 1) ∧ ((state = 1 ∨ state = 2) → mapped → admin (.destroy p coil) 8) ∧
      ((state = 1 ∨ state = 2) → ¬ mapped → Completes (.destroy p coil) s (fun t => t.fld .CP_COIL_ADMIN_STATE coil = 3 ∧ t.fld .CP_COIL_ADMIN_STATUS coil = 0 ∧
        t.fld .CP_COIL_ADMIN_DESTROY_BUSY coil = 1 ∧ (t.cap.destroy.find? (·.1 = coil)).map (·.2.step) = some 2 ∧ wiped t))) ∧
    (Home s p coil →
      Completes (.quiesce p coil) s (fun t => t.fld .CP_COIL_CTL_QUIESCED coil = 1 ∧ t.fld .CP_COIL_RUN_STATUS coil = 0) ∧
      (s.fld .HT_HOLD_STATUS_HOLD p ≠ 0 → Sets (.resume p coil) s [(.CP_COIL_RUN_STATUS, coil, 2)]) ∧
      (s.fld .HT_HOLD_STATUS_HOLD p = 0 → Completes (.resume p coil) s (fun t => t.fld .CP_COIL_CTL_QUIESCED coil = 0 ∧ t.fld .CP_COIL_RUN_STATUS coil = 0)) ∧
      (resetting ∨ state = 3 → Sets (.reset p coil) s [(.CP_COIL_RUN_STATUS, coil, 1)]) ∧
      (¬ resetting → state ≠ 3 → Completes (.reset p coil) s wiped) ∧
      (¬ resetting → state ≠ 3 → s.cap.tasks = [] → s.fld .DT_CTX_CTL_ENABLE coil = 0 → Completes (.reset p coil) s (fun t => t.mem = s.mem ∧
        ∀ c, (s.core c).running = true → (s.core c).coil = some coil → t.core c = { (s.core c).startEnd with task := none, fault := none } ∧ t.fld .CR_STATUS_PSTATE c = 1)) ∧
      (s.sealed coil = true → Ignored (.shareWrite p coil w) s) ∧
      (s.sealed coil = false → w < 65536 → fits → Sets (.shareWrite p coil w) s [(.CP_COIL_POWER_SHARE_W, coil, w), (.CP_COIL_POWER_STATUS, coil, 0)]) ∧
      (s.sealed coil = false → w < 65536 → ¬ fits → Sets (.shareWrite p coil w) s [(.CP_COIL_POWER_STATUS, coil, 1)])) ∧
    (resetting → s.coilQuiet coil = true → Sets (.coilResetEnd coil) s [(.CP_COIL_RUN_RESETTING, coil, 0)]) ∧
    (¬ resetting ∨ s.coilQuiet coil = false → Ignored (.coilResetEnd coil) s)

/-- Plies change hands (R607 to R609, R625, Tables 18.2 and 18.4): assignment with its statuses, the release and its clearing step by step, which leaves cores DARK, caches empty
and scratch zero, and the steps of a destruction. It rests on the model's choices of log entries 6, 68, 71. -/
def Obligations.PliesAndDestruction : Prop :=
  ∀ (s : State) (p y coil : Nat), y < 384 → coil < 32 →
    let owner := s.plyCoil y
    let locked := ∃ c, owner = some c ∧ s.sealed c = true
    let dead := s.plyEnabled y = false ∨ s.fences.routers.contains (bayOfPly y) = true
    let status := fun (i : Instr) (n : Nat) => Sets i s [(.CP_PLY_OWNER_STATUS, y, n)]
    let take := .plyAssign p y coil
    let open_ := s.fld .CP_COIL_ADMIN_STATE coil = 1
    let clearing := s.fld .CP_PLY_OWNER_CLEARING y ≠ 0
    let next := fun (n : Nat) (t : State) => (t.cap.clearing.find? (·.1 = y)).map (·.2.step) = some n
    let step := fun (n : Nat) => ∃ z, s.cap.clearing.find? (·.1 = y) = some (y, z) ∧ z.step = n
    let lo := scratchBase + y * 2 ^ 24
    let dnext := fun (n : Nat) (t : State) => (t.cap.destroy.find? (·.1 = coil)).map (·.2.step) = some n
    let dstep := fun (n : Nat) => ∃ d, s.cap.destroy.find? (·.1 = coil) = some (coil, d) ∧ d.step = n
    let ends := fun (P : State → Prop) => Completes (.destructionStepEnd coil) s P
    (Control s p →
      (locked → Ignored take s ∧ Ignored (.plyRelease p y) s) ∧
      (¬ locked → (∀ c, owner = some c → c ≠ coil → status take 1) ∧ (owner = none → clearing → status take 2) ∧ (owner = none → ¬ clearing → dead → status take 3) ∧
        (owner = none → ¬ clearing → ¬ dead → ¬ open_ → status take 4) ∧
        (owner = some coil ∨ owner = none ∧ ¬ clearing ∧ ¬ dead ∧ open_ →
          Completes take s (fun t => t.plyCoil y = some coil ∧ t.fld .CP_PLY_OWNER_STATUS y = 0 ∧ (∀ z, z ≠ y → t.plyCoil z = s.plyCoil z) ∧
            t = { s with regs := t.regs, out := [], outputs := t.outputs }))) ∧
      (¬ locked → (owner = none → status (.plyRelease p y) 0) ∧ (owner ≠ none → s.plyInUse y = true → status (.plyRelease p y) 2) ∧
        (owner ≠ none → s.plyInUse y = false → Completes (.plyRelease p y) s (fun t => t.plyCoil y = none ∧ t.fld .CP_PLY_OWNER_CLEARING y = 1 ∧ t.fld .CP_PLY_OWNER_STATUS y = 0 ∧
          next 1 t ∧ ∀ i, i / 32 = y → t.fld .TK_CH_CTL_ENABLE i = 0 ∧ t.fld .TK_CH_STATUS_STATE i = 0)))) ∧
    (s.cap.clearing.find? (·.1 = y) = none → Ignored (.plyClearStepEnd y) s) ∧
    (step 1 → Completes (.plyClearStepEnd y) s (fun t => next 2 t ∧ t.mem = s.mem ∧ ∀ c, plyOfCore c = y → s.fences.cores.contains c = false → (s.core c).resetting = false →
      t.fld .CR_STATUS_PSTATE c = 4 ∧ (t.core c).tile = [] ∧ (t.core c).g = [] ∧ (t.core c).l1d = [] ∧ (t.core c).mb = [])) ∧
    (step 2 → Completes (.plyClearStepEnd y) s (fun t => next 3 t ∧ (t.ply y).cache = [] ∧ (t.ply y).victim = [] ∧ t.plyCoil y = none)) ∧
    (step 3 → (∃ w ∈ (s.bus (bayOfPly y)).wbs, w.ply = y) → Ignored (.plyClearStepEnd y) s) ∧
    (step 3 → (∀ w ∈ (s.bus (bayOfPly y)).wbs, w.ply ≠ y) → Completes (.plyClearStepEnd y) s (fun t => next 4 t ∧ t.carved y = 0 ∧ t.fld .PC_CTL_PREFETCH y = 1 ∧
      t.fld .PC_CTL_VICTIM y = 1 ∧ (∀ a, lo ≤ a → a < lo + 2 ^ 24 → t.byte a = 0) ∧ ∀ a, a < lo ∨ lo + 2 ^ 24 ≤ a → t.byte a = s.byte a)) ∧
    (step 4 → Completes (.plyClearStepEnd y) s (fun t => t.fld .CP_PLY_OWNER_CLEARING y = 0 ∧ t.cap.clearing.find? (·.1 = y) = none ∧ t.mem = s.mem)) ∧
    (s.cap.destroy.find? (·.1 = coil) = none → Ignored (.destructionStepEnd coil) s) ∧
    (dstep 2 → s.coilQuiet coil = false → Ignored (.destructionStepEnd coil) s) ∧
    (dstep 2 → s.coilQuiet coil = true → ends (fun t => dnext 3 t ∧ t.fld .CP_COIL_RUN_RESETTING coil = 0 ∧
      ∀ i, i < 64 → t.fld .CP_SRING_CFG_ENABLE (64 * coil + i) = 0 ∧ t.fld .CP_CRING_CFG_ENABLE (64 * coil + i) = 0)) ∧
    (dstep 3 → ends (fun t => dnext 4 t ∧ t.mem = s.mem ∧ ∀ g, g < 256 → (s.fld .DT_SHARE_A_OWNER g = coil ∨ s.fld .DT_SHARE_A_GRANTEE g = coil) → t.fld .DT_SHARE_A_VALID g = 0)) ∧
    (dstep 4 → s.grantsDrained coil = true → ends (fun t => dnext 5 t ∧ t.fld .DT_CTX_CTL_ENABLE coil = 0 ∧ t.fld .SP_STRIPE_CTL_ACTIVE coil = 0)) ∧
    (dstep 5 → s.invDrained coil none = true → ends (fun t => dnext 6 t ∧ ∀ z, z < 384 → t.plyCoil z ≠ some coil)) ∧
    (dstep 6 → (∀ e ∈ s.cap.clearing, e.2.coil ≠ coil) → ends (fun t => dnext 7 t ∧ (s.homeOf coil ≠ none → t.fld .CP_COIL_ADMIN_HOME_VALID coil = 0))) ∧
    (dstep 7 → ends (fun t => dnext 8 t ∧ t.mem = s.mem ∧ ∀ v ∈ s.vaultsOf coil, t.fld .SP_VAULT_OWNER_VALID v = 0 ∧
      (s.fld .SP_VAULT_STATUS_STATE v ≠ 3 → t.fld .SP_VAULT_STATUS_STATE v = 2))) ∧
    (∀ d, s.cap.destroy.find? (·.1 = coil) = some (coil, d) → d.step = 8 → (∀ v ∈ d.vaults, s.fld .SP_VAULT_STATUS_STATE v ≠ 2) →
      ends (fun t => dnext 9 t ∧ t.keyed coil = false ∧ SMap.get 0 t.keys coil = 0 ∧ t.fld .SP_RSV_GBPS coil = 0)) ∧
    (dstep 9 → ends (fun t => t.fld .CP_COIL_ADMIN_STATE coil = 0 ∧ t.fld .CP_COIL_ADMIN_DESTROY_BUSY coil = 0 ∧ t.cap.destroy.find? (·.1 = coil) = none))
/-- What a completed fence of a unit leaves (R639, R640, R643): the unit is in the live stopper map, the counts follow the map, FENCE_GEN has advanced, and the journal's last
cause record names the unit and the cause. -/
def Fenced (u : UnitRef) (cause : Nat) (s t : State) : Prop :=
  t.fencedUnit u = true ∧ t.fld .CL_CAPACITY_CORES 0 = 3072 - t.fences.cores.length ∧ t.fld .CL_CAPACITY_VAULTS 0 = 3072 - t.fences.vaults.length ∧
    t.fld .CL_CAPACITY_FENCE_GEN 0 = (s.fld .CL_CAPACITY_FENCE_GEN 0 + 1) % 2 ^ 32 ∧ t.nvm.live.causes.getLast?.map (fun r => (r.unit, r.cause)) = some (u, cause)

/-- Errors and their repeats (R97, R252, R414, R437, R631, R659, Tables 3.5 and 19.1): the first error of a core, ply or vault resets it, the second within 24 h fences it; a pawl
that misses its heartbeats costs its bay. -/
def ErrorResetsPart : Prop :=
  ∀ (s : State) (c y v k : Nat), s.module.railsOn = true →
    let first := (s.core c).ueAt.any s.within24h = false
    let coreDown := fun (t : State) => t.core c = { nextAcc := (s.core c).nextAcc, tileUe := (s.core c).tileUe, ueAt := [s.clockUs], resetting := true } ∧
      t.fld .CR_STATUS_PSTATE c = 4 ∧ t.fences = s.fences
    let lo := scratchBase + y * 2 ^ 24
    let plyDown := fun (t : State) => (t.ply y).resetting = true ∧ (t.ply y).errorAt = some s.clockUs ∧ (t.ply y).cache = [] ∧ (t.ply y).victim = [] ∧
      (∀ j, plyOfCore j = y → (t.core j).resetting = true ∧ (t.core j).task = none) ∧ t.fences = s.fences ∧ t.carved y = 0 ∧
      (s.cap.tasks = [] → ∀ a, lo ≤ a → a < lo + 2 ^ 24 → t.byte a = 0)
    (c < 3072 → s.fences.cores.contains c = false → (s.core c).resetting = false →
      (first → Completes (.coreStateUe c) s coreDown) ∧ (¬ first → Completes (.coreStateUe c) s (Fenced ⟨.core, c⟩ 2 s)) ∧
      ((s.core c).ending = true → first → Completes (.terminationWatchdog c) s coreDown) ∧
      ((s.core c).ending = true → ¬ first → Completes (.terminationWatchdog c) s (Fenced ⟨.core, c⟩ 2 s)) ∧
      ((s.core c).ending = false → Ignored (.terminationWatchdog c) s)) ∧
    (y < 384 → (s.ply y).resetting = false → s.fencedUnit ⟨.ply, y⟩ = false → ∀ i ∈ [Instr.plyCacheTagUe y, .tackleInternalFault y],
      ((∀ b, (s.ply y).errorAt = some b → s.within24h b = false) → Completes i s plyDown) ∧
      (∀ b, (s.ply y).errorAt = some b → s.within24h b = true → Completes i s (Fenced ⟨.ply, y⟩ 5 s))) ∧
    (v < 3072 → (s.vault v).resetting = false → s.fences.vaults.contains v = false →
      ((∀ b, (s.vault v).faultAt = some b → s.within24h b = false) → Completes (.vaultControllerFault v) s (fun t => (t.vault v).resetting = true ∧
        (t.vault v).faultAt = some s.clockUs ∧ t.fld .SP_VAULT_STATUS_CE_COUNT v = 0 ∧ t.mem = s.mem ∧ t.lines = s.lines ∧ t.out = [.notice ⟨.vault, v⟩ false])) ∧
      (∀ b, (s.vault v).faultAt = some b → s.within24h b = true → Completes (.vaultControllerFault v) s (fun t => Fenced ⟨.vault, v⟩ 11 s t ∧
        t.fld .SP_VAULT_STATUS_STATE v = 3 ∧ t.vaultCoil v = s.vaultCoil v))) ∧
    (k < 96 → (s.fencedUnit ⟨.bay, k⟩ = true → Ignored (.pawlWatchdog k) s) ∧
      (s.fencedUnit ⟨.bay, k⟩ = false → Completes (.pawlWatchdog k) s (fun t => Fenced ⟨.bay, k⟩ 7 s t ∧ ∀ j, j / 32 = k → t.fld .CR_STATUS_FENCED j = 1)))

/-- Ends of resets and requested fences (R96, R97, R101, R630): a reset ends with the clearing notice of a unit that is not fenced; a request is answered FENCED, ATTACHED, RANGE or
OK, and OK is a fence with cause 12. -/
def FenceRequestsPart : Prop :=
  ∀ (s : State) (c y k v p kind unit : Nat) (u : UnitRef),
    let down := fun (k : Nat) => (s.pawl k).resetting = true
    let ok := requestable u = true
    let held := s.fencedUnit u = true
    let attached := u.kind = .router ∧ s.attached u.id = true
    let r := fun (n : Nat) => Sets (.clFenceReq p kind unit) s [(.CL_FENCE_REQ_STATUS, 0, n)]
    let bay := s.fencedUnit ⟨.bay, k⟩ = true
    ((s.core c).resetting = false → Ignored (.coreResetEnd c) s) ∧
    ((s.core c).resetting = true → (s.ply (plyOfCore c)).resetting = false → ¬ down (bayOfCore c) →
      Completes (.coreResetEnd c) s (fun t => t.core c = { s.core c with resetting := false } ∧ (∀ j, j ≠ c → t.core j = s.core j) ∧
        t = { s with cores := t.cores, out := if s.fences.cores.contains c then [] else [.notice ⟨.core, c⟩ true], outputs := t.outputs })) ∧
    ((s.ply y).resetting = false ∨ s.fencedUnit ⟨.ply, y⟩ = true → Ignored (.plyResetEnd y) s) ∧
    ((s.ply y).resetting = true → ¬ down (bayOfPly y) → s.fencedUnit ⟨.ply, y⟩ = false →
      Completes (.plyResetEnd y) s (fun t => t.ply y = { s.ply y with resetting := false } ∧ (∀ j, plyOfCore j = y → (t.core j).resetting = false) ∧
        t = { s with cores := t.cores, plies := t.plies, out := [.notice ⟨.ply, y⟩ true], outputs := t.outputs })) ∧
    (¬ down k ∨ bay → Ignored (.bayResetEnd k) s) ∧
    (down k → (s.pawl k).tripped = false → ¬ bay → Completes (.bayResetEnd k) s (fun t => t.pawl k = { s.pawl k with resetting := false } ∧
      (∀ j, j / 32 = k → (t.core j).resetting = false) ∧ (∀ z, z / 4 = k → (t.ply z).resetting = false) ∧
      t = { s with cores := t.cores, plies := t.plies, pawls := t.pawls, out := [.notice ⟨.bay, k⟩ true], outputs := t.outputs })) ∧
    ((s.vault v).resetting = false ∨ s.fences.vaults.contains v = true → Ignored (.vaultResetEnd v) s) ∧
    ((s.vault v).resetting = true → s.fences.vaults.contains v = false → Completes (.vaultResetEnd v) s (fun t => t.vault v = { s.vault v with resetting := false } ∧
      t = { s with vaults := t.vaults, out := [.notice ⟨.vault, v⟩ true], outputs := t.outputs })) ∧
    (s.cleatUp = true → s.ready = true →
      (¬ ok → Sends (.fenceRequest u) s (.pldmReply 0x83 [])) ∧ (ok → held → Sends (.fenceRequest u) s (.pldmReply 0x81 [])) ∧
      (ok → ¬ held → attached → Sends (.fenceRequest u) s (.pldmReply 0x82 [])) ∧
      (ok → ¬ held → ¬ attached → s.module.railsOn = true → Completes (.fenceRequest u) s (fun t => Fenced u 12 s t ∧ Out.pldmReply 0 [] ∈ t.out)) ∧
      (96 ≤ k → Sends (.bayReset k) s (.pldmReply 0x83 [])) ∧ (k < 96 → bay → Sends (.bayReset k) s (.pldmReply 0x81 [])) ∧
      (k < 96 → ¬ bay → down k → Sends (.bayReset k) s (.pldmReply 0 [])) ∧
      (k < 96 → ¬ bay → ¬ down k → Completes (.bayReset k) s (fun t => (t.pawl k).resetting = true ∧ (∀ j, j / 32 = k → (t.core j).resetting = true) ∧
        t.fences = s.fences ∧ Out.pldmReply 0 [] ∈ t.out))) ∧
    (s.cleatUp = true → s.module.railsOn = true → p = s.module.controlPort → u = ⟨fenceKind kind, unit⟩ → 1 ≤ kind → kind ≤ 5 → unit < 4096 →
      (¬ ok → r 3) ∧ (ok → held → r 1) ∧ (ok → ¬ held → attached → r 2) ∧
      (ok → ¬ held → ¬ attached → Completes (.clFenceReq p kind unit) s (fun t => Fenced u 12 s t ∧ t.fld .CL_FENCE_REQ_STATUS 0 = 0 ∧ t.fld .CL_FENCE_REQ_KIND 0 = kind ∧
        t.fld .CL_FENCE_REQ_UNIT 0 = unit)))
/-- The links and tables of the Net (R184, R185, R189, R190, R192, R193, Table 6.5): a retry is counted and the sixteenth in a row takes the link down in both directions; a route
change writes the tables of the inactive bank and flips to it when the Net is quiet; a router with an internal error is fenced with its bay and vaults. -/
def NetLinksPart : Prop :=
  ∀ (s : State) (k q n dst : Nat) (again : Bool), s.module.railsOn = true → k < 96 → s.fences.routers.contains k = false →
    let tries := if again then SMap.get 0 (s.router k).retries q + 1 else 1
    let l := s.lostNow
    let bank := s.fld .NT_CTL_BANK 0
    let down := fun (t : State) => q ∈ (t.router k).down ∧ opposite q ∈ (t.router n).down ∧ t.net.step ≠ 0
    (neighbour k q = some n → (s.router k).down.contains q = false →
      (tries < 16 → Completes (.flitCrcFail k q again) s (fun t => t.router k = { s.router k with retries := SMap.set 0 (s.router k).retries q tries } ∧
        t.fld .NT_CRC_COUNT_RETRIES k = satAdd 32 (s.fld .NT_CRC_COUNT_RETRIES k) 1 ∧ t.mem = s.mem ∧ t.fences = s.fences)) ∧
      (s.fences.routers.contains n = false → (16 ≤ tries → Completes (.flitCrcFail k q again) s down) ∧ Completes (.netLinkDown k q) s down)) ∧
    ((s.router k).down.contains q = true → Ignored (.flitCrcFail k q again) s ∧ Ignored (.netLinkDown k q) s) ∧
    Completes (.routerInternalError k) s (fun t => Fenced ⟨.router, k⟩ 9 s t ∧ t.fencedUnit ⟨.bay, k⟩ = true ∧ (∀ v, v / 32 = k → t.fencedUnit ⟨.vault, v⟩ = true) ∧ t.net.step ≠ 0) ∧
    (s.net.step ≠ 3 → Ignored .routeTablesLoaded s) ∧
    (s.net.step = 3 → bank ≤ 1 → dst < 96 → Completes .routeTablesLoaded s (fun t => t.net.step = 5 ∧ t.fld .NT_CTL_PAUSE 0 = 1 ∧ t.fld .NT_ESC_ROOT_ROOT 0 = escRoot l ∧
      t.fld .NT_CTL_BANK 0 = bank ∧ t.routeEntry (1 - bank) k dst false = vc0Port l k dst ∧ t.routeEntry (1 - bank) k dst true = escPort l k dst)) ∧
    (s.net.step ≠ 5 → Ignored .netQuiet s) ∧
    (s.net.step = 5 → Completes .netQuiet s (fun t => t.net.step = (if s.net.again then 3 else 0) ∧ t.fld .NT_CTL_BANK 0 = 1 - bank ∧ t.fld .NT_CTL_PAUSE 0 = 0 ∧
      ∀ p ∈ (t.router k).packets, p.held = false))

/-- Ledgers and notices (R102, R103, R190, R195, R196, R200 to R204): a notice answers the ledger entries that it covers FENCED, a clearing notice ends that, a timeout fences the
target; a packet without credit escapes for good and its AGE saturates. -/
def NetLedgersPart : Prop :=
  ∀ (s : State) (k c id : Nat) (u : UnitRef) (p : Packet) (src : Src), k < 96 → s.module.railsOn = true → s.fences.routers.contains k = false →
    let x := s.core c
    let answered := fun (t : State) => (∀ a ∈ (t.core c).accesses, a.id ≠ id) ∧ t.fld .NT_PROXY_COUNT_FENCED k = satAdd 32 (s.fld .NT_PROXY_COUNT_FENCED k) 1
    let noticed := fun (t : State) => u ∈ (t.router k).noticed
    ((s.router k).noticed.contains u = true ∨ s.unitDown u = false → Ignored (.fenceNotice k u) s) ∧
    ((s.router k).noticed.contains u = false → s.unitDown u = true → (∀ y ∈ s.ledger k, ∀ v, s.targetOf y = some v → s.covers u v = false) →
      Completes (.fenceNotice k u) s (fun t => t.router k = { s.router k with noticed := (s.router k).noticed ++ [u] } ∧
        t = { s with routers := t.routers, out := [], outputs := t.outputs })) ∧
    ((s.router k).noticed.contains u = false → s.unitDown u = true → s.ledger k = [.core c id] → (∀ v, s.targetOf (.core c id) = some v → s.covers u v = true) →
      Completes (.fenceNotice k u) s (fun t => noticed t ∧ answered t ∧ t.mem = s.mem ∧
        (x.running = true → x.fault = none → (t.core c).fault.map (·.code) = some 3))) ∧
    (s.unitDown u = true → Ignored (.clearingNotice k u) s) ∧
    (s.unitDown u = false → Completes (.clearingNotice k u) s (fun t => t.router k = { s.router k with noticed := (s.router k).noticed.filter (· ≠ u) } ∧
      t = { s with routers := t.routers, out := [], outputs := t.outputs })) ∧
    (s.net.step ≠ 0 → Ignored (.netTimeout k src) s) ∧
    (s.net.step = 0 → bayOfCore c = k → s.targetOf (.core c id) = some u → Completes (.netTimeout k (.core c id)) s (fun t => answered t ∧
      t.fld .NT_LEDGER_TIMEOUTS k = satAdd 16 (s.fld .NT_LEDGER_TIMEOUTS k) 1 ∧ (fenceable u = true → s.fencedUnit u = false → Fenced u 10 s t))) ∧
    (s.packet k src = none → Ignored (.escapeWait k src) s ∧ Ignored (.ageIncrement k src) s) ∧
    (s.packet k src = some p → (p.esc = true ∨ p.held = true → Ignored (.escapeWait k src) s) ∧ (p.age = 255 → Ignored (.ageIncrement k src) s) ∧
      (p.esc = false → p.held = false → Completes (.escapeWait k src) s (fun t => t.packet k src = some { p with esc := true } ∧
        t.fld .NT_ESC_COUNT_ESCAPES k = satAdd 32 (s.fld .NT_ESC_COUNT_ESCAPES k) 1 ∧ t = { s with routers := t.routers, regs := t.regs, out := [], outputs := t.outputs })) ∧
      (p.age ≠ 255 → Completes (.ageIncrement k src) s (fun t => t.packet k src = some { p with age := p.age + 1 } ∧
        t = { s with routers := t.routers, regs := t.regs, out := [], outputs := t.outputs } ∧
        t.fld .NT_AGE_SAT_COUNT_SATURATED k = (if p.age = 254 then satAdd 32 (s.fld .NT_AGE_SAT_COUNT_SATURATED k) 1 else s.fld .NT_AGE_SAT_COUNT_SATURATED k))))
/-- Power and dispatch (R543 to R552, R587 to R592, Tables 16.5 and 16.6): the slack tick publishes the envelope in force and what it allows; a ready task goes to a bay that qualifies,
its affinity bay first; a pawl's dispatch charges the start and starts the task or wakes its core; caps and the coolant term set the envelope; the brake sends running cores to OP0. -/
def PowerAndDispatchPart : Prop :=
  ∀ (s : State) (m : TickMeas) (n k c p w tin tout flow b : Nat) (x : Task),
    let live := s.module.railsOn = true ∧ s.module.wakeState = .ready
    let e := min (min 20000 (935 * (s.capW - 60) / 1000)) (min s.power.coolant (if s.braked then 12000 else 20000))
    let affBay := x.ticket.aff = true ∧ s.fences.cores.contains x.ticket.core = false ∧ bayOfCore x.ticket.core = b
    let st := s.fld .CR_STATUS_PSTATE c
    let served := s.cleatUp = true ∧ s.ready = true
    let bad := w ≠ 0 ∧ (w < 8000 ∨ 21500 < w)
    let capped := fun (t : State) => Out.pldmReply 0 [] ∈ t.out ∧ (s.module.railsOn = true → t.fld .CP_POWER_E_W 0 = t.envelope (decide (0 < s.power.brakeTicks)))
    let term := coolantTerm tin flow
    let atRest := (s.core c).changing = none ∧ (s.core c).opNext = none
    let stops := fun (t : State) => t.braked = true ∧ (x.state = .running c → s.cap.tasks = [(n, x)] → atRest → t.goal c = 0 ∧ t.fld .CR_STATUS_OP c = 0)
    (¬ live → Ignored (.slackTick m) s) ∧
    (live → Completes (.slackTick m) s (fun t => t.fld .CP_POWER_E_W 0 = e ∧ t.fld .CP_POWER_ALLOW_W 0 = min e (m.pMeas + 180) ∧
      t.fld .CP_TICK_TICKS 0 = (s.fld .CP_TICK_TICKS 0 + 1) % 2 ^ 64 ∧ t.fld .CP_POWER_PMEAS_W 0 = m.pMeas % 2 ^ 16 ∧
      t.fld .SP_GOV_CAPACITY 0 = min s.vaultRate (20 * (e - 7000)) % 2 ^ 24 ∧ (∀ j, j < 96 → t.fld .CP_BAY_HEADROOM j = s.headroom j * 1024 / 80) ∧
      t.power.brakeTicks = (if s.braked then min 2 (s.power.brakeTicks + 1) else 0) ∧ t.mem = s.mem)) ∧
    (s.task n = x → (x.state ≠ .ready ∨ (∀ j, j < 96 → s.qualifies n j = false) → Ignored (.taskPlacement n) s) ∧
      (x.state = .ready → (∃ j, j < 96 ∧ s.qualifies n j = true) → Completes (.taskPlacement n) s (fun t => ∃ j, j < 96 ∧ s.qualifies n j = true ∧
        t.task n = { x with state := .queued j } ∧ (b < 96 → s.qualifies n b = true → affBay → j = b) ∧ (∀ i, i ≠ n → t.task i = s.task i) ∧ t.mem = s.mem))) ∧
    (s.pawlUp k = false → Ignored (.dispatch k) s) ∧
    (s.pawlUp k = true → s.cap.tasks = [(n, x)] → x.state = .queued k → x.coil < 32 → s.fld .CP_COIL_CTL_PAUSED x.coil = 0 → s.chooseCore n k = some c → s.payable n k c = some p →
      Completes (.dispatch k) s (fun t => t.fld .CPW_DISPATCH_COUNT k = (s.fld .CPW_DISPATCH_COUNT k + 1) % 2 ^ 32 ∧ t.fld .CR_STATUS_OP c = p ∧
        (t.pawl k).left = (s.pawl k).left - (opCost p + wakeCost st : Nat) ∧
        (2 ≤ st → (t.core c).waking = true ∧ t.task n = { x with state := .starting c, lastCore := some c }) ∧
        (st < 2 → t.task n = { x with state := .running c, lastCore := some c } ∧ t.fld .CR_STATUS_PSTATE c = 0 ∧ (t.core c).running = true ∧ (t.core c).task = some n ∧
          (t.core c).pc = x.entry ∧ ∀ i, i < 8 → (t.core c).rg (i + 1) = BitVec.ofNat 64 (x.ticket.args.getD i 0)))) ∧
    (served → bad → Sends (.powerCapVolatile w) s (.pldmReply 2 []) ∧ Sends (.powerCapPersistent w) s (.pldmReply 2 [])) ∧
    (served → ¬ bad → Completes (.powerCapVolatile w) s (fun t => t.cleat.capVolatile = w ∧ capped t) ∧
      Completes (.powerCapPersistent w) s (fun t => t.nvm.live.cap = w ∧ capped t)) ∧
    (s.cleatUp = true → Completes (.coolantTermUpdate (some tin) (some tout) (some flow)) s (fun t =>
      t.power.coolant = (if term ≤ s.power.coolant then term else min term (s.power.coolant + 100)) ∧ t.power.failed = [] ∧
      (s.module.railsOn = true → t.fld .CP_POWER_E_W 0 = t.envelope (decide (0 < s.power.brakeTicks))))) ∧
    (s.power.brake = true → Ignored .pwrbrakeNAssert s) ∧ (s.braked = false → Completes .pwrbrakeNAssert s stops) ∧
    Completes .pwrbrakeNDeassert s (fun t => t = { s with power := { s.power with brake := false }, out := [], outputs := t.outputs }) ∧
    (s.module.aoOn = true → s.fld .CL_GPIO_FUNC 2 = 5 → s.braked = false → Completes .pumpFaultIn s stops) ∧ (s.fld .CL_GPIO_FUNC 2 ≠ 5 → Ignored .pumpFaultIn s) ∧
    Completes .pumpFaultInRelease s (fun t => t = { s with power := { s.power with pump := false }, out := [], outputs := t.outputs })

/-- Core states and patrol tests (R535 to R542, R632, Tables 12.8 and 16.3): an idle core parks from CLKSTOP to RETAIN, which keeps its tile store, and to DARK, which does not; a wake
ends in RUN with the bay PLL locked; changes of operating point run one after another. -/
def CoreStatesPart : Prop :=
  ∀ (s : State) (c k n p q : Nat) (tk : Task),
    let x := s.core c
    let st := s.fld .CR_STATUS_PSTATE c
    let kept := { nextAcc := x.nextAcc, ueAt := x.ueAt, tileUe := x.tileUe : Core }
    let quiet := ∀ j, j / 32 = k → 2 < s.fld .CR_STATUS_PSTATE j ∧ (s.core j).waking = false
    let parks := fun (i : Instr) (y : Core) (v : Nat) => Completes i s (fun t => t.core c = y ∧ t.fld .CR_STATUS_PSTATE c = v ∧ (∀ j, j ≠ c → t.core j = s.core j) ∧ t.mem = s.mem)
    (s.coreIdle c = true → st = 2 → parks (.coreParkRetain c) { kept with tile := x.tile, tilePoison := x.tilePoison } 3) ∧
    (s.coreIdle c = true → st = 3 → s.fld .CP_PARK_DARK_MS 0 ≠ 0 → parks (.coreParkDark c) kept 4) ∧
    (s.coreIdle c = false → Ignored (.coreParkRetain c) s ∧ Ignored (.coreParkDark c) s ∧ Ignored (.patrolTestStart c) s) ∧ (s.fld .CP_PARK_DARK_MS 0 = 0 → Ignored (.coreParkDark c) s) ∧
    (x.waking = false ∨ s.fld .CPW_STATUS_PLL (bayOfCore c) = 0 → Ignored (.coreWakeDone c) s) ∧
    (x.waking = true → s.fld .CPW_STATUS_PLL (bayOfCore c) ≠ 0 → Completes (.coreWakeDone c) s (fun t => t.fld .CR_STATUS_PSTATE c = 0 ∧ (t.core c).waking = false ∧
      (st = 3 → t.fld .CR_WAKES_FROM_RETAIN c = (s.fld .CR_WAKES_FROM_RETAIN c + 1) % 2 ^ 32) ∧
      (st = 4 → t.fld .CR_WAKES_FROM_DARK c = (s.fld .CR_WAKES_FROM_DARK c + 1) % 2 ^ 32))) ∧
    (x.waking = true → s.fld .CPW_STATUS_PLL (bayOfCore c) ≠ 0 → s.cap.tasks = [(n, tk)] → tk.state = .starting c → Completes (.coreWakeDone c) s (fun t =>
      t.task n = { tk with state := .running c, lastCore := some c } ∧ (t.core c).running = true ∧ (t.core c).pc = tk.entry ∧ (t.core c).tile = x.tile)) ∧
    (k < 96 → quiet → Sets (.bayPllStop k) s [(.CPW_STATUS_PLL, k, 0)]) ∧ (k < 96 → ¬ quiet → Ignored (.bayPllStop k) s) ∧
    ((s.pawl k).relocking = false → Ignored (.bayPllLock k) s) ∧
    ((s.pawl k).relocking = true → Completes (.bayPllLock k) s (fun t => t.fld .CPW_STATUS_PLL k = 1 ∧ t.pawl k = { s.pawl k with relocking := false } ∧
      t = { s with regs := t.regs, pawls := t.pawls, out := [], outputs := t.outputs })) ∧
    (x.changing = none → Ignored (.opChangeDone c) s) ∧
    (x.changing = some p → p ≤ 4 → (x.opNext = none → Completes (.opChangeDone c) s (fun t => t.core c = { x with changing := none } ∧ t.fld .CR_STATUS_OP c = p ∧ t.mem = s.mem)) ∧
      (x.opNext = some q → q ≤ 4 → q ≠ p → Completes (.opChangeDone c) s (fun t => t.core c = { x with changing := some q, opNext := none } ∧
        t.fld .CR_STATUS_OP c = min p q ∧ t.mem = s.mem))) ∧
    (s.coreIdle c = true → st = 3 → s.fences.cores.contains c = false → s.pawlUp (bayOfCore c) = true → CoreIs (.patrolTestStart c) c { x with patrol := true } s) ∧
    (x.patrol = true → CoreIs (.patrolTestDone c true) c { x with patrol := false } s) ∧ (x.patrol = false → Ignored (.patrolTestDone c false) s) ∧
    (x.patrol = true → s.module.railsOn = true → s.fences.cores.contains c = false → Completes (.patrolTestDone c false) s (Fenced ⟨.core, c⟩ 4 s))

/-- Heat and trips (R553 to R558, R659, Tables 16.7 and 16.8): a core's band follows its sensor, up at once and down past the hysteresis; a bay trip resets the bay and the third in
24 h fences it; a wafer trip takes every compute rail and what they held, and its recovery is a warm wake unless only a wafer reset may end it. It rests on the model's choices of log entries 6, 48, 49, 60. -/
def Obligations.HeatAndTrips : Prop :=
  ∀ (s : State) (sensor reading k cause : Nat) (low copied : Bool), k < 96 →
    let c := 32 * (sensor / 36) + sensor % 36
    let t8 := min 1200 reading
    let valid := s.module.railsOn = true ∧ sensor < 3456 ∧ s.power.invalid.contains sensor = false
    let b := bandOf t8
    let recent := (s.pawl k).trips.filter s.within24h
    let dark := fun (t : State) => t.module.railsOn = false ∧ (∀ a, t.byte a = 0) ∧ t.cap.tasks = [] ∧ t.fences = s.fences ∧ ∀ j, t.fld .CR_STATUS_PSTATE j = 4
    let hot := s.power.trips.filter s.within24h
    let tripped := fun (cause : Nat) (t : State) => dark t ∧ t.module.tripped = some cause ∧ t.module.wakeState = .boot ∧
      (t.power.manual = true ↔ s.power.manual = true ∨ cause = 7 ∨ cause ≤ 5 ∧ 2 ≤ hot.length)
    let wakes := fun (t : State) => dark t ∧ t.module.wakeStep = 4 ∧ t.module.wakeCount = s.module.wakeCount + 1 ∧ t.module.tripped = none ∧ t.module.wakeState = .boot
    (¬ valid → Ignored (.thermalBandChange sensor reading) s ∧ Ignored (.sensorFault sensor) s) ∧
    (valid → sensor % 36 < 32 → Completes (.thermalBandChange sensor reading) s (fun t => (s.band c ≤ b → t.band c = b) ∧ t.band c ≤ max (s.band c) b ∧
      (b < s.band c → t8 + 16 < bandEdge (s.band c) → t.band c < s.band c) ∧ (b < s.band c → bandEdge (s.band c) ≤ t8 + 16 → t.band c = s.band c))) ∧
    (valid → Completes (.sensorFault sensor) s (fun t => t.power.invalid.contains sensor = true ∧
      ((∀ i ∈ sensorsOf (sensor / 36), i = sensor ∨ s.power.invalid.contains i = true) → (t.pawl (sensor / 36)).tripped = true))) ∧
    (s.module.railsOn = true → (s.pawl k).tripped = false → recent.length < 2 → Completes (.bayTrip k) s (fun t => (t.pawl k).tripped = true ∧
      (t.pawl k).trips = recent ++ [s.clockUs] ∧ (t.pawl k).limit = false ∧ ∀ j, j / 32 = k → (t.core j).resetting = true)) ∧
    (s.module.railsOn = true → (s.pawl k).tripped = false → 2 ≤ recent.length → s.fencedUnit ⟨.bay, k⟩ = false → Completes (.bayTrip k) s (fun t => (t.pawl k).tripped = true ∧
      (t.pawl k).limit = true ∧ Fenced ⟨.bay, k⟩ 8 s t)) ∧
    ((s.pawl k).tripped = true → Ignored (.bayTrip k) s) ∧
    ((s.pawl k).tripped = false ∨ (s.pawl k).limit = true → Ignored (.bayTripRecovery k) s) ∧
    ((s.pawl k).tripped = true → (s.pawl k).limit = false → Completes (.bayTripRecovery k) s (fun t => t.pawl k = { s.pawl k with tripped := false } ∧
      t = { s with pawls := t.pawls, out := [], outputs := t.outputs })) ∧
    (s.module.aoOn = true →
      (1 ≤ cause → cause ≤ 7 → Completes (.waferTrip cause) s (tripped cause)) ∧ Completes (.inputRange low) s (fun t => tripped 6 t ∧ (low = true → t.module.inputBad = true)) ∧
      (s.fld .CL_GPIO_FUNC 0 = 2 → Completes .leakIn s (fun t => tripped 7 t)) ∧ (s.fld .CL_GPIO_FUNC 0 ≠ 2 → Ignored .leakIn s) ∧
      Completes (.inputLoss copied) s (fun t => dark t ∧ t.module.aoOn = false ∧ t.module.wakeState = .off ∧ t.nvm.writing = none ∧ t.nvm.queue = [] ∧
        (s.nvm.writing = none → t.nvm.stored = s.nvm.stored ∧ t.nvm.torn = s.nvm.torn) ∧
        (∀ obj x, s.nvm.writing = some (obj, x) → if copied then t.nvm.stored = NvmObjects.copy obj x s.nvm.stored else obj ∈ t.nvm.torn)) ∧
      (s.module.tripped ≠ none → s.power.manual = false → Completes .waferTripRecovery s wakes)) ∧
    (s.module.aoOn = false → Ignored (.waferTrip cause) s ∧ Ignored (.inputRange low) s ∧ Ignored .leakIn s ∧ Ignored (.inputLoss copied) s) ∧
    (s.module.tripped = none ∨ s.power.manual = true → Ignored .waferTripRecovery s) ∧
    (s.cleatUp = false → Ignored .waferReset s) ∧ (s.cleatUp = true → s.module.wakeState = .recovery → Sends .waferReset s (.pldmReply 4 [])) ∧
    (s.cleatUp = true → s.module.wakeState ≠ .recovery → Completes .waferReset s (fun t => wakes t ∧ .pldmReply 0 [] ∈ t.out)) ∧
    (s.module.railsOn = false → Ignored .capstanWatchdog s) ∧
    (s.module.railsOn = true → (s.power.capFaults.filter s.within24h).length < 2 → Completes .capstanWatchdog s wakes) ∧
    (s.module.railsOn = true → 2 ≤ (s.power.capFaults.filter s.within24h).length → Completes .capstanWatchdog s (fun t => dark t ∧ t.module.wakeState = .failed))
/-- The wake and the always-on domain (R50, R51, R53, R78 to R90, Tables 3.1 to 3.3): power on starts Cleat from the stored NVM copies, each step of the wake does its part and the
next begins, the wake ends READY, FAILED or RECOVERY; AO_EN falling leaves the module safe to remove. It rests on the model's choices of log entries 6, 10, 11, 38. -/
def Obligations.WakeSequence : Prop :=
  ∀ (s : State) (o : WakeObs) (p : Nat) (tms trst : Bool),
    let ends := fun (P : State → Prop) => Completes (.wakeStepEnd o) s P
    let step := s.module.wakeStep
    let at_ := fun (t : State) (n : Nat) (w : WakeState) => t.module.wakeStep = n ∧ t.module.wakeState = w
    let moves := fun (n : Nat) (m : Module) => ends (fun t => t = { s with module := { m with wakeStep := n, wakeState := .test }, out := [], outputs := t.outputs })
    let good := fun (i : Image) (sig : Bool) => i.valid = true ∧ sig = true ∧ s.cleat.fusedMin ≤ i.version
    let a := good s.cleat.slotA o.imageA
    let b := good s.cleat.slotB o.imageB
    let m := s.mergeMaps
    let named := fun (k : UnitKind) (l j : List Nat) (n : Nat) => (⟨k, n⟩ : UnitRef) ∈ s.module.step7 ∨ n ∈ l ∨ n ∈ j
    let served := s.cleatUp = true ∧ s.ready = true
    (s.module.aoOn = false ∨ step < 2 ∨ 13 < step → Ignored (.wakeStepEnd o) s) ∧
    (s.module.aoOn = true →
      (step = 2 → a → ends (fun t => t.module.wakeStep = 3 ∧ t.cleat.booted = false ∧ t.cleat.running = true)) ∧
      (step = 2 → ¬ a → b → ends (fun t => t.module.wakeStep = 3 ∧ t.cleat.booted = true ∧ t.cleat.running = true)) ∧
      (step = 2 → ¬ a → ¬ b → ends (fun t => at_ t 0 .recovery ∧ t.cleat.running = true)) ∧
      (step = 3 → o.lost = [] → ends (fun t => t.module.wakeStep = 4 ∧ t.module.full = decide (s.nvm.live.testMode ≠ .quick) ∧ t.nvm.torn = [])) ∧
      (step = 4 → moves 5 { s.module with railsOn := true }) ∧ (step = 5 → s.module.full = true → moves 7 s.module) ∧
      (step = 5 → s.module.full = false → ends (fun t => at_ t 6 .test ∧ ∀ p, p < 8 → (t.port p).present = true)) ∧
      (step = 6 → moves 7 s.module) ∧ (step = 7 → moves 8 { s.module with step7 := o.failed }) ∧
      (step = 8 → m.wakeFails = true → ends (fun t => at_ t 0 .failed ∧ t.module.railsOn = false)) ∧
      (step = 8 → m.wakeFails = false → ends (fun t => at_ t 9 .train ∧ (∀ n, named .core s.cleat.factory.cores s.nvm.live.fences.cores n → n ∈ t.fences.cores) ∧
        (∀ n, named .vault s.cleat.factory.vaults s.nvm.live.fences.vaults n → n ∈ t.fences.vaults) ∧
        (∀ n, named .router s.cleat.factory.routers s.nvm.live.fences.routers n → n ∈ t.fences.routers ∧ ∀ c, c / 32 = n → c ∈ t.fences.cores ∧ c ∈ t.fences.vaults))) ∧
      (step = 9 → ends (fun t => at_ t 10 .train ∧ t.fld .NT_ESC_ROOT_ROOT 0 = escRoot t.lostNow ∧ t.net.lost = [t.lostNow, t.lostNow] ∧
        ∀ l ∈ o.links, l.2 ∈ (t.router l.1).down)) ∧
      (step = 10 → ends (fun t => at_ t 11 .train ∧ ∀ x ∈ o.retrained, x ∈ t.nvm.live.trained)) ∧
      (step = 11 → ends (fun t => at_ t 12 .train ∧ (∀ w, t.byte w = 0) ∧ ∀ l, (t.line l).tag = none ∧ (t.line l).poison = false)) ∧
      (step = 12 → ends (fun t => at_ t 13 .train ∧ t.fld .CL_CAPACITY_CORES 0 = 3072 - s.fences.cores.length ∧ t.fld .CL_CAPACITY_VAULTS 0 = 3072 - s.fences.vaults.length ∧
        (s.nvm.live.controlPort < 8 → s.portPresent s.nvm.live.controlPort = true → t.module.controlPort = s.nvm.live.controlPort) ∧
        t.fld .CP_POWER_E_W 0 = t.envelope false)) ∧
      (step = 13 → ends (fun t => at_ t 0 .ready ∧ (s.nvm.live.testMode = .once → t.nvm.live.testMode = .quick) ∧
        (s.fld .CL_CAPACITY_BELOW_RATED 0 = 0 → t.plate.wanted.word = .live) ∧ (s.fld .CL_CAPACITY_BELOW_RATED 0 ≠ 0 → t.plate.wanted.word = .degraded)))) ∧
    (s.module.aoOn = true → Ignored .alwaysOnStart s) ∧
    (s.module.aoOn = false → Completes .alwaysOnStart s (fun t => t.module.aoOn = true ∧ at_ t 2 .boot ∧ t.module.wakeCount = s.module.wakeCount + 1 ∧ t.module.railsOn = false ∧
      t.nvm.live = s.nvm.stored ∧ t.nvm.stored = s.nvm.stored ∧ t.log = {} ∧ t.cleat.running = false ∧ (∀ f i, t.fld f i = f.desc.reset) ∧ ∀ w, t.byte w = 0)) ∧
    (s.module.aoOn = true → Completes .aoEnFall s (fun t => t.module.aoOn = false ∧ t.module.railsOn = false ∧ t.module.wakeState = .off ∧ t.nvm.writing = none ∧
      (s.module.inputBad = false → t.plate.shown.word = .safeToRemove) ∧ (s.module.inputBad = true → t.plate.shown = s.plate.shown) ∧ ∀ w, t.byte w = 0)) ∧
    (s.module.aoOn = false → Completes .aoEnFall s (fun t => t = { s with module := { s.module with pins := { s.module.pins with aoEn := false } }, out := [], outputs := t.outputs })) ∧
    (s.module.aoOn = true → Completes (.testAccessPort tms trst) s (fun t =>
      t = { s with module := { s.module with tap := if trst then .testLogicReset else s.module.tap.next tms }, out := [], outputs := t.outputs })) ∧
    (s.module.aoOn = false → Ignored (.testAccessPort tms trst) s) ∧
    (served → 8 ≤ p → Sends (.portReset false p) s (.pldmReply 0x83 [])) ∧ (served → 6 ≤ p → Sends (.portReset true p) s (.pldmReply 0x83 [])) ∧
    (served → p < 8 → (s.port p).resetting = false → Completes (.portReset false p) s (fun t => (t.port p).resetting = true ∧ (t.port p).linkUp = false ∧
      Out.pldmReply 0 [] ∈ t.out)) ∧
    (served → p < 6 → Completes (.portReset true p) s (fun t => t.fld .BD_STATUS_STATE p = (if t.mayTrain p = true then bdTraining else bdDown) ∧ Out.pldmReply 0 [] ∈ t.out))

/-- Cleat's timers, pins, plate and time (R52, R64 to R68, R71 to R75, R649, R653, R656, R659, R660, R763, R764, R766 to R772): Gwyn's restart and resumption, the NVM journal, the plate
update step by step, the coalescing period and vector holdoff, GPIO claims first come first served, the time lock after four edges, locate, module cages, skein verification. It rests on the model's choices of log entries 6, 45, 47, 50, 51. -/
def Obligations.CleatServices : Prop :=
  ∀ (s : State) (readings : List Nat) (code coil p pin func status size ns timeout b cage obj : Nat) (u : UnitRef) (c : Coalesce) (high low : Bool) (offset : Int) (k : SkeinCheck)
    (x : NvmObjects),
    let up := s.cleatUp = true
    let served := up ∧ s.ready = true
    let key : Event := { code := code, kind := u.kind, unit := u.id, coil := some coil }
    let pl := s.plate
    let plate := fun (i : Instr) (y : Plate) => Completes i s (fun t => t = { s with plate := y, out := [], outputs := t.outputs })
    let func0 := s.fld .CL_GPIO_FUNC pin
    let mine := fun (i : Instr) (l : List (Fld × Nat × Nat)) => Sets i s ((.CL_GPIO_OUT, pin, if high then 1 else 0) :: (.CL_GPIO_STATUS, pin, 0) :: l)
    let cleat := fun (i : Instr) (y : Cleat) => Completes i s (fun t => t = { s with cleat := y, out := [], outputs := t.outputs })
    let missed := s.cleat.missed + 1
    let missing := fun (t : State) => t.cleat.missed = missed ∧ t.cleat.accepted = 0 ∧
      t.cleat.sync = (if s.cleat.sync = .locked ∧ 8 ≤ missed then .holdover else s.cleat.sync)
    let near := offset.natAbs ≤ 100000
    let verify := Instr.skeinVerify p coil
    let st := if k.lapsed then 5 else status
    (up → Completes .cleatWatchdog s (fun t => t.cleat.running = false ∧ t.cleat.trial = false ∧ t.mem = s.mem)) ∧ (¬ up → Ignored .cleatWatchdog s) ∧
    (s.cleat.running = true → Ignored .gwynResume s) ∧
    (s.module.aoOn = true → s.cleat.running = false → s.module.wakeStep = 0 → Completes .gwynResume s (fun t => t.cleat.running = true ∧ t.log.held = [] ∧ t.mem = s.mem)) ∧
    (s.nvm.writing = none → Ignored .nvmUpdateDone s) ∧
    (s.nvm.writing = some (obj, x) → s.module.aoOn = true → Completes .nvmUpdateDone s (fun t => t.nvm.stored = NvmObjects.copy obj x s.nvm.stored ∧
      obj ∉ t.nvm.torn ∧ t.nvm.live = s.nvm.live ∧ t.mem = s.mem)) ∧
    (up → s.module.inputBad = false → pl.step = 0 → pl.urgent = true ∨ pl.whole = true → Completes (.plateUpdateStart readings) s (fun t => t.plate.step = 1 ∧
      t.plate.seq = pl.seq + 1 ∧ t.plate.content = { pl.wanted with identity := s.identityArea, readings := readings } ∧
      t.nvm.live.plateBegin = some (pl.seq + 1, t.plate.content) ∧ t.plate.shown = pl.shown)) ∧
    (s.module.inputBad = true ∨ pl.step ≠ 0 → Ignored (.plateUpdateStart readings) s) ∧
    (up → (pl.step = 1 → s.nvm.stored.plateBegin = some (pl.seq, pl.content) → plate .plateStepDone { pl with step := 2, hatch := true }) ∧
      (pl.step = 2 → plate .plateStepDone { pl with step := 3 }) ∧ (pl.step = 3 → plate .plateStepDone { pl with step := 4, shown := pl.content }) ∧
      (pl.step = 4 → Completes .plateStepDone s (fun t => t.plate = { pl with step := 5, hatch := false } ∧ t.nvm.live.plateEnd = pl.seq ∧ t.mem = s.mem)) ∧
      (pl.step = 5 → s.nvm.stored.plateEnd = pl.seq → plate .plateStepDone { pl with step := 0, lastSlow := if pl.slow then some s.clockUs else pl.lastSlow }) ∧
      (pl.step = 0 ∨ 5 < pl.step → Ignored .plateStepDone s)) ∧
    (served → Completes .plateRedraw s (fun t => t = { s with plate := { pl with whole := true }, out := [.pldmReply 0 []], outputs := t.outputs })) ∧
    (up → s.log.coalescing = [c] → sameEvent c.last key = true → (c.count = 0 → Completes (.coalesceExpiry code u (some coil)) s (fun t =>
        t = { s with log := { s.log with coalescing := [] }, out := [], outputs := t.outputs })) ∧
      (c.count ≠ 0 → c.last.cls = .warning → s.log.inSecond < 10000 → s.log.ring.length < 65536 → Completes (.coalesceExpiry code u (some coil)) s (fun t => t.log.coalescing = [] ∧
        t.log.next = s.log.next + 1 ∧ ∃ e, t.log.ring = s.log.ring ++ [e] ∧ e.ev.count = c.count ∧ e.ev.code = c.last.code ∧ e.ev.index = s.log.next))) ∧
    (up → s.log.coalescing = [c] → sameEvent c.last key = false → Ignored (.coalesceExpiry code u (some coil)) s) ∧
    (SMap.get false s.log.due p = false ∨ s.fld .CL_EVT_CTL_ENABLE p = 0 → Completes (.eventVectorHoldoff p) s (fun t => SMap.get false t.log.holdoff p = false ∧
      SMap.get false t.log.due p = false ∧ t = { s with log := t.log, out := [], outputs := t.outputs })) ∧
    (s.nextVisible p = none → Ignored (.eventPop p) s) ∧
    (∀ i e, s.nextVisible p = some (i, e) → Completes (.eventPop p) s (fun t => i < t.readPos p ∧ t = { s with log := { s.log with readAt := t.log.readAt }, out := [], outputs := t.outputs })) ∧
    (up → p = s.module.controlPort → pin < 4 → (gpioLegal pin func = false → Sets (.clGpioWrite p pin func high) s [(.CL_GPIO_OUT, pin, if high then 1 else 0)]) ∧
      (gpioLegal pin func = true → (func = func0 → mine (.clGpioWrite p pin func high) []) ∧
        (func ≠ 0 → func0 = 0 → mine (.clGpioWrite p pin func high) [(.CL_GPIO_FUNC, pin, func), (.CL_GPIO_VIA, pin, 1)]) ∧
        (func = 0 → func0 ≠ 0 → s.fld .CL_GPIO_VIA pin = 1 → mine (.clGpioWrite p pin func high) [(.CL_GPIO_FUNC, pin, 0), (.CL_GPIO_VIA, pin, 0)]) ∧
        (func ≠ func0 → func0 ≠ 0 → func ≠ 0 ∨ s.fld .CL_GPIO_VIA pin ≠ 1 →
          Sets (.clGpioWrite p pin func high) s [(.CL_GPIO_OUT, pin, if high then 1 else 0), (.CL_GPIO_STATUS, pin, 1)]))) ∧
    (served → (gpioLegal pin func = false → Sends (.gpioClaim pin func high) s (.pldmReply 2 [])) ∧
      (gpioLegal pin func = true → func ≠ func0 → func0 ≠ 0 → func ≠ 0 ∨ s.fld .CL_GPIO_VIA pin = 1 → Sends (.gpioClaim pin func high) s (.pldmReply 0x80 [])) ∧
      (gpioLegal pin func = true → func ≠ 0 → func0 = 0 → Completes (.gpioClaim pin func high) s (fun t => t.fld .CL_GPIO_FUNC pin = func ∧
        t.fld .CL_GPIO_VIA pin = (if high then 3 else 2) ∧ (high = true → SMap.get 0 t.nvm.live.gpio pin = func) ∧ Out.pldmReply 0 [] ∈ t.out))) ∧
    (s.module.aoOn = true → near → s.cleat.sync ≠ .locked → s.cleat.accepted + 1 < 4 →
      cleat (.tsyncEdge offset) { s.cleat with sawEdge := true, accepted := s.cleat.accepted + 1, missed := 0 }) ∧
    (s.module.aoOn = true → near → s.cleat.sync ≠ .locked → 4 ≤ s.cleat.accepted + 1 → Completes (.tsyncEdge offset) s (fun t => t.cleat.sync = .locked ∧
      t.fld .CL_TIME_UTC_NS 0 = nearestSecond (s.fld .CL_TIME_UTC_NS 0) % 2 ^ 64)) ∧
    (s.module.aoOn = true → near → s.cleat.sync = .locked → s.cleat.pendingTime = some ns → Completes (.tsyncEdge offset) s (fun t => t.cleat.pendingTime = none ∧
      t.fld .CL_TIME_UTC_NS 0 = ns % 2 ^ 64)) ∧
    (s.module.aoOn = true → ¬ near → Completes (.tsyncEdge offset) s (fun t => missing t ∧ t.fld .CL_TIME_STATUS_REJECTED 0 = satAdd 16 (s.fld .CL_TIME_STATUS_REJECTED 0) 1)) ∧
    (s.module.aoOn = true → s.cleat.sawEdge = true → Completes .tsyncEdgeMissed s missing) ∧ (s.cleat.sawEdge = false → Ignored .tsyncEdgeMissed s) ∧
    (served → s.cleat.sync = .locked → Completes (.setTime ns) s (fun t => t.cleat.pendingTime = some (ns % 2 ^ 64) ∧ t.fld .CL_TIME_UTC_NS 0 = s.fld .CL_TIME_UTC_NS 0 ∧
      t.fld .CL_TIME_STATUS_VALID 0 = 1 ∧ t.out = [.pldmReply 0 []])) ∧
    (served → s.cleat.sync ≠ .locked → Completes (.setTime ns) s (fun t => t.fld .CL_TIME_UTC_NS 0 = ns % 2 ^ 64 ∧ t.fld .CL_TIME_STATUS_VALID 0 = 1 ∧ t.out = [.pldmReply 0 []])) ∧
    Completes (.locateN low) s (fun t => t.module.pins.locateN = !low ∧ (s.module.aoOn = true → low = true → t.outputs.locate = true)) ∧
    (served → 65535 < timeout → Sends (.locate high timeout) s (.pldmReply 2 [])) ∧
    (served → timeout ≤ 65535 → Completes (.locate high timeout) s (fun t => t.cleat.locate = high ∧ t.cleat.locateTimed = (high && decide (0 < timeout)) ∧ t.out = [.pldmReply 0 []])) ∧
    (up → s.cleat.locateTimed = true → cleat .locateTimeout { s.cleat with locate := false, locateTimed := false }) ∧ (s.cleat.locateTimed = false → Ignored .locateTimeout s) ∧
    (up → b < 6 → cage < 4 → Completes (.osfpInsert b cage) s (fun t => SMap.get 0 t.cleat.osfp (4 * b + cage) = (if s.fld .BD_CTL_ENABLE b ≠ 0 then 2 else 1) ∧ t.regs = s.regs)) ∧
    (up → SMap.get 0 s.cleat.osfp (4 * b + cage) ≠ 0 → Completes (.osfpFault b cage) s (fun t => SMap.get 0 t.cleat.osfp (4 * b + cage) = 3 ∧ t.regs = s.regs)) ∧
    (SMap.get 0 s.cleat.osfp (4 * b + cage) = 0 → Ignored (.osfpFault b cage) s) ∧
    (up → coil < 32 → s.homeOf coil = some p → (s.fld .CL_SKV_CMD_BUSY 0 ≠ 0 → Sets verify s [(.CL_SKV_CMD_STATUS, 0, 1)]) ∧
      (s.fld .CL_SKV_CMD_BUSY 0 = 0 → Completes verify s (fun t => t.fld .CL_SKV_CMD_BUSY 0 = 1 ∧ t.fld .CL_SKV_CMD_COIL 0 = coil ∧
        t.cleat.skv = some { coil := coil, file := s.fld .CL_SKV_FILE_DVA 0, base := s.fld .CL_SKV_BASE_LOAD_BASE 0, port := p }))) ∧
    (s.cleat.skv = none → Ignored (.skeinVerifyDone status size) s) ∧
    (s.cleat.skv = some k → status < 8 → Completes (.skeinVerifyDone status size) s (fun t => t.cleat.skv = none ∧ t.fld .CL_SKV_CMD_BUSY 0 = 0 ∧ t.fld .CL_SKV_CMD_STATUS 0 = st ∧
      (st ≠ 0 → t.cleat.verified = s.cleat.verified) ∧ (st = 0 → ⟨k.coil, k.base, size⟩ ∈ t.cleat.verified)))
/-- PLDM and MCTP (R86, R89, R118, R639, R642, R648, R654, R751 to R756, Tables 23.2 and 23.3): every PLDM command is refused until READY; each then answers with its completion code,
stores what it carries, or reads what stands. -/
def ManagementCommandsPart : Prop :=
  ∀ (s : State) (id eid m p b ctl index count wake threshold which measured handle type : Nat) (routes : List Nat) (full persistent : Bool) (units : List UnitRef),
    let up := s.cleatUp = true
    let served := up ∧ s.ready = true
    let live := s.nvm.live
    let tells := fun (i : Instr) (code : Nat) => Sends i s (.pldmReply code [])
    let gives := fun (i : Instr) (l : List Nat) => Sends i s (.pldmReply 0 l)
    let mctp := fun (i : Instr) (l : List Nat) => Sends i s (.mctpReply l)
    let cleat := fun (i : Instr) (c : Cleat) (o : Out) => Completes i s (fun t => t = { s with cleat := c, out := [o], outputs := t.outputs })
    let stores := fun (i : Instr) (n : NvmObjects) => Completes i s (fun t => t.nvm.live = n ∧ t.out = [.pldmReply 0 []] ∧ t.regs = s.regs ∧ t.mem = s.mem)
    let sensor := fun (i : Instr) (r : Reading) => (r = .unknown → tells i 0x80) ∧ (r = .unavailable → gives i [2]) ∧ (∀ v, r = .value v → gives i [0, v])
    let ring := if persistent then live.plog.map (·.entry) else s.log.ring
    let shows := fun (m : StopMap) (c : List CauseRec) => Completes (.mapRead which) s (fun t => t = { s with out := [.pldmReply 0 [], .maps m c], outputs := t.outputs })
    let factory := unitsMap units
    let fixed := (∃ x ∈ factory.cores, x ∈ s.cleat.factory.cores) ∨ (∃ x ∈ factory.vaults, x ∈ s.cleat.factory.vaults) ∨ ∃ x ∈ factory.routers, x ∈ s.cleat.factory.routers
    let acks := fun (e : PlogEntry) => e.entry.ev.wake = wake ∧ e.entry.ev.index = index
    (up → s.ready = false → ∀ i ∈ [Instr.getSensorReading id measured, .getStateSensorReadings id, .getPdr handle, .getPdrRepositoryInfo, .getNumericEffecterValue id, .controlPort p,
      .getStateEffecterStates id, .setEventReceiver eid, .selfTestMode m, .stopperClear full units, .bendSettings b ctl routes, .eventRead persistent index count,
      .eventAck wake index, .eventConfig threshold, .mapRead which], tells i 4) ∧
    (up → (eid = 0 ∨ 255 ≤ eid → mctp (.setEndpointId eid) [2]) ∧ (0 < eid → eid < 255 → cleat (.setEndpointId eid) { s.cleat with eid := eid } (.mctpReply [0, eid])) ∧
      mctp .getEndpointId [0, s.cleat.eid] ∧ mctp .getEndpointUuid [0, Config.uuid s.cleat.serial] ∧ mctp (.getMctpVersionSupport type) [0, Config.mctpVersions type] ∧
      mctp (.getMessageTypeSupport) [0, 0, 1, 5, 6]) ∧
    (served → gives (.getPdr handle) [Config.pdr s.gwynVersion handle] ∧ gives .getPdrRepositoryInfo [Config.pdrInfo s.gwynVersion] ∧
      gives (.getNumericEffecterValue 0x1001) [s.cleat.capVolatile] ∧ gives (.getNumericEffecterValue 0x1002) [live.cap] ∧
      (id ≠ 0x1001 → id ≠ 0x1002 → tells (.getNumericEffecterValue id) 2) ∧ gives (.getStateEffecterStates 0x1010) [if s.cleat.locate then 1 else 0] ∧
      (id ≠ 0x1010 → tells (.getStateEffecterStates id) 2) ∧
      sensor (.getSensorReading id measured) (s.numericSensor id measured) ∧ sensor (.getStateSensorReadings id) (s.stateSensor id) ∧
      gives (.getSensorReading 9 measured) [0, if s.cleat.capVolatile ≠ 0 then s.cleat.capVolatile else if live.cap ≠ 0 then live.cap else 21500] ∧
      (s.module.railsOn = true → gives (.getSensorReading 0xB measured) [0, s.fld .CL_CAPACITY_CORES 0]) ∧ (s.module.railsOn = false → gives (.getSensorReading 0xB measured) [2]) ∧
      cleat (.setEventReceiver eid) { s.cleat with receiver := some eid } (.pldmReply 0 []) ∧
      stores (.selfTestMode 0) { live with testMode := .quick } ∧ stores (.selfTestMode 1) { live with testMode := .once } ∧
      stores (.selfTestMode 2) { live with testMode := .always } ∧ (2 < m → tells (.selfTestMode m) 2) ∧
      (64 < units.length → tells (.stopperClear full units) 2) ∧ (units.length ≤ 64 → full = false → tells (.stopperClear full units) 0x85) ∧
      (units.length ≤ 64 → full = true → fixed → tells (.stopperClear full units) 0x86) ∧
      (units.length ≤ 64 → full = true → ¬ fixed → Completes (.stopperClear full units) s (fun t => Out.pldmReply 0 [] ∈ t.out ∧ t.fences = s.fences ∧
        (∀ x, x ∈ t.nvm.live.fences.cores ↔ x ∈ live.fences.cores ∧ x ∉ factory.cores) ∧ (∀ x, x ∈ t.nvm.live.fences.vaults ↔ x ∈ live.fences.vaults ∧ x ∉ factory.vaults) ∧
        (∀ x, x ∈ t.nvm.live.fences.routers ↔ x ∈ live.fences.routers ∧ x ∉ factory.routers) ∧ t.nvm.live.testMode ≠ .quick)) ∧
      (8 ≤ p → tells (.controlPort p) 0x83) ∧ (p < 8 → stores (.controlPort p) { live with controlPort := p }) ∧ (6 ≤ b → tells (.bendSettings b ctl routes) 0x83) ∧
      (b < 6 → Completes (.bendSettings b ctl routes) s (fun t => SMap.get {} t.nvm.live.bend b = { ctl := ctl % 2 ^ 26, routes := (routes.take 64).map (· % 32) } ∧
        (∀ j, j ≠ b → SMap.get {} t.nvm.live.bend j = SMap.get {} live.bend j) ∧ t.regs = s.regs)) ∧
      (8 < count ∨ ring.length < index + count → tells (.eventRead persistent index count) 0x83) ∧
      (count ≤ 8 → index + count ≤ ring.length → Completes (.eventRead persistent index count) s (fun t =>
        t = { s with out := [.pldmReply 0 [], .events (((ring.drop index).take count).map (·.ev))], outputs := t.outputs })) ∧
      ((∀ e ∈ live.plog, ¬ acks e) → tells (.eventAck wake index) 0x83) ∧
      ((∃ e ∈ live.plog, acks e) → Completes (.eventAck wake index) s (fun t => t.out = [.pldmReply 0 []] ∧ t.nvm.live.plog.map (·.entry) = live.plog.map (·.entry) ∧
        (∀ e ∈ t.nvm.live.plog, acks e → e.acked ≠ none) ∧ ∀ e ∈ live.plog, ¬ acks e → e ∈ t.nvm.live.plog)) ∧
      (2 < threshold → tells (.eventConfig threshold) 0x83) ∧
      (threshold ≤ 2 → cleat (.eventConfig threshold) { s.cleat with pldmThreshold := threshold } (.pldmReply 0 [])) ∧
      (which = 0 → shows s.cleat.factory []) ∧ (which = 1 → shows live.fences live.causes) ∧ (which = 2 → shows s.cleat.merged []) ∧ (which = 3 → shows s.fences []) ∧
      (3 < which → tells (.mapRead which) 2))

/-- Gwyn images and SPDM (R757 to R762): an update goes through its phases into the slot that is not booted, its image is verified before it may be activated, a trial is committed or
rolled back, the fused minimum only rises; SPDM answers outside RECOVERY, at most 4 sessions. -/
def ImagesAndSpdmPart : Prop :=
  ∀ (s : State) (id n version v slot nonce index session : Nat) (last signed : Bool),
    let up := s.cleatUp = true
    let served := up ∧ s.ready = true
    let c := s.cleat
    let tells := fun (i : Instr) (code : Nat) (l : List Nat) => Sends i s (.pldmReply code l)
    let cleat := fun (i : Instr) (x : Cleat) (o : List Out) => Completes i s (fun t => t = { s with cleat := x, out := o, outputs := t.outputs })
    let commits := fun (i : Instr) (o : List Out) => Completes i s (fun t => t.cleat.booted = !c.booted ∧ t.cleat.trial = false ∧ t.cleat.copying = true ∧
      t.slot (!c.booted) = s.slot (!c.booted) ∧ (t.slot c.booted).valid = false ∧ t.out = o)
    let restarts := fun (i : Instr) (trial : Bool) => Completes i s (fun t => t.cleat.running = false ∧ t.cleat.trial = trial ∧ Out.pldmReply 0 [] ∈ t.out ∧
      t.cleat.slotA = c.slotA ∧ t.cleat.slotB = c.slotB)
    let early := fun (i : Instr) (p : UpdatePhase) => (c.phase = .idle → tells i 0x80 []) ∧ (c.phase ≠ .idle → c.phase ≠ p → tells i 0x84 [])
    let got := c.received + n
    let ok := signed = true ∧ c.fusedMin ≤ version ∧ got ≤ 24 * 2 ^ 20
    let data := Instr.firmwareDataReceived n last signed version
    let takes := fun (phase : UpdatePhase) (valid : Bool) (o : List Out) => Completes data s (fun t => t.cleat.phase = phase ∧ t.cleat.received = got ∧
      (t.slot c.target).valid = valid ∧ (t.slot c.target).version = version ∧ t.slot (!c.target) = s.slot (!c.target) ∧ t.out = o)
    let raised := c.fusedMin < v ∧ v ≤ c.slotA.version ∧ v ≤ c.slotB.version ∧ c.raises < 63
    let recovery := s.module.wakeState = .recovery
    let spdm := fun (i : Instr) (ok : Bool) (l : List Nat) => Sends i s (.spdmReply ok l)
    (served → (c.trial = true → commits .fwCommit [.pldmReply 0 []] ∧ restarts .fwRollback false) ∧
      (c.trial = false → tells .fwCommit 0x87 [] ∧ tells .fwRollback 0x87 []) ∧
      (c.trial = true ∨ c.phase ≠ .idle → tells (.fuseMinVersion v) 0x84 []) ∧ (c.trial = false → c.phase = .idle → ¬ raised → tells (.fuseMinVersion v) 0x83 []) ∧
      (c.trial = false → c.phase = .idle → raised → cleat (.fuseMinVersion v) { c with fusedMin := v, raises := c.raises + 1 } [.pldmReply 0 []])) ∧
    (up → (c.trial = true → commits .trialTimeout []) ∧ (c.trial = false → Ignored .trialTimeout s) ∧ (c.copying = false → Ignored .imageCopyDone s) ∧
      (c.copying = true → Completes .imageCopyDone s (fun t => t.slot (!c.booted) = s.slot c.booted ∧ t.slot c.booted = s.slot c.booted ∧ t.cleat.copying = false)) ∧
      (c.phase ≠ .idle ∨ c.trial = true → tells .requestUpdate 0x81 []) ∧
      (c.phase = .idle → c.trial = false → cleat .requestUpdate { c with phase := .requested, received := 0 } [.pldmReply 0 []]) ∧
      early (.passComponentTable id) .requested ∧ early (.updateComponent id) .tablePassed ∧ early .activateFirmware .verified ∧
      (c.phase = .requested → (id ≠ 1 → tells (.passComponentTable id) 0 [1]) ∧ (id = 1 → cleat (.passComponentTable id) { c with phase := .tablePassed } [.pldmReply 0 [0]])) ∧
      (c.phase = .tablePassed → (id ≠ 1 → tells (.updateComponent id) 0 [1]) ∧ (id = 1 → cleat (.updateComponent id)
        { c with phase := .receiving, received := 0, target := if s.module.wakeState = .recovery then false else !c.booted } [.pldmReply 0 [0]])) ∧
      (c.phase ≠ .receiving → Ignored data s) ∧
      (c.phase = .receiving → (last = false → takes .receiving false []) ∧ (last = true → ok → takes .verified true [.fwComplete true]) ∧
        (last = true → ¬ ok → takes .idle false [.fwComplete false])) ∧
      (c.phase = .verified → recovery → cleat .activateFirmware { c with phase := .idle } [.pldmReply 0 []]) ∧
      (c.phase = .verified → ¬ recovery → restarts .activateFirmware true)) ∧
    (recovery → ∀ i ∈ [Instr.getCertificate slot, .challenge nonce, .getMeasurements index, .keyExchange, .heartbeat session, .keyUpdate session], Ignored i s) ∧
    (up → ¬ recovery → spdm (.getCertificate 0) true [Config.signature [c.serial]] ∧ (slot ≠ 0 → spdm (.getCertificate slot) false []) ∧
      spdm (.challenge nonce) true [Config.signature [c.serial, nonce]] ∧
      (∀ m, s.measurement index = some m → spdm (.getMeasurements index) true (m ++ [Config.signature m])) ∧
      (index = 0 ∨ 7 < index → spdm (.getMeasurements index) false []) ∧ s.measurement 4 = some [c.fusedMin, c.raises] ∧
      (c.sessions.length < 4 → cleat .keyExchange { c with sessions := c.sessions ++ [c.nextSession], nextSession := c.nextSession + 1 } [.spdmReply true [c.nextSession]]) ∧
      (4 ≤ c.sessions.length → spdm .keyExchange false []) ∧ spdm (.heartbeat session) (c.sessions.contains session) [session] ∧
      (session ∉ c.sessions → spdm (.keyUpdate session) false [session]) ∧
      (session ∈ c.sessions → Completes (.keyUpdate session) s (fun t => SMap.get 0 t.cleat.keyGen session = SMap.get 0 c.keyGen session + 1 ∧ t.out = [.spdmReply true [session]])))
/-- A function whose memory requests port `p` serves: the link is up and ready, the function is there and not in reset, D0, no Port Hold. -/
def HostOpen (s : State) (p fn : Nat) : Prop :=
  p < 8 ∧ (s.port p).linkUp = true ∧ s.visible p fn = true ∧ s.inFlr p fn = false ∧ s.fld .HT_PM_STATUS_DSTATE p ≠ 3 ∧ s.fld .HT_HOLD_STATUS_HOLD p = 0

/-- Register-space offset `x` names instance `i` of register `r`, outside the bundle window, in a unit that is up. -/
def Named (s : State) (x : Nat) (r : Reg) (i : Nat) : Prop :=
  regAt x = some (r, i) ∧ s.spaceDown x = false ∧ (x < 0x1000000 → s.cleatCut = false) ∧ (x < 0x100000 ∨ 0x200000 ≤ x) ∧ r ≠ .HT_BIAS

/-- The fields that only a logged event touches: the lost entries of a port, and what a power management event sets. -/
def eventFields : List Fld := [.CL_EVT_STATUS_LOST, .HT_PM_STATUS_PME_PENDING, .HT_PM_STATUS_WAKE]

/-- A write that its scope does not allow: discarded, answered as such, and logged as REG_WRITE_DENIED of unit `u` with the offset. -/
def Denied (i : Instr) (s : State) (u : UnitRef) (x : Nat) : Prop :=
  Completes i s (fun t => Out.regDenied ∈ t.out ∧ t.mem = s.mem ∧ t.cores = s.cores ∧ (∀ f n, f ∉ eventFields → t.fld f n = s.fld f n) ∧
    (s.cleatUp = true → s.log.coalescing = [] → s.log.second ≠ s.clockUs / 1000000 →
      ∃ e ∈ t.log.ring, e.ev.code = 0x0702 ∧ e.ev.kind = u.kind ∧ e.ev.unit = u.id ∧ e.ev.data0 = x))

/-- Register reads (R13 to R16, R93, R117, R122, R136, R142, R777 to R779, Tables 4.7 and 24.4): the value is the register's fields at their places, a four byte read gives its half, and
the read clears the read-to-clear fields that it covers wholly; a host's request that its function may not serve is Unsupported Request, or lost without a link; RIG-level code and Cleat
read by their own ways. -/
def RegisterReadsPart : Prop :=
  ∀ (s : State) (p n off size x i c j : Nat) (r : Reg) (f : Fld), p < 8 →
    let inst := if r = .CL_EVT_CTL ∨ r = .CL_EVT_STATUS ∨ r = .CL_EVT_POP ∨ r = .CL_PLOG_SEL then p else i
    let whole := s.readReg p r inst
    let read := Instr.rcRead (.pf p) off size
    let ur := fun (i : Instr) => Sends i s (.ioReply p 1 0 false)
    let data := fun (i : Instr) (v : Nat) => Sends i s (.ioReply p 0 (BitVec.ofNat 512 v) false)
    let gives := fun (i : Instr) (o : Out) (inst a b : Nat) => Completes i s (fun t => t = { s with regs := t.regs, fresh := t.fresh, out := [o], outputs := t.outputs } ∧
      ∀ f j, t.fld f j = if f ∈ r.fields ∧ f.desc.acc = .rc ∧ j = inst ∧ a ≤ f.desc.lo ∧ f.desc.lo + f.desc.w ≤ b then 0 else s.fld f j)
    let pf := HostOpen s p 0 ∧ pfPlace p (s.fld .HT_BAY_WINDOW_BAY p) off = .space x ∧ Named s x r i
    let bound := s.fld .HT_VF_BIND_VALID (32 * p + (n - 1)) ≠ 0
    let vf := HostOpen s p n ∧ 0 < n ∧ bound ∧ vfPlace (s.fld .HT_VF_BIND_COIL (32 * p + (n - 1))) off = .space x ∧ Named s x r i
    let aligned := (size = 4 ∨ size = 8) ∧ off % size = 0
    let rig := Instr.rcRead (.rig c) off size
    (f ∈ r.fields → j < f.desc.reps → whole / 2 ^ (f.desc.lo + f.desc.stride * j) % 2 ^ f.desc.w = s.readFld p f (f.desc.reps * inst + j) % 2 ^ f.desc.w) ∧
    ((∀ g ∈ r.fields, ∀ k, k < g.desc.reps → j < g.desc.lo + g.desc.stride * k ∨ g.desc.lo + g.desc.stride * k + g.desc.w ≤ j) → whole.testBit j = false) ∧
    (pf → off % 8 = 0 → gives (.rcRead (.pf p) off 8) (.ioReply p 0 (BitVec.ofNat 512 whole) false) inst 0 64) ∧
    (vf → off % 8 = 0 → gives (.rcRead (.vf p n) off 8) (.ioReply p 0 (BitVec.ofNat 512 whole) false) inst 0 64) ∧
    (pf → off % 8 = 0 → gives (.rcRead (.pf p) off 4) (.ioReply p 0 (BitVec.ofNat 512 (whole % 2 ^ 32)) false) inst 0 32) ∧
    (pf → off % 8 = 4 → gives (.rcRead (.pf p) off 4) (.ioReply p 0 (BitVec.ofNat 512 (whole / 2 ^ 32)) false) inst 32 64) ∧
    (HostOpen s p 0 → ¬ aligned → ur read) ∧
    (HostOpen s p 0 → aligned → pfPlace p (s.fld .HT_BAY_WINDOW_BAY p) off = .void → data read 0) ∧
    (HostOpen s p 0 → aligned → pfPlace p (s.fld .HT_BAY_WINDOW_BAY p) off = .space x → s.spaceDown x = true → ur read) ∧
    (HostOpen s p n → 0 < n → ¬ bound → ur (.rcRead (.vf p n) off size)) ∧ Ignored (.rcRead (.vf p 0) off size) s ∧
    ((s.port p).linkUp = false → Ignored read s) ∧
    ((s.port p).linkUp = true → s.visible p 0 = false ∨ s.inFlr p 0 = true ∨ s.fld .HT_PM_STATUS_DSTATE p = 3 → ur read) ∧
    ((s.port p).linkUp = true → s.visible p 0 = true → s.inFlr p 0 = false → s.fld .HT_PM_STATUS_DSTATE p ≠ 3 → s.fld .HT_HOLD_STATUS_HOLD p ≠ 0 → off < 0x4000 ∨ 0x5000 ≤ off →
      Completes read s (fun t => t.out = [.ioReply p 1 0 false] ∧ t.fld .HT_HOLD_COUNT_NP_UR p = satAdd 32 (s.fld .HT_HOLD_COUNT_NP_UR p) 1 ∧ t.mem = s.mem)) ∧
    (HostOpen s p 0 → 0 < size → size ≤ 64 → off + size ≤ 0x100000 → data (.rcRead (.table p) off size) (leNat ((s.module.rigTable.drop off).take size))) ∧
    (HostOpen s p 0 → size = 0 ∨ 64 < size ∨ 0x100000 < off + size → ur (.rcRead (.table p) off size)) ∧
    ((s.core c).rig = true → aligned → s.spaceDown off = true → Sends rig s (.status 2)) ∧ ((s.core c).rig = false ∨ ¬ aligned → Ignored rig s) ∧
    ((s.core c).rig = true → off % 8 = 0 → Named s off r i → r ∉ [.CL_EVT_CTL, .CL_EVT_STATUS, .CL_EVT_POP, .CL_PLOG_SEL] →
      gives (.rcRead (.rig c) off 8) (.regData (s.readReg 8 r i)) i 0 64) ∧
    (s.cleatUp = true → s.module.railsOn = true → off % 8 = 0 → 0x6000000 ≤ off → off < 0x10000000 → regAt off = some (r, i) →
      gives (.rcRead .cleat off 8) (.regData (s.readReg 8 r i)) i 0 64) ∧
    (s.cleatUp = false ∨ off < 0x6000000 ∨ 0x10000000 ≤ off → Ignored (.rcRead .cleat off size) s)

/-- Register writes (R17, R66, R119, R122, R139, R142, R206, R239, R294, R783, Table 0.3): an RW field takes its value unless the value is reserved, a one clears a W1C field; a write outside
the register's scope is denied; a register that commands an engine is that command; the Net's registers are Cleat's; RIG-level code may not write scoped registers. -/
def RegisterWritesPart : Prop :=
  ∀ (s : State) (p n off size x i v c : Nat) (r : Reg),
    let inst := if r = .CL_EVT_CTL ∨ r = .CL_PLOG_SEL then p else i
    let write := Instr.registerWrite (.pf p) off 8 (v % 2 ^ 64)
    let val := fun (f : Fld) (j : Nat) => v / 2 ^ (f.desc.lo + f.desc.stride * j) % 2 ^ f.desc.w
    let get := fun (f : Fld) => v / 2 ^ f.desc.lo % 2 ^ f.desc.w
    let on := fun (f : Fld) => decide (get f = 1)
    let pf := HostOpen s p 0 ∧ off % 8 = 0 ∧ pfPlace p (s.fld .HT_BAY_WINDOW_BAY p) off = .space x ∧ Named s x r i
    let takes := Completes write s (fun t => t = { s with regs := t.regs, out := [], outputs := t.outputs } ∧
      (∀ f ∈ r.fields, f.desc.acc = .rw → ∀ j, j < f.desc.reps → t.fld f (f.desc.reps * inst + j) =
        if reservedCode s f (f.desc.reps * inst + j) (val f j) = true then s.fld f (f.desc.reps * inst + j) else val f j) ∧
      ∀ f j, f ∉ r.fields ∨ f.desc.acc ≠ .rw ∨ j / f.desc.reps ≠ inst → t.fld f j = s.fld f j)
    let own := r ∈ [.HT_BAY_WINDOW, .HT_ERR_MASK, .HT_ERR_SEVERITY, .CL_EVT_CTL, .CL_PLOG_SEL]
    let wafer := r ∈ [.SP_SCRUB_CTL, .CP_PARK, .BA_CTL, .BD_ROUTE]
    let coil := r ∈ [.CP_COIL_LIMIT, .CP_COIL_SKDIR]
    let is := fun (r' : Reg) (i : Instr) => r = r' → exec write s = exec i s
    let bad := (size ≠ 4 ∧ size ≠ 8) ∨ off % size ≠ 0
    let vfCoil := s.fld .HT_VF_BIND_COIL (32 * p + (n - 1))
    let rigOk := (s.core c).rig = true ∧ off % 8 = 0 ∧ Named s off r i
    (pf → own ∨ (wafer ∧ Control s p) ∨ (coil ∧ Home s p i) → takes) ∧
    (pf → wafer → s.module.railsOn = true → p ≠ s.module.controlPort → Denied write s ⟨.hostPort, p⟩ x) ∧
    (pf → coil → i < 32 → s.module.railsOn = true → s.homeOf i ≠ some p → Denied write s ⟨.hostPort, p⟩ x) ∧
    (pf → r = .HT_ERR_CE_COUNT ∨ r = .HT_OUTSTANDING ∨ r = .HT_ID ∨ r = .CL_EVT_STATUS ∨ r = .CL_EVT_ENTRY → Ignored write s) ∧
    (pf →
      is .SP_VAULT_OWNER (if on .SP_VAULT_OWNER_VALID then .vaultAssign p i (get .SP_VAULT_OWNER_COIL) else .vaultRelease p i) ∧
      is .CP_PLY_OWNER (if on .CP_PLY_OWNER_VALID then .plyAssign p i (get .CP_PLY_OWNER_COIL) else .plyRelease p i) ∧
      is .SP_RSV (.reservationWrite p i (get .SP_RSV_GBPS)) ∧ is .CP_COIL_POWER (.shareWrite p i (get .CP_COIL_POWER_SHARE_W)) ∧
      (on .SP_KEY_CTL_GENERATE = true → on .SP_KEY_CTL_CLEAR = false → is .SP_KEY_CTL (.keyGenerate p i)) ∧
      (on .SP_KEY_CTL_GENERATE = false → on .SP_KEY_CTL_CLEAR = true → is .SP_KEY_CTL (.keyClear p i)) ∧
      is .DT_CTX_ROOT (.ctxTableWrite p i true (get .DT_CTX_ROOT_ROOT) 0) ∧
      (get .DT_INV_CMD_KIND = 1 → is .DT_INV_CMD (.invRange p i (get .DT_INV_CMD_BASE) (get .DT_INV_CMD_COUNT))) ∧ (get .DT_INV_CMD_KIND = 2 → is .DT_INV_CMD (.invAll p i)) ∧
      (get .PC_SCRATCH_WAYS ≤ 8 → is .PC_SCRATCH (.carve p i (get .PC_SCRATCH_WAYS))) ∧
      (get .PC_MAINT_OP = 1 → is .PC_MAINT (.cleanWay p i (get .PC_MAINT_WAY) (get .PC_MAINT_SET))) ∧
      (get .PC_MAINT_OP = 2 → is .PC_MAINT (.invWay p i (get .PC_MAINT_WAY) (get .PC_MAINT_SET))) ∧
      (get .PC_MAINT_OP = 3 → is .PC_MAINT (.cleanInvWay p i (get .PC_MAINT_WAY) (get .PC_MAINT_SET))) ∧ (get .PC_MAINT_OP = 4 → is .PC_MAINT (.cleanInvAll p i)) ∧
      is .TK_CH_TAIL (.tailWrite p i (get .TK_CH_TAIL_TAIL)) ∧ is .CP_CANCEL (.cancel p i (get .CP_CANCEL_TASK_ID)) ∧
      (get .CP_KNOT_CMD_OP = 0 → is .CP_KNOT_CMD (.knotRead p i (get .CP_KNOT_CMD_KNOT))) ∧
      (get .CP_KNOT_CMD_OP = 1 → is .CP_KNOT_CMD (.knotArm p i (get .CP_KNOT_CMD_KNOT) (get .CP_KNOT_CMD_COUNT))) ∧
      (get .CP_KNOT_CMD_OP = 2 → is .CP_KNOT_CMD (.knotDec p i (get .CP_KNOT_CMD_KNOT) (get .CP_KNOT_CMD_COUNT))) ∧
      (get .CP_KNOT_CMD_OP = 3 → is .CP_KNOT_CMD (.knotReset p i (get .CP_KNOT_CMD_KNOT))) ∧
      (get .CP_KNOT_CMD_OP = 4 → is .CP_KNOT_CMD (.knotMarkedDec p i (get .CP_KNOT_CMD_KNOT) (get .CP_KNOT_CMD_COUNT))) ∧
      (v % 8 = 1 → is .CP_COIL_RUN (.quiesce p i)) ∧ (v % 8 = 2 → is .CP_COIL_RUN (.resume p i)) ∧ (v % 8 = 4 → is .CP_COIL_RUN (.reset p i)) ∧
      (on .BD_RETRAIN_GO = true → is .BD_RETRAIN (.retrain p i)) ∧ (on .CL_EVT_POP_GO = true → is .CL_EVT_POP (.eventPop p)) ∧
      is .HT_IDE_CTL (.ideRequire p (on .HT_IDE_CTL_REQUIRE_IO) (on .HT_IDE_CTL_REQUIRE_CXL)) ∧
      is .HT_HOLD_RELEASE (.holdRelease p (get .HT_HOLD_RELEASE_KEY) (on .HT_HOLD_RELEASE_GO)) ∧
      (on .HT_BIAS_FLIP_GO = true → is .HT_BIAS_FLIP (.biasFlip p (get .HT_BIAS_FLIP_FATHOM) (on .HT_BIAS_FLIP_TO_DEVICE))) ∧
      (p = i / 16384 → is .SP_HDM_MAP (.hdmMapWrite p (i % 16384) (get .SP_HDM_MAP_FATHOM) (get .SP_HDM_MAP_COIL) (on .SP_HDM_MAP_VALID)))) ∧
    (HostOpen s p 0 → bad → Ignored (.registerWrite (.pf p) off size v) s) ∧ Ignored (.registerWrite (.vf p 0) off size v) s ∧
    ((s.port p).linkUp = false ∨ s.visible p 0 = false → Ignored write s) ∧
    (HostOpen s p n → 0 < n → s.fld .HT_VF_BIND_VALID (32 * p + (n - 1)) ≠ 0 → vfPlace vfCoil off = .space x → Named s x r i → off % 8 = 0 →
      off ∉ [0x0, 0x10, 0x18, 0x20, 0x28, 0x30, 0x58] → off < 0x1000 ∨ 0x3000 ≤ off → Denied (.registerWrite (.vf p n) off 8 v) s ⟨.hostPort, p⟩ x) ∧
    (rigOk → off < 0x2000000 ∨ 0x3000000 ≤ off ∧ off < 0x6000000 ∨ 0x10000000 ≤ off → Denied (.registerWrite (.rig c) off 8 v) s ⟨.core, c⟩ off) ∧
    (rigOk → 0x6000000 ≤ off → off < 0x10000000 → Ignored (.registerWrite (.rig c) off 8 v) s) ∧ ((s.core c).rig = false → Ignored (.registerWrite (.rig c) off size v) s) ∧
    (s.cleatUp = true → s.module.railsOn = true → off % 8 = 0 → regAt off = some (.NT_CTL, i) → Sets (.registerWrite .cleat off 8 v) s
      [(.NT_CTL_BANK, i, get .NT_CTL_BANK), (.NT_CTL_PAUSE, i, get .NT_CTL_PAUSE), (.NT_CTL_ESC_WAIT, i, get .NT_CTL_ESC_WAIT)]) ∧
    (s.cleatUp = false ∨ off < 0x6000000 ∨ 0x10000000 ≤ off → Ignored (.registerWrite .cleat off size v) s)

/-- Reserved offsets (R777): in a unit that is up, a read of a reserved offset gives zero and a write of it does nothing at all, from the physical function, from a virtual function and at
RIG level; a write is not logged. -/
def Obligations.ReservedOffsets : Prop :=
  ∀ (s : State) (p n c off size x v : Nat), p < 8 → (size = 4 ∨ size = 8) → off % size = 0 →
    let zero := fun (a : Agent) => Sends (.rcRead a off size) s (.ioReply p 0 0 false) ∧ Ignored (.registerWrite a off size v) s
    let reserved := fun (x : Nat) => regAt x = none ∧ (x < 0x100000 ∨ 0x200000 ≤ x) ∧ s.spaceDown x = false
    let bound := 0 < n ∧ s.fld .HT_VF_BIND_VALID (32 * p + (n - 1)) ≠ 0
    let coil := s.fld .HT_VF_BIND_COIL (32 * p + (n - 1))
    (HostOpen s p 0 → pfPlace p (s.fld .HT_BAY_WINDOW_BAY p) off = .space x → reserved x → zero (.pf p)) ∧
    (HostOpen s p 0 → pfPlace p (s.fld .HT_BAY_WINDOW_BAY p) off = .void → zero (.pf p)) ∧
    (HostOpen s p n → bound → vfPlace coil off = .space x → reserved x → zero (.vf p n)) ∧ (HostOpen s p n → bound → vfPlace coil off = .void → zero (.vf p n)) ∧
    ((s.core c).rig = true → reserved off → (off < 0x1000000 → s.cleatCut = false) → Sends (.rcRead (.rig c) off size) s (.regData 0) ∧ Ignored (.registerWrite (.rig c) off size v) s)
/-- An event of a code is logged: an entry of the ring has it, where no running period absorbs it and the second's room is not used up. -/
def Logs (code : Nat) (s t : State) : Prop :=
  s.cleatUp = true → s.log.coalescing = [] → s.log.second ≠ s.clockUs / 1000000 → ∃ e ∈ t.log.ring, e.ev.code = code

/-- A Bend port that holds no request and no packet of its wafer. -/
def Unused (x : BendPort) : Prop := x.waiting = [] ∧ x.tags = [] ∧ x.outq = [] ∧ x.blocks = []

/-- The credit fields of the next flit fit into its header. -/
def HeaderOk (x : BendPort) : Prop := x.crVc < 6 ∧ ∀ v, SMap.get 0 x.freed v < 2 ^ 16

/-- A flit of a type with a good CRC has left port `b`; `m` is the low half of its first payload words. -/
def FlitSent (b ty m : Nat) (t : State) : Prop :=
  ∃ f, Out.flit b f ∈ t.out ∧ bits f.toNat 3 0 = ty ∧ bits f.toNat 319 64 = m ∧ flitCrc f.toNat = bits f.toNat 2047 1984

/-- A failure of the link of port `b`: the Bend port reset discards what the port holds and keeps its windows, entries and routes; the port trains again if it may. -/
def LinkFailed (b : Nat) (s t : State) : Prop :=
  t.fld .BD_STATUS_STATE b = (if s.mayTrain b = true then 1 else 0) ∧ (t.bend b).replay = [] ∧ Unused (t.bend b) ∧ (t.bend b).lost = (s.bend b).lost ∧ t.mem = s.mem ∧
    (∀ i, t.fld .BD_WIN_OPEN i = s.fld .BD_WIN_OPEN i ∧ t.fld .BD_SPLICE_A_VALID i = s.fld .BD_SPLICE_A_VALID i ∧ t.fld .BD_ROUTE_VALID i = s.fld .BD_ROUTE_VALID i) ∧ Logs 0x0902 s t

/-- Bend links (R662 to R667, R672, R677, R699, R702, Tables 20.2 and 20.4): enabling needs the wafer's one identity; training goes step by step, may fail, and chooses the widest
width; INIT and INIT_ACK make the link active; Recovery returns to it or fails; a link failure resets the port and keeps its configuration. It rests on the model's choices of log entries 6, 75. -/
def Obligations.BendLinks : Prop :=
  ∀ (s : State) (p b q wafer system port lanes : Nat) (ok : Bool) (o : TrainObs) (credits : List Nat), b < 6 → Unused (s.bend b) →
    let x := s.bend b
    let st := s.fld .BD_STATUS_STATE b
    let clash := ∃ e, e < 6 ∧ e ≠ b ∧ s.fld .BD_CTL_ENABLE e ≠ 0 ∧ (s.fld .BD_CTL_WAFER_ID e ≠ s.fld .BD_CTL_WAFER_ID b ∨ s.fld .BD_CTL_SYSTEM_ID e ≠ s.fld .BD_CTL_SYSTEM_ID b)
    let trains := s.ready = true ∧ x.present = true ∧ s.fld .BD_CTL_LOOPBACK b = 0 ∧ s.fences.routers.contains x.bay = false
    let enabled := s.fld .BD_CTL_ENABLE b ≠ 0
    let recent := x.recoveries.filter (fun t => decide (s.clockUs < t + 1000000))
    let ends := fun (P : State → Prop) => Completes (.trainingStepEnd b o) s P
    let fails := fun (t : State) => (t.bend b).step = 0 ∧ (t.bend b).fails = x.fails + 1 ∧ t.fld .BD_STATUS_STATE b = (if x.fails + 1 < 3 then 1 else 5) ∧ t.mem = s.mem ∧
      (3 ≤ x.fails + 1 → x.failLogged = false → Logs 0x0903 s t)
    let runs := st = 1 ∨ st = 2
    let stepIs := fun (n : Nat) (t : State) => t = { s with bends := t.bends, out := [], outputs := t.outputs } ∧ t.bend b = { x with step := n }
    let map := s.fld .BD_STATUS_LANES b
    let max := s.fld .BD_CTL_MAX_WIDTH b
    let full := fun (m q : Nat) => m / 2 ^ (8 * q) % 256 = 255
    let all := full map 0 ∧ full map 1 ∧ full map 2 ∧ full map 3
    let low := full map 0 ∧ full map 1
    let high := full map 2 ∧ full map 3
    let width := fun (w c : Nat) => ends (fun t => t.fld .BD_STATUS_WIDTH b = w ∧ t.fld .BD_STATUS_CAGES b = c ∧ (t.bend b).step = 4 ∧ t.mem = s.mem ∧
      (w < (if max = 0 then 3 else if max = 1 then 2 else 1) → Logs 0x0905 s t))
    let modules := ∀ q, q < 4 → SMap.get 0 s.cleat.osfp (4 * b + q) ≠ 3
    let init := Instr.init b wafer system port credits
    let matched := system = s.fld .BD_CTL_SYSTEM_ID b ∧ wafer ≠ s.fld .BD_CTL_WAFER_ID b ∧ x.seen = some (system, wafer, port)
    let active := fun (t : State) => t.fld .BD_STATUS_STATE b = 3 ∧ (t.bend b).step = 0 ∧ (t.bend b).fails = 0 ∧ Logs 0x0901 s t
    (Control s p →
      (enabled → Sets (.bendEnable p b) s [(.BD_CTL_STATUS, b, 0)]) ∧ (¬ enabled → clash → Sets (.bendEnable p b) s [(.BD_CTL_STATUS, b, 2)]) ∧
      (¬ enabled → ¬ clash → Completes (.bendEnable p b) s (fun t => t.fld .BD_CTL_ENABLE b = 1 ∧ t.fld .BD_CTL_STATUS b = 0 ∧ t.mem = s.mem ∧
        (trains → t.fld .BD_STATUS_STATE b = 1 ∧ (t.bend b).step = 1) ∧ (¬ trains → t.fld .BD_STATUS_STATE b = 0))) ∧
      (¬ enabled → Sets (.bendDisable p b) s [(.BD_CTL_STATUS, b, 0)]) ∧
      (enabled → Completes (.bendDisable p b) s (fun t => t.fld .BD_CTL_ENABLE b = 0 ∧ t.fld .BD_STATUS_STATE b = 0 ∧ Unused (t.bend b) ∧ t.mem = s.mem ∧
        (HeaderOk x → st = 2 ∨ st = 3 → FlitSent b 2 4 t))) ∧
      (st ≠ 3 → Ignored (.retrain p b) s) ∧
      (st = 3 → recent.length < 2 → Completes (.retrain p b) s (fun t => t.fld .BD_STATUS_STATE b = 4 ∧ t.fld .BD_ERR_RECOVERIES b = satAdd 8 (s.fld .BD_ERR_RECOVERIES b) 1 ∧
        t.bend b = { x with recoveries := recent ++ [s.clockUs], replayRun := 0 } ∧ t.mem = s.mem)) ∧
      (st = 3 → 2 ≤ recent.length → Completes (.retrain p b) s (LinkFailed b s))) ∧
    (x.step = 0 ∨ ¬ runs → Ignored (.trainingStepEnd b o) s) ∧
    (0 < x.step → runs → o.ok = false → ends fails) ∧
    (runs → o.ok = true →
      (x.step = 1 → ends (stepIs 2)) ∧ (x.step = 4 → ends (stepIs 5)) ∧
      (x.step = 2 → o.peerSystem ≠ s.fld .BD_CTL_SYSTEM_ID b ∨ o.peerWafer = s.fld .BD_CTL_WAFER_ID b ∨ o.mismatch = true → ends (fun t => fails t ∧ Logs 0x0904 s t)) ∧
      (x.step = 2 → o.peerSystem = s.fld .BD_CTL_SYSTEM_ID b → o.peerWafer ≠ s.fld .BD_CTL_WAFER_ID b → o.mismatch = false → ends (fun t =>
        t.bend b = { x with step := 3, seen := some (o.peerSystem, o.peerWafer, o.peerPort) } ∧ (modules → t.fld .BD_STATUS_LANES b = o.lanes % 2 ^ 32) ∧ t.mem = s.mem)) ∧
      (x.step = 3 → (max = 0 → all → width 3 15) ∧ (max ≤ 1 → low → ¬ (max = 0 ∧ all) → width 2 3) ∧ (max ≤ 1 → high → ¬ low → width 2 12) ∧
        (q < 4 → full map q → (∀ j, j < q → ¬ full map j) → (2 ≤ max ∨ ¬ low ∧ ¬ high) → width 1 (2 ^ q)) ∧ ((∀ q, q < 4 → ¬ full map q) → ends fails)) ∧
      (x.step = 5 → ends (fun t => (t.bend b).step = 6 ∧ t.fld .BD_STATUS_STATE b = 2 ∧ t.mem = s.mem ∧
        (HeaderOk x → FlitSent b 2 (initPayload (s.fld .BD_CTL_WAFER_ID b) (s.fld .BD_CTL_SYSTEM_ID b) b % 2 ^ 256) t)))) ∧
    (x.step = 0 → st = 1 ∨ st = 5 → s.mayTrain b = true → Completes (.trainingRetry b) s (fun t => t.fld .BD_STATUS_STATE b = 1 ∧ (t.bend b).step = 1 ∧ t.mem = s.mem)) ∧
    (x.step ≠ 0 ∨ (st ≠ 1 ∧ st ≠ 5) → Ignored (.trainingRetry b) s) ∧
    (st = 2 → matched → Completes init s (fun t => t.fld .BD_STATUS_PEER_WAFER b = wafer % 64 ∧ t.fld .BD_STATUS_PEER_PORT b = port % 8 ∧ t.mem = s.mem ∧
      (∀ v, v < 6 → SMap.get 0 (t.bend b).peerInit v = credits.getD v 0 % 65536) ∧ (HeaderOk x → FlitSent b 2 3 t) ∧ (x.gotAck = true → active t) ∧
      (x.gotAck = false → t.fld .BD_STATUS_STATE b = 2 ∧ (t.bend b).gotInit = true))) ∧
    (st = 2 → ¬ matched → Completes init s (fun t => fails t ∧ Logs 0x0904 s t)) ∧
    (st = 3 → HeaderOk x → Completes init s (fun t => FlitSent b 2 3 t ∧ t.regs = s.regs ∧ t.mem = s.mem)) ∧ (st ≠ 2 → st ≠ 3 → Ignored init s) ∧
    (st = 2 → x.gotInit = true → Completes (.initAck b) s active) ∧
    (st = 2 → x.gotInit = false → Completes (.initAck b) s (fun t => t.bend b = { x with gotAck := true } ∧ t = { s with bends := t.bends, out := [], outputs := t.outputs })) ∧
    (st ≠ 2 → Ignored (.initAck b) s) ∧
    (st = 2 → x.gotAck = false → HeaderOk x → Completes (.initResend b) s (fun t => t.regs = s.regs ∧ t.mem = s.mem ∧
      FlitSent b 2 (initPayload (s.fld .BD_CTL_WAFER_ID b) (s.fld .BD_CTL_SYSTEM_ID b) b % 2 ^ 256) t)) ∧
    (st ≠ 2 ∨ x.gotAck = true → Ignored (.initResend b) s) ∧
    (st ≠ 0 → st ≠ 5 → Completes (.down b) s (LinkFailed b s)) ∧ (st = 0 ∨ st = 5 → Ignored (.down b) s) ∧
    (st = 2 ∨ st = 3 ∨ st = 4 → Completes (.lossOfSignal b) s (LinkFailed b s)) ∧ (¬ (st = 2 ∨ st = 3 ∨ st = 4) → Ignored (.lossOfSignal b) s) ∧
    (st ≠ 3 → st ≠ 4 → Ignored (.recoveryEnd b ok lanes) s) ∧ (st = 4 → Completes (.recoveryEnd b false lanes) s (LinkFailed b s)) ∧
    (st = 4 → max = 0 → s.fld .BD_STATUS_WIDTH b = 3 → modules → x.replay = [] → full lanes 0 → full lanes 1 →
      (full lanes 2 → full lanes 3 → Completes (.recoveryEnd b true lanes) s (fun t => t.fld .BD_STATUS_STATE b = 3 ∧ t.fld .BD_STATUS_WIDTH b = 3 ∧ t.bends = s.bends ∧
        Logs 0x0906 s t)) ∧
      (¬ full lanes 2 → Completes (.recoveryEnd b true lanes) s (fun t => t.fld .BD_STATUS_STATE b = 3 ∧ t.fld .BD_STATUS_WIDTH b = 2 ∧ t.fld .BD_STATUS_CAGES b = 3 ∧
        t.bends = s.bends ∧ Logs 0x0906 s t ∧ Logs 0x0905 s t)))

/-- Flits (R669 to R671, R674 to R676, R698, Tables 20.3 and 20.6): a bad flit is discarded and answered with a NAK; a good one is taken as its header says: its ACK frees flits, its credit
count is kept, its cells in SEQ order become packets, a flit accepted before is dropped, a reserved field is a protocol error; NAK and the timer replay what is not acknowledged. It rests on the model's choices of log entries 6, 74, 76. -/
def Obligations.BendFlits : Prop :=
  ∀ (s : State) (b corrected seq m q : Nat) (f : BitVec 2048) (uncorr : Bool) (pre post : List (Nat × Nat)) (p : BPkt), b < 6 → Unused (s.bend b) →
    let x := s.bend b
    let st := s.fld .BD_STATUS_STATE b
    let v := f.toNat
    let carries := st = 2 ∨ st = 3
    let takes := fun (P : State → Prop) => Completes (.flitReceived b f corrected false) s (fun t => P t ∧ t.fld .BD_FEC_CE_SYMBOLS b = (s.fld .BD_FEC_CE_SYMBOLS b + corrected) % 2 ^ 64)
    let answers := fun (t : State) => (t.bend b).rxSeq = x.rxSeq ∧ (t.bend b).arrived = x.arrived ∧ t.mem = s.mem ∧
      (x.nakSent = false → HeaderOk x → FlitSent b 2 ((1 + x.rxSeq * 2 ^ 8) % 2 ^ 256) t) ∧ (x.nakSent = true → s.clockUs < x.nakAt + 4 → t.out = [])
    let whole := flitCrc v = bits v 2047 1984
    let ty := bits v 3 0
    let sq := bits v 15 4
    let vc := bits v 31 29
    let reserved := 2 < ty ∨ bits v 63 48 ≠ 0 ∨ 6 ≤ vc ∨ ty ≠ 1 ∧ sq ≠ 0
    let silent := fun (t : State) => t.out = [] ∧ t.mem = s.mem ∧ SMap.get 0 (t.bend b).peerFreed vc = bits v 47 32
    let data := ty = 1 ∧ v.testBit 28 = false
    let behind := (x.rxSeq + 4096 - sq) % 4096
    let rest := x.replay.dropWhile (fun e => e.1 ≠ seq)
    let run := if rest.length = x.replay.length then x.replayRun else 0
    let recent := x.recoveries.filter (fun t => decide (s.clockUs < t + 1000000))
    let again := fun (l : List (Nat × Nat)) (n : Nat) (t : State) => (t.bend b).replay = l ∧ (t.bend b).replayRun = n + 1 ∧ t.out.length = l.length ∧
      t.fld .BD_ERR_REPLAYS b = satAdd 16 (s.fld .BD_ERR_REPLAYS b) 1 ∧ t.mem = s.mem ∧ (HeaderOk x → ∀ e ∈ l, e.1 < 4096 →
        ∃ f, Out.flit b f ∈ t.out ∧ bits f.toNat 3 0 = 1 ∧ bits f.toNat 15 4 = e.1 ∧ bits f.toNat 1983 64 = e.2 % 2 ^ 1920)
    let recovers := fun (t : State) => t.fld .BD_STATUS_STATE b = 4 ∧ t.fld .BD_ERR_RECOVERIES b = satAdd 8 (s.fld .BD_ERR_RECOVERIES b) 1 ∧ t.out = [] ∧ t.mem = s.mem
    (¬ carries → Ignored (.flitReceived b f corrected uncorr) s) ∧
    (carries →
      Completes (.flitReceived b f corrected true) s (fun t => answers t ∧ t.fld .BD_ERR_FEC_UNCORR b = satAdd 16 (s.fld .BD_ERR_FEC_UNCORR b) 1) ∧
      (¬ whole → takes (fun t => answers t ∧ t.fld .BD_ERR_CRC_FAIL b = satAdd 16 (s.fld .BD_ERR_CRC_FAIL b) 1)) ∧
      (whole → reserved → Completes (.flitReceived b f corrected false) s (fun t => LinkFailed b s t ∧ Logs 0x0907 s t)) ∧
      (whole → ¬ reserved →
        (ty = 0 → v.testBit 28 = false → takes (fun t => silent t ∧ (t.bend b).replay = x.replay ∧ (t.bend b).rxSeq = x.rxSeq ∧ (t.bend b).arrived = x.arrived)) ∧
        (ty = 0 → v.testBit 28 = true → x.replay = pre ++ (bits v 27 16, m) :: post → (∀ e ∈ pre, e.1 ≠ bits v 27 16) → takes (fun t => silent t ∧
          (t.bend b).replay = post ∧ (t.bend b).replayRun = 0)) ∧
        (data → sq = x.rxSeq → x.rxCells = [] → bits v 71 64 = 0 → x.ackDue < 15 → takes (fun t => silent t ∧ (t.bend b).rxSeq = (sq + 1) % 4096 ∧ (t.bend b).nakSent = false ∧
          (t.bend b).arrived = x.arrived)) ∧
        (data → sq ≠ x.rxSeq → behind ≤ 2048 → takes (fun t => silent t ∧ (t.bend b).rxSeq = x.rxSeq ∧ (t.bend b).arrived = x.arrived)) ∧
        (data → sq ≠ x.rxSeq → 2048 < behind → takes answers) ∧
        (data → sq = x.rxSeq → x.rxCells = [] → pktOf (bits v 191 64) = some p → p.cells = 1 → bits v 199 192 = 0 → p.dst = s.fld .BD_CTL_WAFER_ID b →
          q = (if 8 ≤ p.opc then p.retPort else p.dstPort) → (s.bend q).present = true → s.fences.routers.contains (s.bend q).bay = false →
          (SMap.get 0 x.recv p.vc + 1 + 65536 - SMap.get 0 x.freed p.vc) % 65536 ≤ vcCells p.vc →
          takes (fun t => (t.bend q).arrived = (s.bend q).arrived ++ [{ p with data := 0, arr := some (b, p.vc) }] ∧ (t.bend b).rxSeq = (sq + 1) % 4096 ∧ t.mem = s.mem)))) ∧
    (st ≠ 3 ∨ (∀ e ∈ x.replay, e.1 ≠ seq) → Ignored (.nak b seq) s) ∧
    (st = 3 → (∃ e ∈ x.replay, e.1 = seq) → (run < 8 → Completes (.nak b seq) s (again rest run)) ∧ (8 ≤ run → recent.length < 2 → Completes (.nak b seq) s recovers)) ∧
    (st ≠ 3 ∨ x.replay = [] → Ignored (.replayTimeout b) s) ∧
    (st = 3 → x.replay ≠ [] → (x.replayRun < 8 → Completes (.replayTimeout b) s (again x.replay x.replayRun)) ∧
      (8 ≤ x.replayRun → recent.length < 2 → Completes (.replayTimeout b) s recovers)) ∧
    (st ≠ 3 → Ignored (.ackTimer b) s) ∧
    (st = 3 → HeaderOk x → Completes (.ackTimer b) s (fun t => FlitSent b 0 0 t ∧ t.regs = s.regs ∧ t.mem = s.mem ∧
      t.bend b = { x with crVc := (x.crVc + 1) % 6, ackDue := 0 } ∧ ∃ f, t.out = [.flit b f] ∧ f.toNat.testBit 28 = x.rxAny ∧
        bits f.toNat 31 29 = x.crVc ∧ bits f.toNat 47 32 = SMap.get 0 x.freed x.crVc ∧ (x.rxAny = true → bits f.toNat 27 16 = (x.rxSeq + 4095) % 4096)))
/-- The response to request `p` of port `b`: it leaves its buffer; the response copies its tag with source and destination exchanged and leaves through BD_ROUTE of the port where the
request arrived: at once as a flit of an active port with room, later from the queue of a port in Recovery; without a route it is discarded. -/
def Answered (b : Nat) (p : BPkt) (st len data : Nat) (s t : State) : Prop :=
  let a := (p.arr.map (·.1)).getD b
  let e := s.fld .BD_ROUTE_PORT (64 * a + p.src)
  let r : BPkt := { opc := answerOf p.opc, dst := p.src, src := p.dst, retPort := p.retPort, tag := p.tag, hops := 15, status := st, len := len, data := data }
  let routed := s.fld .BD_ROUTE_VALID (64 * a + p.src) ≠ 0 ∧ e < 6 ∧ s.fences.routers.contains (s.bend e).bay = false ∧ s.fld .BD_CTL_DATELINE e = 0 ∧ (s.bend e).waiting = []
  (t.bend b).arrived = (s.bend b).arrived.erase p ∧
  (routed → s.fld .BD_STATUS_STATE e = 4 → (t.bend e).outq = (s.bend e).outq ++ [r]) ∧
  (routed → s.fld .BD_STATUS_STATE e = 3 → (s.bend e).outq = [] → (s.bend e).fits r = true → HeaderOk (s.bend e) →
    ∃ f, Out.flit e f ∈ t.out ∧ bits f.toNat 3 0 = 1 ∧ bits f.toNat 191 64 = (r.word0 + r.word1 * 2 ^ 64) % 2 ^ 128) ∧
  (s.fld .BD_ROUTE_VALID (64 * a + p.src) = 0 → ∀ j, (t.bend j).outq = (s.bend j).outq)

/-- Remote requests (R684, R688, R689, R694): a request that its entry does not allow is refused, logged and performs nothing; a read returns the bytes, a write is accepted and pending until
it is performed, an atomic is performed at the home, a fence is answered when the entry has nothing pending. A request whose line is busy waits. -/
def RemoteRequestsPart : Prop :=
  ∀ (s : State) (b v : Nat) (p : BPkt) (x : BPiece) (l : List BPiece) (w : PendWrite),
    let find := fun (opc : Nat) => (s.bend b).arrived.find? (fun z => z.opc = opc)
    let i := 256 * b + p.entry
    let coil := s.fld .BD_SPLICE_A_COIL i
    let stranger := s.fld .BD_SPLICE_A_VALID i = 0 ∨ s.fld .BD_SPLICE_A_BUSY i ≠ 0 ∨ s.fld .BD_SPLICE_A_SRC_WAFER i ≠ p.src ∨ s.fld .BD_SPLICE_A_SRC_COIL i ≠ p.coil
    let beyond := fun (n : Nat) => s.fld .BD_SPLICE_A_KIND i ≠ 0 ∨ spFathoms (s.fld .BD_SPLICE_B_WORD i) * 2 ^ 24 < p.off + n
    let refused := fun (i : Instr) => Completes i s (fun t => Answered b p 2 0 0 s t ∧ Logs 0x090A s t ∧ t.mem = s.mem ∧ (t.bend b).pend = (s.bend b).pend)
    let good := fun (x : BPiece) => s.quietLine (x.wpa / 64) = true ∧ PlainLine s (x.wpa / 64) v ∧ s.vaultCheck v (some coil) x.shared = spOk ∧ s.fld .SP_VAULT_STATUS_UE_LINES v < 64 ∧
      x.wpa % 64 + x.n ≤ 64
    let n := 2 ^ p.asz
    let old := s.load x.wpa n
    let new := amoValue (p.atop + 0x10) n old (p.data % 2 ^ 64 % 2 ^ (8 * n)) (p.data / 2 ^ 64 % 2 ^ 64 % 2 ^ (8 * n))
    (find 1 = none → Ignored (.rd b {}) s) ∧ (find 2 = none → Ignored (.wr b) s) ∧ (find 3 = none → Ignored (.bendAtom b) s) ∧ (find 4 = none → Ignored (.wfence b) s) ∧
    (find 1 = some p →
      (stranger ∨ beyond p.len ∨ s.fld .BD_SPLICE_A_R i = 0 → refused (.rd b {})) ∧
      (s.memPieces b p .read p.len 0 = none → refused (.rd b {})) ∧
      (s.memPieces b p .read p.len 0 = some l → s.quietPieces l = false → Ignored (.rd b {}) s) ∧
      (s.memPieces b p .read p.len 0 = some [x] → good x → Completes (.rd b {}) s (fun t => t.mem = s.mem ∧ Answered b p 0 p.len (s.load x.wpa x.n) s t))) ∧
    (find 2 = some p →
      (stranger ∨ beyond p.len ∨ s.fld .BD_SPLICE_A_W i = 0 → refused (.wr b)) ∧ (s.memPieces b p .write p.len p.data = none → refused (.wr b)) ∧
      (s.memPieces b p .write p.len p.data = some l → Completes (.wr b) s (fun t => t.mem = s.mem ∧ Answered b p 0 0 0 s t ∧
        (t.bend b).pend = (s.bend b).pend ++ [{ entry := p.entry, coil := coil, pieces := l }]))) ∧
    (find 3 = some p →
      (stranger ∨ beyond n ∨ s.fld .BD_SPLICE_A_R i = 0 ∨ s.fld .BD_SPLICE_A_W i = 0 → refused (.bendAtom b)) ∧ (p.off % n ≠ 0 → refused (.bendAtom b)) ∧
      (p.asz < 2 → p.atop < 10 → refused (.bendAtom b)) ∧
      (s.memPieces b p .atomic n 0 = some [x] → good x → x.n = n → p.off % n = 0 → 2 ≤ p.asz → p.asz < 4 → p.atop < 10 → Completes (.bendAtom b) s (fun t =>
        Wrote x.wpa n (new % 2 ^ (8 * n)) s t ∧ Answered b p 0 0 old s t))) ∧
    (find 4 = some p →
      (stranger → refused (.wfence b)) ∧
      (¬ stranger → s.fld .BD_SPLICE_A_KIND i < 3 → (∀ z ∈ (s.bend b).pend, z.entry ≠ p.entry) → Completes (.wfence b) s (fun t => t.mem = s.mem ∧ Answered b p 0 0 0 s t)) ∧
      (¬ stranger → s.fld .BD_SPLICE_A_KIND i < 3 → (s.bend b).pend = [w] → w.entry = p.entry → w.pieces = [x] → w.coil = coil → good x → Completes (.wfence b) s (fun t =>
        Wrote x.wpa x.n (x.value % 2 ^ (8 * x.n)) s t ∧ (t.bend b).pend = [] ∧ Answered b p 0 0 0 s t)))

/-- Responses and timeouts (R681, R685, R689): a response completes the request that holds its tag at its port, and any other is discarded; data goes to the register of the load, REFUSED is
a deferred PERM fault; a posted write that fails is kept for the core's next fence on the window; without a response in 100 ms the request is answered as a timeout. -/
def RemoteResponsesPart : Prop :=
  ∀ (s : State) (b c id tag : Nat) (d : Dest) (p : BPkt) (g : BTag) (a : CoreAccess) (pt : Part),
    let x := s.bend b
    let rows := [(Instr.rdData b, 8), (Instr.cmp b, 9), (Instr.atomData b, 10)]
    let bytes := fun (opc : Nat) => leBytes (if opc = 10 then 8 else p.len) p.data
    let quiet := x.waiting = [] ∧ x.outq = [] ∧ g.bad = 0
    let load := g.req.src = .core c id ∧ g.req.op = .read ∧ (s.core c).accesses = [a] ∧ a.id = id ∧ a.op = .load d ∧ a.parts = [pt] ∧ (s.core c).ending = false
    let posted := g.req.src = .cleat ∧ g.req.core = some c
    let fence := g.req.src = .core c id ∧ g.req.op = .fence ∧ (s.core c).accesses = [a] ∧ a.id = id ∧ a.op = .wfence ∧ (s.core c).ending = false
    let lost := fun (z : Nat × Nat × Nat) => z.1 = c ∧ z.2.1 = g.req.window
    let freed := fun (t : State) => (t.bend b).tags = [] ∧ (t.bend b).arrived = x.arrived.erase p ∧ t.mem = s.mem
    (∀ r ∈ rows, (∀ z ∈ x.arrived, z.opc ≠ r.2) → Ignored r.1 s) ∧
    (∀ r ∈ rows, x.arrived.find? (fun z => z.opc = r.2) = some p →
      ((∀ z ∈ x.tags, z.tag ≠ p.tag ∨ z.dst ≠ p.src ∨ answerOf z.opc ≠ r.2) → Completes r.1 s (fun t => (t.bend b).arrived = x.arrived.erase p ∧ (t.bend b).tags = x.tags ∧
        t = { s with bends := t.bends, out := [], outputs := t.outputs })) ∧
      (x.tags = [g] → g.tag = p.tag → g.dst = p.src → answerOf g.opc = r.2 → quiet →
        (load → p.status = 0 → Completes r.1 s (fun t => freed t ∧
          t.core c = { (s.core c).bind d (a.got ++ [(pt.elem, leNat ((bytes r.2).take pt.size))]) with accesses := [] })) ∧
        (load → p.status = 2 ∨ p.status = 5 → Completes r.1 s (fun t => freed t ∧ t.core c = (s.failAccess c a fcPerm Cause.access.code).core c)) ∧
        (load → p.status = 1 ∨ p.status = 4 → Completes r.1 s (fun t => freed t ∧ t.core c = (s.failAccess c a fcFenced 0).core c)) ∧
        (load → p.status = 3 → Completes r.1 s (fun t => freed t ∧ t.core c = (s.failAccess c a fcEcc 0).core c)) ∧
        (posted → p.status = 0 → Completes r.1 s (fun t => freed t ∧ (t.bend b).lost = x.lost ∧ t.cores = s.cores)) ∧
        (posted → p.status ≠ 0 → Completes r.1 s (fun t => freed t ∧ (t.bend b).lost = x.lost ++ [(c, g.req.window, p.status)] ∧ t.cores = s.cores)) ∧
        (fence → p.status = 0 → (∀ z ∈ x.lost, ¬ lost z) → Completes r.1 s (fun t => freed t ∧ (t.core c).accesses = [] ∧ (t.bend b).lost = x.lost)) ∧
        (fence → p.status = 0 → x.lost = [(c, g.req.window, 2)] → Completes r.1 s (fun t => freed t ∧ (t.bend b).lost = [] ∧
          t.core c = (s.failAccess c a fcPerm Cause.access.code).core c)))) ∧
    ((∀ z ∈ x.tags, z.tag ≠ tag) → Ignored (.bendRequestTimeout b tag) s) ∧
    (x.tags = [g] → g.tag = tag → quiet → load → Completes (.bendRequestTimeout b tag) s (fun t => (t.bend b).tags = [] ∧ (t.bend b).dead = x.dead ++ [(tag, s.clockUs + 1000000)] ∧
      t.fld .BD_ERR_TIMEOUTS b = satAdd 8 (s.fld .BD_ERR_TIMEOUTS b) 1 ∧ Logs 0x0909 s t ∧ t.core c = (s.failAccess c a fcFenced 0).core c))

/-- Splice windows and entries (R682, R683, R686, R690): a write that opens one is refused with the status of the first condition that fails; otherwise its fields take their values; a
close stops it at once and BUSY stands until it has drained; a message block that stays incomplete is discarded. It rests on the model's choices of log entries 6, 78, 80. -/
def Obligations.SpliceWindows : Prop :=
  ∀ (s : State) (p b i coil dst dstPort entry kind fathoms block : Nat) (r w : Bool) (m : MsgBlock), b < 6 → i < 256 →
    let k := 256 * b + i
    let x := s.bend b
    let window := Instr.windowOpen p b i coil dst dstPort entry kind fathoms
    let splice := Instr.spliceEntryValid p b i coil kind r w dst entry
    let legal := dst < 64 ∧ dstPort < 6 ∧ entry < 256 ∧ kind < 2 ∧ fathoms < 2 ^ 17
    let opened := s.fld .BD_WIN_OPEN k ≠ 0
    let valid := s.fld .BD_SPLICE_A_VALID k ≠ 0
    let st := s.fld .CP_COIL_ADMIN_STATE coil
    let own := dst = s.fld .BD_CTL_WAFER_ID b
    let notice := fun (n : Nat) => Sets window s [(.BD_WIN_STATUS, k, n)]
    let told := fun (n : Nat) => Sets splice s [(.BD_SPLICE_A_STATUS, k, n)]
    let sized := fathoms ≠ 0 ∧ fathoms ≤ 65536 ∧ ¬ own
    let word := s.fld .BD_SPLICE_B_WORD k
    let empty := kind = 0 ∧ spFathoms word = 0 ∨ kind = 2 ∧ spKnotCount word = 0
    let range := kind = 0 ∧ 65536 < spFathoms word ∨ kind = 1 ∧ (spLog2 word < 4 ∨ 16 < spLog2 word) ∨ kind = 2 ∧ 2 ^ 20 < spKnotCount word ∨ own
    let claimed := s.fld .BD_WIN_COIL k ≠ coil
    let taken := s.fld .BD_SPLICE_A_COIL k ≠ coil
    let busy := 0 < x.outstanding i
    let drains := ∃ z ∈ x.pend, z.entry = i
    (Home s p coil → legal →
      (fathoms = 0 → notice 1) ∧ (fathoms ≠ 0 → 65536 < fathoms ∨ own → notice 2) ∧ (sized → opened → claimed → notice 3) ∧
      (sized → ¬ (opened ∧ claimed) → st ≠ 1 → st ≠ 2 → notice 4) ∧ (sized → ¬ (opened ∧ claimed) → st = 2 → notice 5) ∧
      (sized → st = 1 → ¬ (opened ∧ claimed) → opened ∨ s.fld .BD_WIN_BUSY k ≠ 0 → notice 6) ∧
      (sized → st = 1 → ¬ opened → s.fld .BD_WIN_BUSY k = 0 → Sets window s [(.BD_WIN_COIL, k, coil), (.BD_WIN_OPEN, k, 1), (.BD_WIN_DST_WAFER, k, dst), (.BD_WIN_DST_PORT, k, dstPort),
        (.BD_WIN_ENTRY, k, entry), (.BD_WIN_KIND, k, kind), (.BD_WIN_FATHOMS, k, fathoms), (.BD_WIN_STATUS, k, 0)])) ∧
    (Home s p coil → dst < 64 → entry < 32 → kind < 3 →
      (empty → told 1) ∧ (¬ empty → range → told 2) ∧ (¬ empty → ¬ range → valid → taken → told 3) ∧ (¬ empty → ¬ range → ¬ (valid ∧ taken) → st ≠ 1 → st ≠ 2 → told 4) ∧
      (¬ empty → ¬ range → ¬ (valid ∧ taken) → st = 2 → told 5) ∧ (¬ empty → ¬ range → st = 1 → ¬ (valid ∧ taken) → valid ∨ s.fld .BD_SPLICE_A_BUSY k ≠ 0 → told 6) ∧
      (¬ empty → ¬ range → st = 1 → ¬ valid → s.fld .BD_SPLICE_A_BUSY k = 0 → Completes splice s (fun t => t.fld .BD_SPLICE_A_VALID k = 1 ∧ t.fld .BD_SPLICE_A_COIL k = coil ∧
        t.fld .BD_SPLICE_A_KIND k = kind ∧ t.fld .BD_SPLICE_A_R k = b2n r ∧ t.fld .BD_SPLICE_A_W k = b2n w ∧ t.fld .BD_SPLICE_A_SRC_WAFER k = dst ∧
        t.fld .BD_SPLICE_A_SRC_COIL k = entry ∧ t.fld .BD_SPLICE_A_STATUS k = 0 ∧ t.fld .BD_SPLICE_C_WRITE k = 0 ∧ t.fld .BD_SPLICE_B_WORD k = word ∧ t.mem = s.mem))) ∧
    (Home s p (s.fld .BD_WIN_COIL k) → (¬ opened → Sets (.windowClose p b i) s [(.BD_WIN_STATUS, k, 0)]) ∧
      (opened → busy → Sets (.windowClose p b i) s [(.BD_WIN_OPEN, k, 0), (.BD_WIN_BUSY, k, 1), (.BD_WIN_STATUS, k, 0)]) ∧
      (opened → ¬ busy → (∀ z ∈ x.lost, z.2.1 ≠ i) → Completes (.windowClose p b i) s (fun t => t.fld .BD_WIN_OPEN k = 0 ∧ t.fld .BD_WIN_BUSY k = 0 ∧ t.fld .BD_WIN_STATUS k = 0 ∧
        t.bend b = x ∧ t.mem = s.mem)) ∧
      (opened → ¬ busy → (∃ z ∈ x.lost, z.2.1 = i) → Completes (.windowClose p b i) s (fun t => t.fld .BD_WIN_OPEN k = 0 ∧ (∀ z ∈ (t.bend b).lost, z.2.1 ≠ i) ∧ Logs 0x090B s t))) ∧
    (Home s p (s.fld .BD_SPLICE_A_COIL k) → (¬ valid → Sets (.spliceEntryInvalidate p b i) s [(.BD_SPLICE_A_STATUS, k, 0)]) ∧
      (valid → drains → Sets (.spliceEntryInvalidate p b i) s [(.BD_SPLICE_A_VALID, k, 0), (.BD_SPLICE_A_BUSY, k, 1), (.BD_SPLICE_A_STATUS, k, 0)]) ∧
      (valid → ¬ drains → Sets (.spliceEntryInvalidate p b i) s [(.BD_SPLICE_A_VALID, k, 0), (.BD_SPLICE_A_BUSY, k, 0), (.BD_SPLICE_A_STATUS, k, 0)])) ∧
    (s.fld .BD_WIN_BUSY k = 0 ∨ busy → Ignored (.windowDrained b false i) s) ∧
    (s.fld .BD_WIN_BUSY k ≠ 0 → ¬ busy → Completes (.windowDrained b false i) s (fun t => t.fld .BD_WIN_BUSY k = 0 ∧ t.mem = s.mem)) ∧
    (s.fld .BD_SPLICE_A_BUSY k = 0 → Ignored (.windowDrained b true i) s) ∧
    (s.fld .BD_SPLICE_A_BUSY k ≠ 0 → ¬ drains → Completes (.windowDrained b true i) s (fun t => t.fld .BD_SPLICE_A_BUSY k = 0 ∧ t.mem = s.mem)) ∧
    ((∀ z ∈ x.blocks, ¬ (z.window = i ∧ z.block = block)) → Ignored (.msgPartialTimeout b i block) s) ∧
    (x.blocks = [m] → m.window = i → m.block = block → x.waiting = [] → x.outq = [] → Completes (.msgPartialTimeout b i block) s (fun t => (t.bend b).blocks = [] ∧
      (t.bend b).tags = x.tags ∧ t.mem = s.mem ∧ Logs 0x090C s t))

/-- Messages (R691 to R693, Table 20.9): a malformed message and one whose entry does not take it are refused; a token decrements the knot of its entry as CP_KNOT_CMD does; a message into a
ring writes its payload, then its header word, and WRITE advances; a full ring answers FULL and counts the message. It rests on the model's choices of log entries 6, 80. -/
def Obligations.BendMessages : Prop :=
  ∀ (s : State) (b v a : Nat) (p : BPkt) (body top : List BPiece) (h : BPiece),
    let found := (s.bend b).arrived.find? (fun z => z.opc = 5) = some p
    let i := 256 * b + p.entry
    let coil := s.fld .BD_SPLICE_A_COIL i
    let kind := s.fld .BD_SPLICE_A_KIND i
    let word := s.fld .BD_SPLICE_B_WORD i
    let entered := s.fld .BD_SPLICE_A_VALID i ≠ 0 ∧ s.fld .BD_SPLICE_A_BUSY i = 0 ∧ s.fld .BD_SPLICE_A_SRC_WAFER i = p.src ∧ s.fld .BD_SPLICE_A_SRC_COIL i = p.coil
    let d := p.data
    let type := d % 2 ^ 16
    let formed := (type = 1 ∨ type = 2) ∧ bits d 31 16 ≤ 240 ∧ bits d 63 44 = 0 ∧ bits d 95 84 = 0
    let refused := Completes (.msg b) s (fun t => Answered b p 2 0 0 s t ∧ Logs 0x090A s t ∧ t.mem = s.mem)
    let k := bits d 83 64
    let knot := spKnotBase word + k
    let x := Knot.decode (s.load a 8)
    let n := bits d 126 96
    let size := 2 ^ spLog2 word
    let ring := spRing word * 4096
    let idx := s.fld .BD_SPLICE_C_WRITE i
    let used := fun (head : Nat) => (idx + 2 ^ 32 - head) % 2 ^ 32
    let slot := ring + 256 * (idx % size)
    let phase := if idx / size % 2 = 0 then 1 else 0
    let header := d % 2 ^ 32 + phase * 2 ^ 32 + p.src * 2 ^ 33 + p.coil * 2 ^ 39 + bits d 127 64 * 2 ^ 64
    let good := fun (x : BPiece) => x.wpa / vaultSize = v ∧ PlainLine s (x.wpa / 64) v ∧ s.quietLine (x.wpa / 64) = true ∧ s.vaultCheck v (some coil) x.shared = spOk ∧
      x.wpa % 64 + x.n ≤ 64
    let apart := fun (x y : BPiece) => x.wpa + x.n ≤ y.wpa ∨ y.wpa + y.n ≤ x.wpa
    (¬ (∃ z ∈ (s.bend b).arrived, z.opc = 5) → Ignored (.msg b) s) ∧
    (found → ¬ entered ∨ ¬ formed ∨ (kind ≠ 1 ∧ kind ≠ 2) → refused) ∧
    (found → entered → formed → kind = 2 → type ≠ 2 ∨ spKnotCount word ≤ k ∨ s.knotCount coil ≤ knot → refused) ∧
    (found → entered → formed → kind = 2 → type = 2 → k < spKnotCount word → KnotAt s coil knot a → n ≠ 0 → -(2 ^ 31) ≤ x.value - n → x.armed = false →
      Completes (.msg b) s (fun t => Wrote a 8 ({ x with value := x.value - n, mark := x.mark || d.testBit 127 } : Knot).encode s t ∧ Answered b p 0 0 0 s t)) ∧
    (found → entered → formed → kind = 1 → used (SMap.get 0 (s.bend b).heads p.entry) < size →
      s.remotePieces coil .write 6 (slot + 16) 240 (d / 2 ^ 128) = some body → s.remotePieces coil .write 1 slot 16 header = some top →
      (∀ z ∈ body ++ top, good z) → (body ++ top).Pairwise apart → s.fld .SP_VAULT_STATUS_UE_LINES v < 64 →
      Completes (.msg b) s (fun t => (∀ z ∈ body ++ top, t.load z.wpa z.n = z.value % 2 ^ (8 * z.n)) ∧
        (∀ j, (∀ z ∈ body ++ top, j < z.wpa ∨ z.wpa + z.n ≤ j) → t.byte j = s.byte j) ∧ t.fld .BD_SPLICE_C_WRITE i = (idx + 1) % 2 ^ 32 ∧ Answered b p 0 0 0 s t)) ∧
    (found → entered → formed → kind = 1 → size ≤ used (SMap.get 0 (s.bend b).heads p.entry) → s.remotePieces coil .read 1 (ring + 256 * size) 8 0 = some [h] → good h → h.n = 8 →
      size ≤ used (s.load h.wpa 8 % 2 ^ 32) → Completes (.msg b) s (fun t => t.fld .BD_SPLICE_C_DROPPED i = satAdd 32 (s.fld .BD_SPLICE_C_DROPPED i) 1 ∧ t.mem = s.mem ∧
        SMap.get 0 (t.bend b).heads p.entry = s.load h.wpa 8 % 2 ^ 32 ∧ Answered b p 5 0 0 s t))
/-- An instance whose rings, mailbox and notify are not configured: its steps serve what it knows. -/
def Closed (h : Halyard) : Prop :=
  (∀ q ∈ h.cfg.reqs, q.valid = false) ∧ h.cfg.rsps = [] ∧ h.cfg.mailbox.valid = false ∧ h.cfg.notify = false ∧ h.notes = [] ∧ h.state = 2

/-- The event of the service is logged: as `Logs`, while the task has room for events in this millisecond. -/
def Reports (code coil : Nat) (s t : State) : Prop := (SMap.get (0, 0) s.cap.logs coil).1 ≠ s.clockUs / 1000 → Logs code s t

/-- The DVA of a word of the coil that lies at `w` in Spool and that the service may write, in a line that no cache holds. -/
def ServiceWord (s : State) (coil dva w : Nat) : Prop :=
  ∃ v sh, s.svcAt coil dva .write = some (w, sh) ∧ PlainLine s (w / 64) v ∧ s.vaultCheck v (some coil) sh = spOk ∧ s.fld .SP_VAULT_STATUS_UE_LINES v < 64 ∧ w % 8 = 0

/-- The Halyard service (R708, R709, R712, R713, R716, R721, R722, R727, R729, Tables 21.1 and 21.7): a start checks the SCB, reports the first word that fails and otherwise runs; STOP drains and
an instance with nothing left stops; a step adds the token of each logits row and schedules the next work; a model fault ends its sequences; recovery puts the lost sequences back. It rests on the model's choices of log entries 6, 85, 86, 87, 88, 89. -/
def Obligations.HalyardService : Prop :=
  ∀ (s : State) (c coil r tail id n k i serial wafer w code : Nat) (x : HSeq) (row : List Nat) (m : ModelEnd) (ends : List ModelEnd) (tk : Task),
    let h := s.hal coil
    let g := h.cfg
    let start := Instr.halyardStart c
    let scb := tk.ticket.args.headD 0
    let st := s.svcWord tk.coil (scb + 0x10) % 16
    let serving := h.state = 2 ∨ h.state = 3
    let step := Instr.halyardStep coil ends
    let one := Closed h ∧ h.seqs = [x] ∧ x.id = id ∧ x.peer = none ∧ x.backlog = [] ∧ x.stallAt = none
    let ctx := x.prompt.length + x.gen.length
    let final := fun (status : Nat) => ({ status := status, final := true, first := x.sent, queueUs := x.queueUs, tokens := x.gen.drop x.sent } : HEntry)
    let past := fun (status : Nat) => ({ x with loc := .ended, blocks := [], backlog := [final status], sent := x.sent + (x.gen.drop x.sent).length,
                                                stallAt := some s.clockUs } : HSeq)
    let room := 0 < g.maxBatch ∧ 0 < g.tokenBudget ∧ 0 < g.group ∧ 0 < g.layerGroups ∧ x.blocks.length = g.need (x.kv + n + 1) ∧ x.blocks.length ≤ g.pool
    let on := k ≠ g.eos ∧ k ∉ x.stops ∧ x.gen.length + 1 < x.maxNew ∧ ctx + 1 < g.maxContext ∧ x.stream = false ∧ x.gen.length + 1 - x.sent < 56
    ((s.core c).task = none ∨ (s.core c).running = false → Ignored start s) ∧
    (∀ t, (s.core c).task = some t → s.task t = tk → tk.ticket.template ≠ 0 ∨ (s.hal tk.coil).state = 2 ∨ (s.hal tk.coil).state = 3 ∨ (st ≠ 0 ∧ st ≠ 4) → Ignored start s) ∧
    (∀ t, (s.core c).task = some t → s.task t = tk → (s.core c).running = true → tk.ticket.template = 0 → (s.hal tk.coil).state = 0 → st = 0 ∨ st = 4 →
      (s.scbFault tk.coil scb = some i → ServiceWord s tk.coil (scb + 0x10) w → Completes start s (fun t => t.hal tk.coil = {} ∧ Wrote w 8 (4 + i * 2 ^ 8) s t ∧
        Reports 0x0A03 tk.coil s t)) ∧
      (s.scbFault tk.coil scb = none → Completes start s (fun t => (t.hal tk.coil).scb = scb ∧ (t.hal tk.coil).state = 2 ∧ (t.hal tk.coil).taskId = tk.ticket.taskId ∧
        (t.hal tk.coil).cfg = hCfg (fun off => s.svcWord tk.coil (scb + off))))) ∧
    (h.state ≠ 2 → Ignored (.halyardStop coil) s) ∧
    (h.state = 2 → h.seqs = [] → h.work = [] → Completes (.halyardStop coil) s (fun t => t.hal coil = {} ∧ Reports 0x0A02 coil s t ∧ ∀ j, j ≠ coil → t.hal j = s.hal j)) ∧
    (h.state = 2 → h.seqs ≠ [] ∨ h.work ≠ [] → Completes (.halyardStop coil) s (fun t => t.hal coil = { h with state := 3 } ∧ ∀ j, j ≠ coil → t.hal j = s.hal j)) ∧
    (¬ serving ∨ 8 ≤ r → Ignored (.requestSubmit coil r tail) s) ∧
    (serving → r < 8 → h.work ≠ [] → ServiceWord s coil (h.scb + 0x100 + 8 * r) w → Completes (.requestSubmit coil r tail) s (fun t => Wrote w 8 (tail % 2 ^ 32) s t ∧
      t.halyards = s.halyards)) ∧
    (Closed h → r < 8 → h.seqs = [] → h.work = [] → Completes (.requestSubmit coil r tail) s (fun t => (t.hal coil).seqs = [] ∧ (t.hal coil).work = [] ∧ (t.hal coil).cfg = g ∧
      (t.hal coil).state = 2)) ∧
    (¬ serving ∨ ends.length ≠ h.work.length → Ignored step s) ∧
    (one → h.work = [.prefill id n true] → x.loc = .running → ends = [m] → m.fault = none → m.rows = [row] → row.length = g.vocab → sampleToken x row x.gen.length = some k →
      x.kv + n = ctx → room → on → Completes step s (fun t => (t.hal coil).work = [.decode [id]] ∧ (t.hal coil).seqs = [{ x with
        gen := x.gen ++ [k], kv := x.kv + n, queueUs := if x.gen = [] then s.clockUs - x.arrival else x.queueUs }])) ∧
    (one → h.work = [.prefill id n true] → x.loc = .running → ends = [m] → m.fault = some code → Completes step s (fun t => (t.hal coil).seqs = [past 8] ∧ (t.hal coil).work = [])) ∧
    (x.temp % 2 ^ 31 = 0 → (∀ e ∈ row, (fp32.decode e).isNan = false) → sampleToken x row n = some k → k < row.length ∧
      ∀ j, j < row.length → FpVal.lt false (fp32.decode (row.getD k 0)) (fp32.decode (row.getD j 0)) = false) ∧
    (¬ serving → Ignored (.halyardRecovery coil) s) ∧
    (one → h.work = [.prefill id n true] → x.loc = .running → x.started = true → Completes (.halyardRecovery coil) s (fun t =>
      ∃ y, (t.hal coil).seqs = [y] ∧ y.id = id ∧ y.kv = 0 ∧ y.gen = x.gen ∧ y.prompt = x.prompt)) ∧
    ((∀ y ∈ h.seqs, ∀ q, y.loc ≠ .forwarded q serial) → Ignored (.forwardTimeout coil serial) s) ∧
    (one → h.work = [] → x.loc = .forwarded i serial → Completes (.forwardTimeout coil serial) s (fun t => (t.hal coil).seqs = [past 9] ∧ Reports 0x0A07 coil s t)) ∧
    Completes (.fragmentTimeout coil wafer serial) s (fun t => t = { s with halyards := t.halyards, out := [], outputs := t.outputs } ∧
      t.hal coil = { h with frags := h.frags.filter (fun f => !(decide (f.wafer = wafer) && decide (f.serial = serial))) } ∧ ∀ j, j ≠ coil → t.hal j = s.hal j)
/-- A step runs the command at the front of the queue: what `exec` does with it and the rest of the queue; an empty queue lets a microsecond pass, in which Cleat's time runs on. It rests on the model's choices of log entry 5. -/
def Obligations.StepRunsTheFrontCommand : Prop :=
  ∀ (s : State) (i : Instr) (rest : List Instr),
    (s.pending = i :: rest → step s = exec i { s with pending := rest }) ∧
    (s.pending = [] → ∃ t, step s = .next t ∧ t.pending = [] ∧ t.clockUs = s.clockUs + 1 ∧
      (s.module.aoOn = true → t.fld .CL_TIME_UTC_NS 0 = (s.fld .CL_TIME_UTC_NS 0 + 1000) % 2 ^ 64) ∧ ((∀ b, b < 6 → (s.bend b).pend = []) → t.out = [] ∧ t.mem = s.mem))

/-- Every command has an effect: for every operand and state `exec` answers a next state, and what waits in the queue stays as it is. It rests on the model's choices of log entry 6. -/
def Obligations.EveryCommandAnswers : Prop := ∀ (i : Instr) (s : State), Completes i s (fun t => t.pending = s.pending)

/-- The pins follow the state (R52, R132, R754, R766, Tables 2.8 and 2.9): SMB_ALERT_N is low while some entry of the persistent log is not acknowledged, WAKE_N while a port holds WAKE, the locate
indicator blinks while LOCATE_N or the effecter asks for it, a GPIO pin is low as its function says; with the always-on domain off every pin is released. -/
def PinsFollow (s : State) : Prop :=
  let o := s.outputs
  (s.module.aoOn = false → o = {}) ∧
  (s.module.aoOn = true →
    (o.smbAlertLow = true ↔ ∃ e ∈ s.nvm.live.plog, e.acked = none) ∧ (o.wakeLow = true ↔ ∃ p, p < 8 ∧ s.fld .HT_PM_STATUS_WAKE p ≠ 0) ∧
    (o.locate = true ↔ s.module.pins.locateN = false ∨ s.cleat.locate = true) ∧ o.gpioLow.length = 4 ∧
    (∀ n, n < 4 → s.fld .CL_GPIO_FUNC n = 1 → (o.gpioLow.getD n false = true ↔ s.fld .CL_GPIO_OUT n = 0)) ∧
    (∀ n, n < 4 → s.fld .CL_GPIO_FUNC n = 0 → o.gpioLow.getD n false = false) ∧
    (s.fld .CL_GPIO_FUNC 2 = 4 → (o.gpioLow.getD 2 false = true ↔ s.module.tripped = none)))

/-- Every step leaves the pins as the state they follow says: the invariant is kept by every command, and by an idle step. It rests on the model's choices of log entry 4. -/
def Obligations.EveryStepSettlesThePins : Prop := ∀ (s t : State), PinsFollow s → step s = .next t → PinsFollow t

/-- The state after reset: no command waits, the always-on domain is off and every pin released, every register field holds the reset value of its table, every byte of memory reads zero (the
model's choice) in the canonical form; the concrete values are those of the tables. It rests on the model's choices of log entries 7, 8, 10. -/
def Obligations.ResetState : Prop :=
  State.reset.pending = [] ∧ State.reset.module.aoOn = false ∧ PinsFollow State.reset ∧ Memory.wf State.reset.mem = true ∧ (∀ a, State.reset.byte a = 0) ∧
  (∀ f i, State.reset.fld f i = f.desc.reset) ∧ State.reset.fld .HT_ERR_SEVERITY_SEV_FIXED 3 = 0xF ∧ State.reset.fld .NT_CTL_ESC_WAIT 0 = 8 ∧
  State.reset.fld .SP_SCRUB_CTL_PERIOD 0 = 24 ∧ State.reset.fld .CP_PARK_CLK_US 0 = 50 ∧ State.reset.fld .CP_PARK_DARK_MS 0 = 100 ∧ State.reset.fld .CP_COIL_LIMIT_DEFAULT_US 7 = 1000000 ∧
  State.reset.fld .CL_EVT_CTL_THRESHOLD 2 = 2 ∧ State.reset.fld .CL_GPIO_OUT 1 = 1

/-- Register addresses (R776 and each block's map): the register space offset of an instance, by the worked places of the spec. -/
def Obligations.RegisterAddresses : Prop :=
  regAt 0x59890018 = some (.CR_FAULT_PC, 2345) ∧ regAt 0x39422428 = some (.TK_CH_STATUS, 32 * 166 + 5) ∧ regAt 0x1132068 = some (.CP_CRING_PTR, 64 * 12 + 3) ∧
  regAt 0x3000000 = some (.BD_CTL, 0) ∧ regAt 0x3500100 = some (.BD_ROUTE, 64 * 5) ∧ regAt 0x3102060 = some (.BD_SPLICE_A, 256 + 3) ∧ regAt 0x20 = some (.CL_CAPACITY, 0) ∧
  regAt 0x30 = none

/-- Memory reads back what was written, every other byte stands, and the canonical form is kept. It rests on the model's choices of log entry 7. -/
def Obligations.MemoryReadsBack : Prop :=
  ∀ (s : State) (a n v j : Nat), (s.store a n v).load a n = v % 2 ^ (8 * n) ∧ (j < a ∨ a + n ≤ j → (s.store a n v).byte j = s.byte j) ∧
    (Memory.wf s.mem = true → Memory.wf (s.store a n v).mem = true) ∧ (s.store a n v).regs = s.regs

/-- A Bend packet as its header fields allow it (Tables 20.7 and 20.8). -/
def LegalPacket (p : BPkt) : Prop :=
  p.opc ∈ [1, 2, 3, 4, 5, 8, 9, 10] ∧ p.dst < 64 ∧ p.src < 64 ∧ p.dstPort < 6 ∧ p.retPort < 6 ∧ p.tag < 4096 ∧ p.entry < 256 ∧ p.hops < 16 ∧ p.status < 6 ∧ p.coil < 32 ∧
  p.off < 2 ^ 40 ∧ p.atop < 13 ∧ p.asz < 4 ∧ (p.opc < 8 → p.status = 0) ∧ (if p.opc = 1 ∨ p.opc = 2 ∨ p.opc = 8 then 1 ≤ p.len ∧ p.len ≤ 256 else p.len = 0)

/-- Packets and knots read back (R573, R678, Tables 17.4 and 20.7): the header cell of a legal packet spells that packet, with every field at every value; the header words are those of the worked
example; a knot's word spells the knot. -/
def Obligations.PacketsAndKnotsReadBack : Prop :=
  ∀ (p : BPkt) (k : Knot),
    (LegalPacket p → pktOf (p.image % 2 ^ 128) = some { p with data := 0, arr := none } ∧ p.image / 2 ^ 128 = p.data) ∧
    (p = { opc := 2, dst := 16, src := 3, dstPort := 5, retPort := 0, dl := true, tag := 0x1A, entry := 7, hops := 15, coil := 9, off := 0x01234000, len := 128 } →
      p.word0 = 0x0090F0701A450D02 ∧ p.word1 = 0x00007F0001234000 ∧ p.cells = 9 ∧ p.vc = 1) ∧
    (-(2 ^ 31) ≤ k.value → k.value < 2 ^ 31 → Knot.decode k.encode = k ∧ k.encode < 2 ^ 34)

/-- Scalar integer instructions: arithmetic, logic and shifts, and the forms with an immediate, each with its result and its frame. -/
def Obligations.ScalarResults : Prop := ScalarArithmeticResultsPart ∧ ScalarLogicResultsPart ∧ ScalarImmediatesPart

/-- Vector integer arithmetic, logic, shifts and moves: the destination register, element by element under the predicate, and nothing else. -/
def Obligations.VectorIntegerInstructions : Prop := VectorIntegerResultsPart ∧ VectorLogicAndMovesPart

/-- Moves between vector registers, tiles and accumulators, and the clearing of both. -/
def Obligations.TileAndAccumulatorMoves : Prop := TileMovesPart ∧ AccumulatorMovesPart

/-- Scalar loads and stores: a hit binds at once, a miss is outstanding, a store lands in the merging buffer. -/
def Obligations.ScalarLoadsAndStores : Prop := ScalarMemoryPart ∧ LoadMissesAreOutstandingPart

/-- Fences, the window fence, and cache maintenance by address. It rests on the model's choices of log entries 23, 24. -/
def Obligations.FencesAndMaintenance : Prop := FencesPart ∧ WindowFencePart ∧ MaintenanceByAddressPart

/-- Submission and completion rings, and their doorbells. It rests on the model's choices of log entry 6. -/
def Obligations.RingsAndDoorbells : Prop := RingControlPart ∧ DoorbellsPart

/-- The admission of tickets, and their cancellation. It rests on the model's choices of log entry 6. -/
def Obligations.TicketsAndCancellation : Prop := TicketAdmissionPart ∧ CancellationPart

/-- Completion records, and SPAWN. It rests on the model's choices of log entries 6, 64. -/
def Obligations.RecordsAndSpawning : Prop := CompletionRecordsPart ∧ SpawningPart

/-- Translation contexts and their invalidations, and the shared grants between coils. It rests on the model's choices of log entries 6, 72. -/
def Obligations.ContextsAndGrants : Prop := TranslationContextsPart ∧ SharedGrantsPart

/-- The bay bus: requests and write-backs. It rests on the model's choices of log entry 6. -/
def Obligations.BayBus : Prop := BusRequestsPart ∧ WriteBacksPart

/-- Home grants, snoops and what they leave. It rests on the model's choices of log entries 6, 41, 90. -/
def Obligations.HomesAndSnoops : Prop := HomeGrantsPart ∧ SnoopsAndGrantsPart

/-- Coherence with the host: device requests and grants, host snoops, bias flips. It rests on the model's choices of log entries 6, 34. -/
def Obligations.HostCoherence : Prop := HostGrantsPart ∧ HostSnoopsPart ∧ BiasFlipsPart

/-- Link security, and the bindings of functions, channels and bias. -/
def Obligations.HostSecurityAndBindings : Prop := LinkSecurityPart ∧ HostBindingsPart

/-- Tackle: the control of channels, and the transfers that their descriptors name. It rests on the model's choices of log entries 6, 29, 42, 43. -/
def Obligations.Tackle : Prop := TackleChannelsPart ∧ TackleTransfersPart

/-- The scratchpad carve, and maintenance by way. It rests on the model's choices of log entries 6, 22, 90. -/
def Obligations.PlyCacheControl : Prop := CarvingPart ∧ MaintenanceByWayPart

/-- Vault ownership and clearing, keys, stripes, HDM maps and reservations. It rests on the model's choices of log entries 1, 6, 15. -/
def Obligations.SpoolControl : Prop := VaultOwnershipPart ∧ SpoolRegistersPart

/-- Unit errors, resets and fences, and fence requests. It rests on the model's choices of log entries 6, 54, 55. -/
def Obligations.ErrorsAndFences : Prop := ErrorResetsPart ∧ FenceRequestsPart

/-- The Net: links, routes, packets, ledgers and timeouts. It rests on the model's choices of log entries 6, 52, 53, 62. -/
def Obligations.NetLinksAndLedgers : Prop := NetLinksPart ∧ NetLedgersPart

/-- System registers, RIG services and their returns. It rests on the model's choices of log entries 61, 65, 66. -/
def Obligations.SystemAndRig : Prop := SystemRegistersPart ∧ RigServicesPart

/-- Waits of a core, and the end of its task. It rests on the model's choices of log entries 28, 63. -/
def Obligations.WaitsAndTaskEnds : Prop := WaitsPart ∧ TaskEndsPart

/-- Register reads and writes by hosts, by RIG-level code and by Cleat. It rests on the model's choices of log entries 6, 81, 82, 83, 84. -/
def Obligations.RegisterAccess : Prop := RegisterReadsPart ∧ RegisterWritesPart

/-- Remote requests over Bend and their responses. It rests on the model's choices of log entries 6, 79, 80. -/
def Obligations.BendRemote : Prop := RemoteRequestsPart ∧ RemoteResponsesPart

/-- The power envelope, dispatch, and the states of a core. It rests on the model's choices of log entries 6, 57, 58, 59. -/
def Obligations.CorePower : Prop := PowerAndDispatchPart ∧ CoreStatesPart

/-- PLDM and MCTP commands, Gwyn images and SPDM. It rests on the model's choices of log entries 6, 44, 45, 46. -/
def Obligations.Management : Prop := ManagementCommandsPart ∧ ImagesAndSpdmPart
end

