-- ==== Sys2Proof/Laws/Store.lean ====
section
/-!
SUPPORT. The laws of sparse stores: what is read after a write, and that every operation keeps the canonical form.
-/
namespace Sys2Proof.Machine

variable {V : Type}

theorem SMap.get_erase_same (d : V) (m : SMap V) (k : Nat) : SMap.get d (SMap.erase m k) k = d := by
  induction m with
  | nil => rfl
  | cons p m ih =>
    obtain ⟨k', v⟩ := p
    by_cases h : k = k' <;> simp [SMap.erase, SMap.get, h]
    · simpa [h] using ih
    · exact ih

theorem SMap.get_erase_other (d : V) (m : SMap V) {j k : Nat} (h : j ≠ k) : SMap.get d (SMap.erase m k) j = SMap.get d m j := by
  induction m with
  | nil => rfl
  | cons p m ih =>
    obtain ⟨k', v⟩ := p
    by_cases hk : k = k'
    · subst hk; simp [SMap.erase, SMap.get, h, ih]
    · by_cases hj : j = k' <;> simp [SMap.erase, SMap.get, hk, hj, ih]

/-- No entry at a key. -/
def SMap.lacks (m : SMap V) (k : Nat) : Prop := ∀ p ∈ m, p.1 ≠ k

theorem SMap.erase_lacks (m : SMap V) (k : Nat) : SMap.lacks (SMap.erase m k) k := by
  induction m with
  | nil => intro p hp; cases hp
  | cons p m ih =>
    obtain ⟨k', v⟩ := p
    by_cases h : k = k'
    · simpa [SMap.erase, h] using (by simpa [h] using ih)
    · intro q hq
      simp only [SMap.erase, h, if_false, List.mem_cons] at hq
      rcases hq with rfl | hq
      · exact fun e => h e.symm
      · exact ih q hq

theorem SMap.get_put_same (d : V) (m : SMap V) (k : Nat) (v : V) (h : SMap.lacks m k) : SMap.get d (SMap.put m k v) k = v := by
  induction m with
  | nil => simp [SMap.put, SMap.get]
  | cons p m ih =>
    obtain ⟨k', v'⟩ := p
    have hk : k ≠ k' := fun e => h (k', v') (by simp) e.symm
    have hm : SMap.lacks m k := fun q hq => h q (by simp [hq])
    by_cases hlt : k < k' <;> simp [SMap.put, SMap.get, hlt, hk, ih hm]

theorem SMap.get_put_other (d : V) (m : SMap V) {j k : Nat} (v : V) (h : j ≠ k) : SMap.get d (SMap.put m k v) j = SMap.get d m j := by
  induction m with
  | nil => simp [SMap.put, SMap.get, h]
  | cons p m ih =>
    obtain ⟨k', v'⟩ := p
    by_cases hlt : k < k'
    · simp [SMap.put, SMap.get, hlt, h]
    · simp [SMap.put, SMap.get, hlt, ih]

/-- A read after a write to the same place gives the value written. -/
@[simp] theorem SMap.get_set_same [DecidableEq V] (d : V) (m : SMap V) (k : Nat) (v : V) : SMap.get d (SMap.set d m k v) k = v := by
  unfold SMap.set
  split
  · next h => rw [SMap.get_erase_same, h]
  · exact SMap.get_put_same d _ k v (SMap.erase_lacks m k)

/-- A write leaves every other place alone. -/
theorem SMap.get_set_other [DecidableEq V] (d : V) (m : SMap V) {j k : Nat} (v : V) (h : j ≠ k) :
    SMap.get d (SMap.set d m k v) j = SMap.get d m j := by
  unfold SMap.set
  split
  · exact SMap.get_erase_other d m h
  · rw [SMap.get_put_other d _ v h, SMap.get_erase_other d m h]

/-! ### The canonical form -/

/-- Every key is above a bound. -/
def SMap.above (b : Nat) (m : SMap V) : Prop := ∀ p ∈ m, b < p.1

theorem SMap.rising_cons (k : Nat) (v : V) (m : SMap V) : SMap.rising ((k, v) :: m) = true ↔ SMap.above k m ∧ SMap.rising m = true := by
  induction m generalizing k v with
  | nil => simp [SMap.rising, SMap.above]
  | cons p m ih =>
    obtain ⟨k', v'⟩ := p
    simp only [SMap.rising, Bool.and_eq_true, decide_eq_true_eq]
    constructor
    · rintro ⟨h, hr⟩
      refine ⟨?_, hr⟩
      intro q hq
      rcases List.mem_cons.mp hq with rfl | hq
      · exact h
      · exact Nat.lt_trans h (((ih k' v').mp hr).1 q hq)
    · rintro ⟨h, hr⟩
      exact ⟨h (k', v') (by simp), hr⟩

theorem SMap.mem_erase {m : SMap V} {k : Nat} {p : Nat × V} (h : p ∈ SMap.erase m k) : p ∈ m := by
  induction m with
  | nil => exact h
  | cons q m ih =>
    obtain ⟨k', v⟩ := q
    by_cases hk : k = k'
    · simp only [SMap.erase, hk, if_true] at h
      exact List.mem_cons_of_mem _ (ih (by simpa [hk] using h))
    · simp only [SMap.erase, hk, if_false, List.mem_cons] at h
      rcases h with rfl | h
      · simp
      · exact List.mem_cons_of_mem _ (ih h)

theorem SMap.rising_erase (m : SMap V) (k : Nat) (h : SMap.rising m = true) : SMap.rising (SMap.erase m k) = true := by
  induction m with
  | nil => rfl
  | cons p m ih =>
    obtain ⟨k', v⟩ := p
    have hr := (SMap.rising_cons k' v m).mp h
    by_cases hk : k = k'
    · simpa [SMap.erase, hk] using (by simpa [hk] using ih hr.2)
    · simp only [SMap.erase, hk, if_false]
      exact (SMap.rising_cons k' v _).mpr ⟨fun q hq => hr.1 q (SMap.mem_erase hq), ih hr.2⟩

theorem SMap.mem_put {m : SMap V} {k : Nat} {v : V} {p : Nat × V} (h : p ∈ SMap.put m k v) : p = (k, v) ∨ p ∈ m := by
  induction m with
  | nil => simpa [SMap.put] using h
  | cons q m ih =>
    obtain ⟨k', v'⟩ := q
    by_cases hlt : k < k'
    · simp only [SMap.put, hlt, if_true, List.mem_cons] at h ⊢
      exact h
    · simp only [SMap.put, hlt, if_false, List.mem_cons] at h ⊢
      rcases h with h | h
      · exact .inr (.inl h)
      · exact (ih h).imp_right .inr

theorem SMap.rising_put (m : SMap V) (k : Nat) (v : V) (h : SMap.rising m = true) (hl : SMap.lacks m k) : SMap.rising (SMap.put m k v) = true := by
  induction m with
  | nil => rfl
  | cons p m ih =>
    obtain ⟨k', v'⟩ := p
    have hr := (SMap.rising_cons k' v' m).mp h
    by_cases hlt : k < k'
    · simp only [SMap.put, hlt, if_true]
      refine (SMap.rising_cons k v _).mpr ⟨?_, h⟩
      intro q hq
      rcases List.mem_cons.mp hq with rfl | hq
      · exact hlt
      · exact Nat.lt_trans hlt (hr.1 q hq)
    · have hne : k' ≠ k := hl (k', v') (by simp)
      simp only [SMap.put, hlt, if_false]
      refine (SMap.rising_cons k' v' _).mpr ⟨?_, ih hr.2 (fun q hq => hl q (by simp [hq]))⟩
      intro q hq
      rcases SMap.mem_put hq with rfl | hq
      · show k' < k; omega
      · exact hr.1 q hq

/-- A write keeps the canonical form. -/
theorem SMap.wf_set [DecidableEq V] (d : V) (m : SMap V) (k : Nat) (v : V) (h : SMap.wf d m = true) : SMap.wf d (SMap.set d m k v) = true := by
  simp only [SMap.wf, Bool.and_eq_true, List.all_eq_true, decide_eq_true_eq] at h ⊢
  obtain ⟨hr, hd⟩ := h
  unfold SMap.set
  split
  · exact ⟨SMap.rising_erase m k hr, fun p hp => hd p (SMap.mem_erase hp)⟩
  · next hv =>
    refine ⟨SMap.rising_put _ k v (SMap.rising_erase m k hr) (SMap.erase_lacks m k), ?_⟩
    intro p hp
    rcases SMap.mem_put hp with rfl | hp
    · exact hv
    · exact hd p (SMap.mem_erase hp)

/-- Two stores in the canonical form that read alike everywhere are equal. -/
theorem SMap.get_below (d : V) (m : SMap V) (k : Nat) (h : SMap.above k m) : SMap.get d m k = d := by
  induction m with
  | nil => rfl
  | cons p m ih =>
    obtain ⟨k', v⟩ := p
    have hk : k < k' := h (k', v) (by simp)
    have : k ≠ k' := by omega
    simp only [SMap.get, this, if_false]
    exact ih (fun q hq => h q (by simp [hq]))

/-! ### Memory -/

theorem State.byte_setByte_same (s : State) (a : Nat) (b : Byte) : (s.setByte a b).byte a = b := by
  simp [State.byte, State.setByte]

theorem State.byte_setByte_other (s : State) {a x : Nat} (b : Byte) (h : x ≠ a) : (s.setByte a b).byte x = s.byte x :=
  SMap.get_set_other 0 s.mem b h

theorem State.setBytes_mem_wf (s : State) (a : Nat) (l : List Byte) (h : Memory.wf s.mem = true) : Memory.wf (s.setBytes a l).mem = true := by
  induction l generalizing s a with
  | nil => exact h
  | cons b bs ih => exact ih _ _ (SMap.wf_set 0 s.mem a b h)

/-- Every store keeps memory in its canonical form. -/
theorem State.store_mem_wf (s : State) (a n v : Nat) (h : Memory.wf s.mem = true) : Memory.wf (s.store a n v).mem = true :=
  State.setBytes_mem_wf s a _ h

theorem State.reset_mem_wf : Memory.wf State.reset.mem = true := rfl

/-! ### Register fields -/

theorem Fld.num_lt (f : Fld) : f.num < 512 := by cases f <;> decide

theorem Fld.num_inj {f g : Fld} (h : f.num = g.num) : f = g := by
  have hf : f = Fld.ofNat f.num := by cases f <;> rfl
  have hg : g = Fld.ofNat g.num := by cases g <;> rfl
  rw [hf, hg, h]

/-- Two fields never share a place in the store. -/
theorem fkey_inj {f g : Fld} {i j : Nat} (h : fkey f i = fkey g j) : f = g ∧ i = j := by
  have hf := Fld.num_lt f
  have hg := Fld.num_lt g
  simp only [fkey] at h
  exact ⟨Fld.num_inj (by omega), by omega⟩

theorem State.fld_setFld_same (s : State) (f : Fld) (i v : Nat) : (s.setFld f i v).fld f i = v % 2 ^ f.desc.w := by
  simp [State.fld, State.setFld]

theorem State.fld_setFld_other (s : State) {f g : Fld} {i j : Nat} (v : Nat) (h : fkey g j ≠ fkey f i) : (s.setFld f i v).fld g j = s.fld g j := by
  unfold State.fld State.setFld
  by_cases e : f.desc.reset = g.desc.reset
  · rw [← e]; exact SMap.get_set_other _ s.regs _ h
  · show SMap.get _ (SMap.set _ s.regs _ _) _ = _
    unfold SMap.set
    split
    · exact SMap.get_erase_other _ s.regs h
    · rw [SMap.get_put_other _ _ _ h, SMap.get_erase_other _ _ h]

/-- What a field reads after a write to a field. -/
@[simp] theorem State.fld_setFld (s : State) (f g : Fld) (i j v : Nat) :
    (s.setFld f i v).fld g j = if g = f ∧ j = i then v % 2 ^ f.desc.w else s.fld g j := by
  split
  · next h => obtain ⟨rfl, rfl⟩ := h; exact State.fld_setFld_same s _ _ v
  · next h => exact State.fld_setFld_other s v (fun e => h (fkey_inj e))

/-- A count that wraps. -/
theorem State.bump_wraps (s : State) (f : Fld) (i n : Nat) (h : f.desc.acc ≠ .rc) : s.bump f i n = s.setFld f i (wrapAdd f.desc.w (s.fld f i) n) := by
  simp [State.bump, h]

/-- A count that saturates. -/
theorem State.bump_saturates (s : State) (f : Fld) (i n : Nat) (h : f.desc.acc = .rc) : s.bump f i n = s.setFld f i (satAdd f.desc.w (s.fld f i) n) := by
  simp [State.bump, h]

/-- A key that no entry has reads as the default. -/
theorem SMap.get_lacks (d : V) (m : SMap V) (k : Nat) (h : SMap.lacks m k) : SMap.get d m k = d := by
  induction m with
  | nil => rfl
  | cons p m ih =>
    obtain ⟨k', v⟩ := p
    have hk : k ≠ k' := fun e => h (k', v) (by simp) e.symm
    simp [SMap.get, hk, ih (fun q hq => h q (by simp [hq]))]
/-- Bytes that read zero make the number zero. -/
theorem State.bytes_zero (s : State) (a n : Nat) (h : ∀ j, j < n → s.byte (a + j) = 0) : leNat (s.bytes a n) = 0 := by
  induction n generalizing a with
  | zero => rfl
  | succ n ih =>
    have h0 := h 0 (by omega)
    have ht := ih (a + 1) (fun j hj => by have := h (j + 1) (by omega); rwa [← Nat.add_assoc, Nat.add_right_comm] at this)
    simp only [Nat.add_zero] at h0
    simp [State.bytes, leNat, h0, ht]

end Sys2Proof.Machine
end

