-- ==== Sys2Proof/Laws/State.lean ====
section
/-!
SUPPORT. The small laws of `State`: what each setter leaves alone, one lemma per field and accessor, and what it sets.
-/
namespace Sys2Proof.Machine

/-! ### `setFld` -/

@[simp] theorem State.setFld_pending (s : State) (f : Fld) (i v : Nat) : (s.setFld f i v).pending = s.pending := rfl
@[simp] theorem State.setFld_clockUs (s : State) (f : Fld) (i v : Nat) : (s.setFld f i v).clockUs = s.clockUs := rfl
@[simp] theorem State.setFld_fresh (s : State) (f : Fld) (i v : Nat) : (s.setFld f i v).fresh = s.fresh := rfl
@[simp] theorem State.setFld_out (s : State) (f : Fld) (i v : Nat) : (s.setFld f i v).out = s.out := rfl
@[simp] theorem State.setFld_module (s : State) (f : Fld) (i v : Nat) : (s.setFld f i v).module = s.module := rfl
@[simp] theorem State.setFld_outputs (s : State) (f : Fld) (i v : Nat) : (s.setFld f i v).outputs = s.outputs := rfl
@[simp] theorem State.setFld_mem (s : State) (f : Fld) (i v : Nat) : (s.setFld f i v).mem = s.mem := rfl
@[simp] theorem State.setFld_log (s : State) (f : Fld) (i v : Nat) : (s.setFld f i v).log = s.log := rfl
@[simp] theorem State.setFld_nvm (s : State) (f : Fld) (i v : Nat) : (s.setFld f i v).nvm = s.nvm := rfl
@[simp] theorem State.setFld_plate (s : State) (f : Fld) (i v : Nat) : (s.setFld f i v).plate = s.plate := rfl
@[simp] theorem State.setFld_cleat (s : State) (f : Fld) (i v : Nat) : (s.setFld f i v).cleat = s.cleat := rfl
@[simp] theorem State.setFld_fences (s : State) (f : Fld) (i v : Nat) : (s.setFld f i v).fences = s.fences := rfl
@[simp] theorem State.setFld_ports (s : State) (f : Fld) (i v : Nat) : (s.setFld f i v).ports = s.ports := rfl
@[simp] theorem State.setFld_routers (s : State) (f : Fld) (i v : Nat) : (s.setFld f i v).routers = s.routers := rfl
@[simp] theorem State.setFld_net (s : State) (f : Fld) (i v : Nat) : (s.setFld f i v).net = s.net := rfl
@[simp] theorem State.setFld_lines (s : State) (f : Fld) (i v : Nat) : (s.setFld f i v).lines = s.lines := rfl
@[simp] theorem State.setFld_vaults (s : State) (f : Fld) (i v : Nat) : (s.setFld f i v).vaults = s.vaults := rfl
@[simp] theorem State.setFld_gov (s : State) (f : Fld) (i v : Nat) : (s.setFld f i v).gov = s.gov := rfl
@[simp] theorem State.setFld_bays (s : State) (f : Fld) (i v : Nat) : (s.setFld f i v).bays = s.bays := rfl
@[simp] theorem State.setFld_invs (s : State) (f : Fld) (i v : Nat) : (s.setFld f i v).invs = s.invs := rfl
@[simp] theorem State.setFld_buses (s : State) (f : Fld) (i v : Nat) : (s.setFld f i v).buses = s.buses := rfl
@[simp] theorem State.setFld_plies (s : State) (f : Fld) (i v : Nat) : (s.setFld f i v).plies = s.plies := rfl
@[simp] theorem State.setFld_txns (s : State) (f : Fld) (i v : Nat) : (s.setFld f i v).txns = s.txns := rfl
@[simp] theorem State.setFld_strRsv (s : State) (f : Fld) (i v : Nat) : (s.setFld f i v).strRsv = s.strRsv := rfl
@[simp] theorem State.setFld_keys (s : State) (f : Fld) (i v : Nat) : (s.setFld f i v).keys = s.keys := rfl
@[simp] theorem State.setFld_cores (s : State) (f : Fld) (i v : Nat) : (s.setFld f i v).cores = s.cores := rfl
@[simp] theorem State.setFld_bends (s : State) (f : Fld) (i v : Nat) : (s.setFld f i v).bends = s.bends := rfl
@[simp] theorem State.setFld_channels (s : State) (f : Fld) (i v : Nat) : (s.setFld f i v).channels = s.channels := rfl
@[simp] theorem State.setFld_engines (s : State) (f : Fld) (i v : Nat) : (s.setFld f i v).engines = s.engines := rfl
@[simp] theorem State.setFld_cap (s : State) (f : Fld) (i v : Nat) : (s.setFld f i v).cap = s.cap := rfl
@[simp] theorem State.setFld_pawls (s : State) (f : Fld) (i v : Nat) : (s.setFld f i v).pawls = s.pawls := rfl
@[simp] theorem State.setFld_power (s : State) (f : Fld) (i v : Nat) : (s.setFld f i v).power = s.power := rfl
@[simp] theorem State.setFld_halyards (s : State) (f : Fld) (i v : Nat) : (s.setFld f i v).halyards = s.halyards := rfl
@[simp] theorem State.setFld_byte_of (s : State) (f : Fld) (i v : Nat) (x : Nat) : (s.setFld f i v).byte x = s.byte x := rfl
@[simp] theorem State.setFld_port_of (s : State) (f : Fld) (i v : Nat) (j : Nat) : (s.setFld f i v).port j = s.port j := rfl
@[simp] theorem State.setFld_router_of (s : State) (f : Fld) (i v : Nat) (j : Nat) : (s.setFld f i v).router j = s.router j := rfl
@[simp] theorem State.setFld_line_of (s : State) (f : Fld) (i v : Nat) (j : Nat) : (s.setFld f i v).line j = s.line j := rfl
@[simp] theorem State.setFld_vault_of (s : State) (f : Fld) (i v : Nat) (j : Nat) : (s.setFld f i v).vault j = s.vault j := rfl
@[simp] theorem State.setFld_bay_of (s : State) (f : Fld) (i v : Nat) (j : Nat) : (s.setFld f i v).bay j = s.bay j := rfl
@[simp] theorem State.setFld_bus_of (s : State) (f : Fld) (i v : Nat) (j : Nat) : (s.setFld f i v).bus j = s.bus j := rfl
@[simp] theorem State.setFld_ply_of (s : State) (f : Fld) (i v : Nat) (j : Nat) : (s.setFld f i v).ply j = s.ply j := rfl
@[simp] theorem State.setFld_core_of (s : State) (f : Fld) (i v : Nat) (j : Nat) : (s.setFld f i v).core j = s.core j := rfl
@[simp] theorem State.setFld_bend_of (s : State) (f : Fld) (i v : Nat) (j : Nat) : (s.setFld f i v).bend j = s.bend j := rfl
@[simp] theorem State.setFld_chan_of (s : State) (f : Fld) (i v : Nat) (j : Nat) : (s.setFld f i v).chan j = s.chan j := rfl
@[simp] theorem State.setFld_engine_of (s : State) (f : Fld) (i v : Nat) (j : Nat) : (s.setFld f i v).engine j = s.engine j := rfl
@[simp] theorem State.setFld_task_of (s : State) (f : Fld) (i v : Nat) (j : Nat) : (s.setFld f i v).task j = s.task j := rfl
@[simp] theorem State.setFld_pawl_of (s : State) (f : Fld) (i v : Nat) (j : Nat) : (s.setFld f i v).pawl j = s.pawl j := rfl
@[simp] theorem State.setFld_hal_of (s : State) (f : Fld) (i v : Nat) (j : Nat) : (s.setFld f i v).hal j = s.hal j := rfl

/-! ### `setByte` -/

@[simp] theorem State.setByte_pending (s : State) (a : Nat) (b : Byte) : (s.setByte a b).pending = s.pending := rfl
@[simp] theorem State.setByte_clockUs (s : State) (a : Nat) (b : Byte) : (s.setByte a b).clockUs = s.clockUs := rfl
@[simp] theorem State.setByte_fresh (s : State) (a : Nat) (b : Byte) : (s.setByte a b).fresh = s.fresh := rfl
@[simp] theorem State.setByte_out (s : State) (a : Nat) (b : Byte) : (s.setByte a b).out = s.out := rfl
@[simp] theorem State.setByte_module (s : State) (a : Nat) (b : Byte) : (s.setByte a b).module = s.module := rfl
@[simp] theorem State.setByte_outputs (s : State) (a : Nat) (b : Byte) : (s.setByte a b).outputs = s.outputs := rfl
@[simp] theorem State.setByte_regs (s : State) (a : Nat) (b : Byte) : (s.setByte a b).regs = s.regs := rfl
@[simp] theorem State.setByte_log (s : State) (a : Nat) (b : Byte) : (s.setByte a b).log = s.log := rfl
@[simp] theorem State.setByte_nvm (s : State) (a : Nat) (b : Byte) : (s.setByte a b).nvm = s.nvm := rfl
@[simp] theorem State.setByte_plate (s : State) (a : Nat) (b : Byte) : (s.setByte a b).plate = s.plate := rfl
@[simp] theorem State.setByte_cleat (s : State) (a : Nat) (b : Byte) : (s.setByte a b).cleat = s.cleat := rfl
@[simp] theorem State.setByte_fences (s : State) (a : Nat) (b : Byte) : (s.setByte a b).fences = s.fences := rfl
@[simp] theorem State.setByte_ports (s : State) (a : Nat) (b : Byte) : (s.setByte a b).ports = s.ports := rfl
@[simp] theorem State.setByte_routers (s : State) (a : Nat) (b : Byte) : (s.setByte a b).routers = s.routers := rfl
@[simp] theorem State.setByte_net (s : State) (a : Nat) (b : Byte) : (s.setByte a b).net = s.net := rfl
@[simp] theorem State.setByte_lines (s : State) (a : Nat) (b : Byte) : (s.setByte a b).lines = s.lines := rfl
@[simp] theorem State.setByte_vaults (s : State) (a : Nat) (b : Byte) : (s.setByte a b).vaults = s.vaults := rfl
@[simp] theorem State.setByte_gov (s : State) (a : Nat) (b : Byte) : (s.setByte a b).gov = s.gov := rfl
@[simp] theorem State.setByte_bays (s : State) (a : Nat) (b : Byte) : (s.setByte a b).bays = s.bays := rfl
@[simp] theorem State.setByte_invs (s : State) (a : Nat) (b : Byte) : (s.setByte a b).invs = s.invs := rfl
@[simp] theorem State.setByte_buses (s : State) (a : Nat) (b : Byte) : (s.setByte a b).buses = s.buses := rfl
@[simp] theorem State.setByte_plies (s : State) (a : Nat) (b : Byte) : (s.setByte a b).plies = s.plies := rfl
@[simp] theorem State.setByte_txns (s : State) (a : Nat) (b : Byte) : (s.setByte a b).txns = s.txns := rfl
@[simp] theorem State.setByte_strRsv (s : State) (a : Nat) (b : Byte) : (s.setByte a b).strRsv = s.strRsv := rfl
@[simp] theorem State.setByte_keys (s : State) (a : Nat) (b : Byte) : (s.setByte a b).keys = s.keys := rfl
@[simp] theorem State.setByte_cores (s : State) (a : Nat) (b : Byte) : (s.setByte a b).cores = s.cores := rfl
@[simp] theorem State.setByte_bends (s : State) (a : Nat) (b : Byte) : (s.setByte a b).bends = s.bends := rfl
@[simp] theorem State.setByte_channels (s : State) (a : Nat) (b : Byte) : (s.setByte a b).channels = s.channels := rfl
@[simp] theorem State.setByte_engines (s : State) (a : Nat) (b : Byte) : (s.setByte a b).engines = s.engines := rfl
@[simp] theorem State.setByte_cap (s : State) (a : Nat) (b : Byte) : (s.setByte a b).cap = s.cap := rfl
@[simp] theorem State.setByte_pawls (s : State) (a : Nat) (b : Byte) : (s.setByte a b).pawls = s.pawls := rfl
@[simp] theorem State.setByte_power (s : State) (a : Nat) (b : Byte) : (s.setByte a b).power = s.power := rfl
@[simp] theorem State.setByte_halyards (s : State) (a : Nat) (b : Byte) : (s.setByte a b).halyards = s.halyards := rfl
@[simp] theorem State.setByte_fld_of (s : State) (a : Nat) (b : Byte) (g : Fld) (j : Nat) : (s.setByte a b).fld g j = s.fld g j := rfl
@[simp] theorem State.setByte_port_of (s : State) (a : Nat) (b : Byte) (j : Nat) : (s.setByte a b).port j = s.port j := rfl
@[simp] theorem State.setByte_router_of (s : State) (a : Nat) (b : Byte) (j : Nat) : (s.setByte a b).router j = s.router j := rfl
@[simp] theorem State.setByte_line_of (s : State) (a : Nat) (b : Byte) (j : Nat) : (s.setByte a b).line j = s.line j := rfl
@[simp] theorem State.setByte_vault_of (s : State) (a : Nat) (b : Byte) (j : Nat) : (s.setByte a b).vault j = s.vault j := rfl
@[simp] theorem State.setByte_bay_of (s : State) (a : Nat) (b : Byte) (j : Nat) : (s.setByte a b).bay j = s.bay j := rfl
@[simp] theorem State.setByte_bus_of (s : State) (a : Nat) (b : Byte) (j : Nat) : (s.setByte a b).bus j = s.bus j := rfl
@[simp] theorem State.setByte_ply_of (s : State) (a : Nat) (b : Byte) (j : Nat) : (s.setByte a b).ply j = s.ply j := rfl
@[simp] theorem State.setByte_core_of (s : State) (a : Nat) (b : Byte) (j : Nat) : (s.setByte a b).core j = s.core j := rfl
@[simp] theorem State.setByte_bend_of (s : State) (a : Nat) (b : Byte) (j : Nat) : (s.setByte a b).bend j = s.bend j := rfl
@[simp] theorem State.setByte_chan_of (s : State) (a : Nat) (b : Byte) (j : Nat) : (s.setByte a b).chan j = s.chan j := rfl
@[simp] theorem State.setByte_engine_of (s : State) (a : Nat) (b : Byte) (j : Nat) : (s.setByte a b).engine j = s.engine j := rfl
@[simp] theorem State.setByte_task_of (s : State) (a : Nat) (b : Byte) (j : Nat) : (s.setByte a b).task j = s.task j := rfl
@[simp] theorem State.setByte_pawl_of (s : State) (a : Nat) (b : Byte) (j : Nat) : (s.setByte a b).pawl j = s.pawl j := rfl
@[simp] theorem State.setByte_hal_of (s : State) (a : Nat) (b : Byte) (j : Nat) : (s.setByte a b).hal j = s.hal j := rfl

/-! ### `setPort` -/

@[simp] theorem State.setPort_pending (s : State) (p : Nat) (v : Port) : (s.setPort p v).pending = s.pending := rfl
@[simp] theorem State.setPort_clockUs (s : State) (p : Nat) (v : Port) : (s.setPort p v).clockUs = s.clockUs := rfl
@[simp] theorem State.setPort_fresh (s : State) (p : Nat) (v : Port) : (s.setPort p v).fresh = s.fresh := rfl
@[simp] theorem State.setPort_out (s : State) (p : Nat) (v : Port) : (s.setPort p v).out = s.out := rfl
@[simp] theorem State.setPort_module (s : State) (p : Nat) (v : Port) : (s.setPort p v).module = s.module := rfl
@[simp] theorem State.setPort_outputs (s : State) (p : Nat) (v : Port) : (s.setPort p v).outputs = s.outputs := rfl
@[simp] theorem State.setPort_regs (s : State) (p : Nat) (v : Port) : (s.setPort p v).regs = s.regs := rfl
@[simp] theorem State.setPort_mem (s : State) (p : Nat) (v : Port) : (s.setPort p v).mem = s.mem := rfl
@[simp] theorem State.setPort_log (s : State) (p : Nat) (v : Port) : (s.setPort p v).log = s.log := rfl
@[simp] theorem State.setPort_nvm (s : State) (p : Nat) (v : Port) : (s.setPort p v).nvm = s.nvm := rfl
@[simp] theorem State.setPort_plate (s : State) (p : Nat) (v : Port) : (s.setPort p v).plate = s.plate := rfl
@[simp] theorem State.setPort_cleat (s : State) (p : Nat) (v : Port) : (s.setPort p v).cleat = s.cleat := rfl
@[simp] theorem State.setPort_fences (s : State) (p : Nat) (v : Port) : (s.setPort p v).fences = s.fences := rfl
@[simp] theorem State.setPort_routers (s : State) (p : Nat) (v : Port) : (s.setPort p v).routers = s.routers := rfl
@[simp] theorem State.setPort_net (s : State) (p : Nat) (v : Port) : (s.setPort p v).net = s.net := rfl
@[simp] theorem State.setPort_lines (s : State) (p : Nat) (v : Port) : (s.setPort p v).lines = s.lines := rfl
@[simp] theorem State.setPort_vaults (s : State) (p : Nat) (v : Port) : (s.setPort p v).vaults = s.vaults := rfl
@[simp] theorem State.setPort_gov (s : State) (p : Nat) (v : Port) : (s.setPort p v).gov = s.gov := rfl
@[simp] theorem State.setPort_bays (s : State) (p : Nat) (v : Port) : (s.setPort p v).bays = s.bays := rfl
@[simp] theorem State.setPort_invs (s : State) (p : Nat) (v : Port) : (s.setPort p v).invs = s.invs := rfl
@[simp] theorem State.setPort_buses (s : State) (p : Nat) (v : Port) : (s.setPort p v).buses = s.buses := rfl
@[simp] theorem State.setPort_plies (s : State) (p : Nat) (v : Port) : (s.setPort p v).plies = s.plies := rfl
@[simp] theorem State.setPort_txns (s : State) (p : Nat) (v : Port) : (s.setPort p v).txns = s.txns := rfl
@[simp] theorem State.setPort_strRsv (s : State) (p : Nat) (v : Port) : (s.setPort p v).strRsv = s.strRsv := rfl
@[simp] theorem State.setPort_keys (s : State) (p : Nat) (v : Port) : (s.setPort p v).keys = s.keys := rfl
@[simp] theorem State.setPort_cores (s : State) (p : Nat) (v : Port) : (s.setPort p v).cores = s.cores := rfl
@[simp] theorem State.setPort_bends (s : State) (p : Nat) (v : Port) : (s.setPort p v).bends = s.bends := rfl
@[simp] theorem State.setPort_channels (s : State) (p : Nat) (v : Port) : (s.setPort p v).channels = s.channels := rfl
@[simp] theorem State.setPort_engines (s : State) (p : Nat) (v : Port) : (s.setPort p v).engines = s.engines := rfl
@[simp] theorem State.setPort_cap (s : State) (p : Nat) (v : Port) : (s.setPort p v).cap = s.cap := rfl
@[simp] theorem State.setPort_pawls (s : State) (p : Nat) (v : Port) : (s.setPort p v).pawls = s.pawls := rfl
@[simp] theorem State.setPort_power (s : State) (p : Nat) (v : Port) : (s.setPort p v).power = s.power := rfl
@[simp] theorem State.setPort_halyards (s : State) (p : Nat) (v : Port) : (s.setPort p v).halyards = s.halyards := rfl
@[simp] theorem State.setPort_fld_of (s : State) (p : Nat) (v : Port) (g : Fld) (j : Nat) : (s.setPort p v).fld g j = s.fld g j := rfl
@[simp] theorem State.setPort_byte_of (s : State) (p : Nat) (v : Port) (x : Nat) : (s.setPort p v).byte x = s.byte x := rfl
@[simp] theorem State.setPort_router_of (s : State) (p : Nat) (v : Port) (j : Nat) : (s.setPort p v).router j = s.router j := rfl
@[simp] theorem State.setPort_line_of (s : State) (p : Nat) (v : Port) (j : Nat) : (s.setPort p v).line j = s.line j := rfl
@[simp] theorem State.setPort_vault_of (s : State) (p : Nat) (v : Port) (j : Nat) : (s.setPort p v).vault j = s.vault j := rfl
@[simp] theorem State.setPort_bay_of (s : State) (p : Nat) (v : Port) (j : Nat) : (s.setPort p v).bay j = s.bay j := rfl
@[simp] theorem State.setPort_bus_of (s : State) (p : Nat) (v : Port) (j : Nat) : (s.setPort p v).bus j = s.bus j := rfl
@[simp] theorem State.setPort_ply_of (s : State) (p : Nat) (v : Port) (j : Nat) : (s.setPort p v).ply j = s.ply j := rfl
@[simp] theorem State.setPort_core_of (s : State) (p : Nat) (v : Port) (j : Nat) : (s.setPort p v).core j = s.core j := rfl
@[simp] theorem State.setPort_bend_of (s : State) (p : Nat) (v : Port) (j : Nat) : (s.setPort p v).bend j = s.bend j := rfl
@[simp] theorem State.setPort_chan_of (s : State) (p : Nat) (v : Port) (j : Nat) : (s.setPort p v).chan j = s.chan j := rfl
@[simp] theorem State.setPort_engine_of (s : State) (p : Nat) (v : Port) (j : Nat) : (s.setPort p v).engine j = s.engine j := rfl
@[simp] theorem State.setPort_task_of (s : State) (p : Nat) (v : Port) (j : Nat) : (s.setPort p v).task j = s.task j := rfl
@[simp] theorem State.setPort_pawl_of (s : State) (p : Nat) (v : Port) (j : Nat) : (s.setPort p v).pawl j = s.pawl j := rfl
@[simp] theorem State.setPort_hal_of (s : State) (p : Nat) (v : Port) (j : Nat) : (s.setPort p v).hal j = s.hal j := rfl
@[simp] theorem State.setPort_port_same (s : State) (p : Nat) (v : Port) : (s.setPort p v).port p = v := by simp [State.port, State.setPort]
theorem State.setPort_port_other (s : State) (p : Nat) (v : Port) {j : Nat} (h : j ≠ p) : (s.setPort p v).port j = s.port j := SMap.get_set_other _ _ _ h

/-! ### `setRouter` -/

@[simp] theorem State.setRouter_pending (s : State) (k : Nat) (v : Router) : (s.setRouter k v).pending = s.pending := rfl
@[simp] theorem State.setRouter_clockUs (s : State) (k : Nat) (v : Router) : (s.setRouter k v).clockUs = s.clockUs := rfl
@[simp] theorem State.setRouter_fresh (s : State) (k : Nat) (v : Router) : (s.setRouter k v).fresh = s.fresh := rfl
@[simp] theorem State.setRouter_out (s : State) (k : Nat) (v : Router) : (s.setRouter k v).out = s.out := rfl
@[simp] theorem State.setRouter_module (s : State) (k : Nat) (v : Router) : (s.setRouter k v).module = s.module := rfl
@[simp] theorem State.setRouter_outputs (s : State) (k : Nat) (v : Router) : (s.setRouter k v).outputs = s.outputs := rfl
@[simp] theorem State.setRouter_regs (s : State) (k : Nat) (v : Router) : (s.setRouter k v).regs = s.regs := rfl
@[simp] theorem State.setRouter_mem (s : State) (k : Nat) (v : Router) : (s.setRouter k v).mem = s.mem := rfl
@[simp] theorem State.setRouter_log (s : State) (k : Nat) (v : Router) : (s.setRouter k v).log = s.log := rfl
@[simp] theorem State.setRouter_nvm (s : State) (k : Nat) (v : Router) : (s.setRouter k v).nvm = s.nvm := rfl
@[simp] theorem State.setRouter_plate (s : State) (k : Nat) (v : Router) : (s.setRouter k v).plate = s.plate := rfl
@[simp] theorem State.setRouter_cleat (s : State) (k : Nat) (v : Router) : (s.setRouter k v).cleat = s.cleat := rfl
@[simp] theorem State.setRouter_fences (s : State) (k : Nat) (v : Router) : (s.setRouter k v).fences = s.fences := rfl
@[simp] theorem State.setRouter_ports (s : State) (k : Nat) (v : Router) : (s.setRouter k v).ports = s.ports := rfl
@[simp] theorem State.setRouter_net (s : State) (k : Nat) (v : Router) : (s.setRouter k v).net = s.net := rfl
@[simp] theorem State.setRouter_lines (s : State) (k : Nat) (v : Router) : (s.setRouter k v).lines = s.lines := rfl
@[simp] theorem State.setRouter_vaults (s : State) (k : Nat) (v : Router) : (s.setRouter k v).vaults = s.vaults := rfl
@[simp] theorem State.setRouter_gov (s : State) (k : Nat) (v : Router) : (s.setRouter k v).gov = s.gov := rfl
@[simp] theorem State.setRouter_bays (s : State) (k : Nat) (v : Router) : (s.setRouter k v).bays = s.bays := rfl
@[simp] theorem State.setRouter_invs (s : State) (k : Nat) (v : Router) : (s.setRouter k v).invs = s.invs := rfl
@[simp] theorem State.setRouter_buses (s : State) (k : Nat) (v : Router) : (s.setRouter k v).buses = s.buses := rfl
@[simp] theorem State.setRouter_plies (s : State) (k : Nat) (v : Router) : (s.setRouter k v).plies = s.plies := rfl
@[simp] theorem State.setRouter_txns (s : State) (k : Nat) (v : Router) : (s.setRouter k v).txns = s.txns := rfl
@[simp] theorem State.setRouter_strRsv (s : State) (k : Nat) (v : Router) : (s.setRouter k v).strRsv = s.strRsv := rfl
@[simp] theorem State.setRouter_keys (s : State) (k : Nat) (v : Router) : (s.setRouter k v).keys = s.keys := rfl
@[simp] theorem State.setRouter_cores (s : State) (k : Nat) (v : Router) : (s.setRouter k v).cores = s.cores := rfl
@[simp] theorem State.setRouter_bends (s : State) (k : Nat) (v : Router) : (s.setRouter k v).bends = s.bends := rfl
@[simp] theorem State.setRouter_channels (s : State) (k : Nat) (v : Router) : (s.setRouter k v).channels = s.channels := rfl
@[simp] theorem State.setRouter_engines (s : State) (k : Nat) (v : Router) : (s.setRouter k v).engines = s.engines := rfl
@[simp] theorem State.setRouter_cap (s : State) (k : Nat) (v : Router) : (s.setRouter k v).cap = s.cap := rfl
@[simp] theorem State.setRouter_pawls (s : State) (k : Nat) (v : Router) : (s.setRouter k v).pawls = s.pawls := rfl
@[simp] theorem State.setRouter_power (s : State) (k : Nat) (v : Router) : (s.setRouter k v).power = s.power := rfl
@[simp] theorem State.setRouter_halyards (s : State) (k : Nat) (v : Router) : (s.setRouter k v).halyards = s.halyards := rfl
@[simp] theorem State.setRouter_fld_of (s : State) (k : Nat) (v : Router) (g : Fld) (j : Nat) : (s.setRouter k v).fld g j = s.fld g j := rfl
@[simp] theorem State.setRouter_byte_of (s : State) (k : Nat) (v : Router) (x : Nat) : (s.setRouter k v).byte x = s.byte x := rfl
@[simp] theorem State.setRouter_port_of (s : State) (k : Nat) (v : Router) (j : Nat) : (s.setRouter k v).port j = s.port j := rfl
@[simp] theorem State.setRouter_line_of (s : State) (k : Nat) (v : Router) (j : Nat) : (s.setRouter k v).line j = s.line j := rfl
@[simp] theorem State.setRouter_vault_of (s : State) (k : Nat) (v : Router) (j : Nat) : (s.setRouter k v).vault j = s.vault j := rfl
@[simp] theorem State.setRouter_bay_of (s : State) (k : Nat) (v : Router) (j : Nat) : (s.setRouter k v).bay j = s.bay j := rfl
@[simp] theorem State.setRouter_bus_of (s : State) (k : Nat) (v : Router) (j : Nat) : (s.setRouter k v).bus j = s.bus j := rfl
@[simp] theorem State.setRouter_ply_of (s : State) (k : Nat) (v : Router) (j : Nat) : (s.setRouter k v).ply j = s.ply j := rfl
@[simp] theorem State.setRouter_core_of (s : State) (k : Nat) (v : Router) (j : Nat) : (s.setRouter k v).core j = s.core j := rfl
@[simp] theorem State.setRouter_bend_of (s : State) (k : Nat) (v : Router) (j : Nat) : (s.setRouter k v).bend j = s.bend j := rfl
@[simp] theorem State.setRouter_chan_of (s : State) (k : Nat) (v : Router) (j : Nat) : (s.setRouter k v).chan j = s.chan j := rfl
@[simp] theorem State.setRouter_engine_of (s : State) (k : Nat) (v : Router) (j : Nat) : (s.setRouter k v).engine j = s.engine j := rfl
@[simp] theorem State.setRouter_task_of (s : State) (k : Nat) (v : Router) (j : Nat) : (s.setRouter k v).task j = s.task j := rfl
@[simp] theorem State.setRouter_pawl_of (s : State) (k : Nat) (v : Router) (j : Nat) : (s.setRouter k v).pawl j = s.pawl j := rfl
@[simp] theorem State.setRouter_hal_of (s : State) (k : Nat) (v : Router) (j : Nat) : (s.setRouter k v).hal j = s.hal j := rfl
@[simp] theorem State.setRouter_router_same (s : State) (k : Nat) (v : Router) : (s.setRouter k v).router k = v := by simp [State.router, State.setRouter]
theorem State.setRouter_router_other (s : State) (k : Nat) (v : Router) {j : Nat} (h : j ≠ k) : (s.setRouter k v).router j = s.router j := SMap.get_set_other _ _ _ h

/-! ### `setLine` -/

@[simp] theorem State.setLine_pending (s : State) (l : Nat) (v : LineMeta) : (s.setLine l v).pending = s.pending := rfl
@[simp] theorem State.setLine_clockUs (s : State) (l : Nat) (v : LineMeta) : (s.setLine l v).clockUs = s.clockUs := rfl
@[simp] theorem State.setLine_fresh (s : State) (l : Nat) (v : LineMeta) : (s.setLine l v).fresh = s.fresh := rfl
@[simp] theorem State.setLine_out (s : State) (l : Nat) (v : LineMeta) : (s.setLine l v).out = s.out := rfl
@[simp] theorem State.setLine_module (s : State) (l : Nat) (v : LineMeta) : (s.setLine l v).module = s.module := rfl
@[simp] theorem State.setLine_outputs (s : State) (l : Nat) (v : LineMeta) : (s.setLine l v).outputs = s.outputs := rfl
@[simp] theorem State.setLine_regs (s : State) (l : Nat) (v : LineMeta) : (s.setLine l v).regs = s.regs := rfl
@[simp] theorem State.setLine_mem (s : State) (l : Nat) (v : LineMeta) : (s.setLine l v).mem = s.mem := rfl
@[simp] theorem State.setLine_log (s : State) (l : Nat) (v : LineMeta) : (s.setLine l v).log = s.log := rfl
@[simp] theorem State.setLine_nvm (s : State) (l : Nat) (v : LineMeta) : (s.setLine l v).nvm = s.nvm := rfl
@[simp] theorem State.setLine_plate (s : State) (l : Nat) (v : LineMeta) : (s.setLine l v).plate = s.plate := rfl
@[simp] theorem State.setLine_cleat (s : State) (l : Nat) (v : LineMeta) : (s.setLine l v).cleat = s.cleat := rfl
@[simp] theorem State.setLine_fences (s : State) (l : Nat) (v : LineMeta) : (s.setLine l v).fences = s.fences := rfl
@[simp] theorem State.setLine_ports (s : State) (l : Nat) (v : LineMeta) : (s.setLine l v).ports = s.ports := rfl
@[simp] theorem State.setLine_routers (s : State) (l : Nat) (v : LineMeta) : (s.setLine l v).routers = s.routers := rfl
@[simp] theorem State.setLine_net (s : State) (l : Nat) (v : LineMeta) : (s.setLine l v).net = s.net := rfl
@[simp] theorem State.setLine_vaults (s : State) (l : Nat) (v : LineMeta) : (s.setLine l v).vaults = s.vaults := rfl
@[simp] theorem State.setLine_gov (s : State) (l : Nat) (v : LineMeta) : (s.setLine l v).gov = s.gov := rfl
@[simp] theorem State.setLine_bays (s : State) (l : Nat) (v : LineMeta) : (s.setLine l v).bays = s.bays := rfl
@[simp] theorem State.setLine_invs (s : State) (l : Nat) (v : LineMeta) : (s.setLine l v).invs = s.invs := rfl
@[simp] theorem State.setLine_buses (s : State) (l : Nat) (v : LineMeta) : (s.setLine l v).buses = s.buses := rfl
@[simp] theorem State.setLine_plies (s : State) (l : Nat) (v : LineMeta) : (s.setLine l v).plies = s.plies := rfl
@[simp] theorem State.setLine_txns (s : State) (l : Nat) (v : LineMeta) : (s.setLine l v).txns = s.txns := rfl
@[simp] theorem State.setLine_strRsv (s : State) (l : Nat) (v : LineMeta) : (s.setLine l v).strRsv = s.strRsv := rfl
@[simp] theorem State.setLine_keys (s : State) (l : Nat) (v : LineMeta) : (s.setLine l v).keys = s.keys := rfl
@[simp] theorem State.setLine_cores (s : State) (l : Nat) (v : LineMeta) : (s.setLine l v).cores = s.cores := rfl
@[simp] theorem State.setLine_bends (s : State) (l : Nat) (v : LineMeta) : (s.setLine l v).bends = s.bends := rfl
@[simp] theorem State.setLine_channels (s : State) (l : Nat) (v : LineMeta) : (s.setLine l v).channels = s.channels := rfl
@[simp] theorem State.setLine_engines (s : State) (l : Nat) (v : LineMeta) : (s.setLine l v).engines = s.engines := rfl
@[simp] theorem State.setLine_cap (s : State) (l : Nat) (v : LineMeta) : (s.setLine l v).cap = s.cap := rfl
@[simp] theorem State.setLine_pawls (s : State) (l : Nat) (v : LineMeta) : (s.setLine l v).pawls = s.pawls := rfl
@[simp] theorem State.setLine_power (s : State) (l : Nat) (v : LineMeta) : (s.setLine l v).power = s.power := rfl
@[simp] theorem State.setLine_halyards (s : State) (l : Nat) (v : LineMeta) : (s.setLine l v).halyards = s.halyards := rfl
@[simp] theorem State.setLine_fld_of (s : State) (l : Nat) (v : LineMeta) (g : Fld) (j : Nat) : (s.setLine l v).fld g j = s.fld g j := rfl
@[simp] theorem State.setLine_byte_of (s : State) (l : Nat) (v : LineMeta) (x : Nat) : (s.setLine l v).byte x = s.byte x := rfl
@[simp] theorem State.setLine_port_of (s : State) (l : Nat) (v : LineMeta) (j : Nat) : (s.setLine l v).port j = s.port j := rfl
@[simp] theorem State.setLine_router_of (s : State) (l : Nat) (v : LineMeta) (j : Nat) : (s.setLine l v).router j = s.router j := rfl
@[simp] theorem State.setLine_vault_of (s : State) (l : Nat) (v : LineMeta) (j : Nat) : (s.setLine l v).vault j = s.vault j := rfl
@[simp] theorem State.setLine_bay_of (s : State) (l : Nat) (v : LineMeta) (j : Nat) : (s.setLine l v).bay j = s.bay j := rfl
@[simp] theorem State.setLine_bus_of (s : State) (l : Nat) (v : LineMeta) (j : Nat) : (s.setLine l v).bus j = s.bus j := rfl
@[simp] theorem State.setLine_ply_of (s : State) (l : Nat) (v : LineMeta) (j : Nat) : (s.setLine l v).ply j = s.ply j := rfl
@[simp] theorem State.setLine_core_of (s : State) (l : Nat) (v : LineMeta) (j : Nat) : (s.setLine l v).core j = s.core j := rfl
@[simp] theorem State.setLine_bend_of (s : State) (l : Nat) (v : LineMeta) (j : Nat) : (s.setLine l v).bend j = s.bend j := rfl
@[simp] theorem State.setLine_chan_of (s : State) (l : Nat) (v : LineMeta) (j : Nat) : (s.setLine l v).chan j = s.chan j := rfl
@[simp] theorem State.setLine_engine_of (s : State) (l : Nat) (v : LineMeta) (j : Nat) : (s.setLine l v).engine j = s.engine j := rfl
@[simp] theorem State.setLine_task_of (s : State) (l : Nat) (v : LineMeta) (j : Nat) : (s.setLine l v).task j = s.task j := rfl
@[simp] theorem State.setLine_pawl_of (s : State) (l : Nat) (v : LineMeta) (j : Nat) : (s.setLine l v).pawl j = s.pawl j := rfl
@[simp] theorem State.setLine_hal_of (s : State) (l : Nat) (v : LineMeta) (j : Nat) : (s.setLine l v).hal j = s.hal j := rfl
@[simp] theorem State.setLine_line_same (s : State) (l : Nat) (v : LineMeta) : (s.setLine l v).line l = v := by simp [State.line, State.setLine]
theorem State.setLine_line_other (s : State) (l : Nat) (v : LineMeta) {j : Nat} (h : j ≠ l) : (s.setLine l v).line j = s.line j := SMap.get_set_other _ _ _ h

/-! ### `setVault` -/

@[simp] theorem State.setVault_pending (s : State) (k : Nat) (v : Vault) : (s.setVault k v).pending = s.pending := rfl
@[simp] theorem State.setVault_clockUs (s : State) (k : Nat) (v : Vault) : (s.setVault k v).clockUs = s.clockUs := rfl
@[simp] theorem State.setVault_fresh (s : State) (k : Nat) (v : Vault) : (s.setVault k v).fresh = s.fresh := rfl
@[simp] theorem State.setVault_out (s : State) (k : Nat) (v : Vault) : (s.setVault k v).out = s.out := rfl
@[simp] theorem State.setVault_module (s : State) (k : Nat) (v : Vault) : (s.setVault k v).module = s.module := rfl
@[simp] theorem State.setVault_outputs (s : State) (k : Nat) (v : Vault) : (s.setVault k v).outputs = s.outputs := rfl
@[simp] theorem State.setVault_regs (s : State) (k : Nat) (v : Vault) : (s.setVault k v).regs = s.regs := rfl
@[simp] theorem State.setVault_mem (s : State) (k : Nat) (v : Vault) : (s.setVault k v).mem = s.mem := rfl
@[simp] theorem State.setVault_log (s : State) (k : Nat) (v : Vault) : (s.setVault k v).log = s.log := rfl
@[simp] theorem State.setVault_nvm (s : State) (k : Nat) (v : Vault) : (s.setVault k v).nvm = s.nvm := rfl
@[simp] theorem State.setVault_plate (s : State) (k : Nat) (v : Vault) : (s.setVault k v).plate = s.plate := rfl
@[simp] theorem State.setVault_cleat (s : State) (k : Nat) (v : Vault) : (s.setVault k v).cleat = s.cleat := rfl
@[simp] theorem State.setVault_fences (s : State) (k : Nat) (v : Vault) : (s.setVault k v).fences = s.fences := rfl
@[simp] theorem State.setVault_ports (s : State) (k : Nat) (v : Vault) : (s.setVault k v).ports = s.ports := rfl
@[simp] theorem State.setVault_routers (s : State) (k : Nat) (v : Vault) : (s.setVault k v).routers = s.routers := rfl
@[simp] theorem State.setVault_net (s : State) (k : Nat) (v : Vault) : (s.setVault k v).net = s.net := rfl
@[simp] theorem State.setVault_lines (s : State) (k : Nat) (v : Vault) : (s.setVault k v).lines = s.lines := rfl
@[simp] theorem State.setVault_gov (s : State) (k : Nat) (v : Vault) : (s.setVault k v).gov = s.gov := rfl
@[simp] theorem State.setVault_bays (s : State) (k : Nat) (v : Vault) : (s.setVault k v).bays = s.bays := rfl
@[simp] theorem State.setVault_invs (s : State) (k : Nat) (v : Vault) : (s.setVault k v).invs = s.invs := rfl
@[simp] theorem State.setVault_buses (s : State) (k : Nat) (v : Vault) : (s.setVault k v).buses = s.buses := rfl
@[simp] theorem State.setVault_plies (s : State) (k : Nat) (v : Vault) : (s.setVault k v).plies = s.plies := rfl
@[simp] theorem State.setVault_txns (s : State) (k : Nat) (v : Vault) : (s.setVault k v).txns = s.txns := rfl
@[simp] theorem State.setVault_strRsv (s : State) (k : Nat) (v : Vault) : (s.setVault k v).strRsv = s.strRsv := rfl
@[simp] theorem State.setVault_keys (s : State) (k : Nat) (v : Vault) : (s.setVault k v).keys = s.keys := rfl
@[simp] theorem State.setVault_cores (s : State) (k : Nat) (v : Vault) : (s.setVault k v).cores = s.cores := rfl
@[simp] theorem State.setVault_bends (s : State) (k : Nat) (v : Vault) : (s.setVault k v).bends = s.bends := rfl
@[simp] theorem State.setVault_channels (s : State) (k : Nat) (v : Vault) : (s.setVault k v).channels = s.channels := rfl
@[simp] theorem State.setVault_engines (s : State) (k : Nat) (v : Vault) : (s.setVault k v).engines = s.engines := rfl
@[simp] theorem State.setVault_cap (s : State) (k : Nat) (v : Vault) : (s.setVault k v).cap = s.cap := rfl
@[simp] theorem State.setVault_pawls (s : State) (k : Nat) (v : Vault) : (s.setVault k v).pawls = s.pawls := rfl
@[simp] theorem State.setVault_power (s : State) (k : Nat) (v : Vault) : (s.setVault k v).power = s.power := rfl
@[simp] theorem State.setVault_halyards (s : State) (k : Nat) (v : Vault) : (s.setVault k v).halyards = s.halyards := rfl
@[simp] theorem State.setVault_fld_of (s : State) (k : Nat) (v : Vault) (g : Fld) (j : Nat) : (s.setVault k v).fld g j = s.fld g j := rfl
@[simp] theorem State.setVault_byte_of (s : State) (k : Nat) (v : Vault) (x : Nat) : (s.setVault k v).byte x = s.byte x := rfl
@[simp] theorem State.setVault_port_of (s : State) (k : Nat) (v : Vault) (j : Nat) : (s.setVault k v).port j = s.port j := rfl
@[simp] theorem State.setVault_router_of (s : State) (k : Nat) (v : Vault) (j : Nat) : (s.setVault k v).router j = s.router j := rfl
@[simp] theorem State.setVault_line_of (s : State) (k : Nat) (v : Vault) (j : Nat) : (s.setVault k v).line j = s.line j := rfl
@[simp] theorem State.setVault_bay_of (s : State) (k : Nat) (v : Vault) (j : Nat) : (s.setVault k v).bay j = s.bay j := rfl
@[simp] theorem State.setVault_bus_of (s : State) (k : Nat) (v : Vault) (j : Nat) : (s.setVault k v).bus j = s.bus j := rfl
@[simp] theorem State.setVault_ply_of (s : State) (k : Nat) (v : Vault) (j : Nat) : (s.setVault k v).ply j = s.ply j := rfl
@[simp] theorem State.setVault_core_of (s : State) (k : Nat) (v : Vault) (j : Nat) : (s.setVault k v).core j = s.core j := rfl
@[simp] theorem State.setVault_bend_of (s : State) (k : Nat) (v : Vault) (j : Nat) : (s.setVault k v).bend j = s.bend j := rfl
@[simp] theorem State.setVault_chan_of (s : State) (k : Nat) (v : Vault) (j : Nat) : (s.setVault k v).chan j = s.chan j := rfl
@[simp] theorem State.setVault_engine_of (s : State) (k : Nat) (v : Vault) (j : Nat) : (s.setVault k v).engine j = s.engine j := rfl
@[simp] theorem State.setVault_task_of (s : State) (k : Nat) (v : Vault) (j : Nat) : (s.setVault k v).task j = s.task j := rfl
@[simp] theorem State.setVault_pawl_of (s : State) (k : Nat) (v : Vault) (j : Nat) : (s.setVault k v).pawl j = s.pawl j := rfl
@[simp] theorem State.setVault_hal_of (s : State) (k : Nat) (v : Vault) (j : Nat) : (s.setVault k v).hal j = s.hal j := rfl
@[simp] theorem State.setVault_vault_same (s : State) (k : Nat) (v : Vault) : (s.setVault k v).vault k = v := by simp [State.vault, State.setVault]
theorem State.setVault_vault_other (s : State) (k : Nat) (v : Vault) {j : Nat} (h : j ≠ k) : (s.setVault k v).vault j = s.vault j := SMap.get_set_other _ _ _ h

/-! ### `setBay` -/

@[simp] theorem State.setBay_pending (s : State) (k : Nat) (v : BayDat) : (s.setBay k v).pending = s.pending := rfl
@[simp] theorem State.setBay_clockUs (s : State) (k : Nat) (v : BayDat) : (s.setBay k v).clockUs = s.clockUs := rfl
@[simp] theorem State.setBay_fresh (s : State) (k : Nat) (v : BayDat) : (s.setBay k v).fresh = s.fresh := rfl
@[simp] theorem State.setBay_out (s : State) (k : Nat) (v : BayDat) : (s.setBay k v).out = s.out := rfl
@[simp] theorem State.setBay_module (s : State) (k : Nat) (v : BayDat) : (s.setBay k v).module = s.module := rfl
@[simp] theorem State.setBay_outputs (s : State) (k : Nat) (v : BayDat) : (s.setBay k v).outputs = s.outputs := rfl
@[simp] theorem State.setBay_regs (s : State) (k : Nat) (v : BayDat) : (s.setBay k v).regs = s.regs := rfl
@[simp] theorem State.setBay_mem (s : State) (k : Nat) (v : BayDat) : (s.setBay k v).mem = s.mem := rfl
@[simp] theorem State.setBay_log (s : State) (k : Nat) (v : BayDat) : (s.setBay k v).log = s.log := rfl
@[simp] theorem State.setBay_nvm (s : State) (k : Nat) (v : BayDat) : (s.setBay k v).nvm = s.nvm := rfl
@[simp] theorem State.setBay_plate (s : State) (k : Nat) (v : BayDat) : (s.setBay k v).plate = s.plate := rfl
@[simp] theorem State.setBay_cleat (s : State) (k : Nat) (v : BayDat) : (s.setBay k v).cleat = s.cleat := rfl
@[simp] theorem State.setBay_fences (s : State) (k : Nat) (v : BayDat) : (s.setBay k v).fences = s.fences := rfl
@[simp] theorem State.setBay_ports (s : State) (k : Nat) (v : BayDat) : (s.setBay k v).ports = s.ports := rfl
@[simp] theorem State.setBay_routers (s : State) (k : Nat) (v : BayDat) : (s.setBay k v).routers = s.routers := rfl
@[simp] theorem State.setBay_net (s : State) (k : Nat) (v : BayDat) : (s.setBay k v).net = s.net := rfl
@[simp] theorem State.setBay_lines (s : State) (k : Nat) (v : BayDat) : (s.setBay k v).lines = s.lines := rfl
@[simp] theorem State.setBay_vaults (s : State) (k : Nat) (v : BayDat) : (s.setBay k v).vaults = s.vaults := rfl
@[simp] theorem State.setBay_gov (s : State) (k : Nat) (v : BayDat) : (s.setBay k v).gov = s.gov := rfl
@[simp] theorem State.setBay_invs (s : State) (k : Nat) (v : BayDat) : (s.setBay k v).invs = s.invs := rfl
@[simp] theorem State.setBay_buses (s : State) (k : Nat) (v : BayDat) : (s.setBay k v).buses = s.buses := rfl
@[simp] theorem State.setBay_plies (s : State) (k : Nat) (v : BayDat) : (s.setBay k v).plies = s.plies := rfl
@[simp] theorem State.setBay_txns (s : State) (k : Nat) (v : BayDat) : (s.setBay k v).txns = s.txns := rfl
@[simp] theorem State.setBay_strRsv (s : State) (k : Nat) (v : BayDat) : (s.setBay k v).strRsv = s.strRsv := rfl
@[simp] theorem State.setBay_keys (s : State) (k : Nat) (v : BayDat) : (s.setBay k v).keys = s.keys := rfl
@[simp] theorem State.setBay_cores (s : State) (k : Nat) (v : BayDat) : (s.setBay k v).cores = s.cores := rfl
@[simp] theorem State.setBay_bends (s : State) (k : Nat) (v : BayDat) : (s.setBay k v).bends = s.bends := rfl
@[simp] theorem State.setBay_channels (s : State) (k : Nat) (v : BayDat) : (s.setBay k v).channels = s.channels := rfl
@[simp] theorem State.setBay_engines (s : State) (k : Nat) (v : BayDat) : (s.setBay k v).engines = s.engines := rfl
@[simp] theorem State.setBay_cap (s : State) (k : Nat) (v : BayDat) : (s.setBay k v).cap = s.cap := rfl
@[simp] theorem State.setBay_pawls (s : State) (k : Nat) (v : BayDat) : (s.setBay k v).pawls = s.pawls := rfl
@[simp] theorem State.setBay_power (s : State) (k : Nat) (v : BayDat) : (s.setBay k v).power = s.power := rfl
@[simp] theorem State.setBay_halyards (s : State) (k : Nat) (v : BayDat) : (s.setBay k v).halyards = s.halyards := rfl
@[simp] theorem State.setBay_fld_of (s : State) (k : Nat) (v : BayDat) (g : Fld) (j : Nat) : (s.setBay k v).fld g j = s.fld g j := rfl
@[simp] theorem State.setBay_byte_of (s : State) (k : Nat) (v : BayDat) (x : Nat) : (s.setBay k v).byte x = s.byte x := rfl
@[simp] theorem State.setBay_port_of (s : State) (k : Nat) (v : BayDat) (j : Nat) : (s.setBay k v).port j = s.port j := rfl
@[simp] theorem State.setBay_router_of (s : State) (k : Nat) (v : BayDat) (j : Nat) : (s.setBay k v).router j = s.router j := rfl
@[simp] theorem State.setBay_line_of (s : State) (k : Nat) (v : BayDat) (j : Nat) : (s.setBay k v).line j = s.line j := rfl
@[simp] theorem State.setBay_vault_of (s : State) (k : Nat) (v : BayDat) (j : Nat) : (s.setBay k v).vault j = s.vault j := rfl
@[simp] theorem State.setBay_bus_of (s : State) (k : Nat) (v : BayDat) (j : Nat) : (s.setBay k v).bus j = s.bus j := rfl
@[simp] theorem State.setBay_ply_of (s : State) (k : Nat) (v : BayDat) (j : Nat) : (s.setBay k v).ply j = s.ply j := rfl
@[simp] theorem State.setBay_core_of (s : State) (k : Nat) (v : BayDat) (j : Nat) : (s.setBay k v).core j = s.core j := rfl
@[simp] theorem State.setBay_bend_of (s : State) (k : Nat) (v : BayDat) (j : Nat) : (s.setBay k v).bend j = s.bend j := rfl
@[simp] theorem State.setBay_chan_of (s : State) (k : Nat) (v : BayDat) (j : Nat) : (s.setBay k v).chan j = s.chan j := rfl
@[simp] theorem State.setBay_engine_of (s : State) (k : Nat) (v : BayDat) (j : Nat) : (s.setBay k v).engine j = s.engine j := rfl
@[simp] theorem State.setBay_task_of (s : State) (k : Nat) (v : BayDat) (j : Nat) : (s.setBay k v).task j = s.task j := rfl
@[simp] theorem State.setBay_pawl_of (s : State) (k : Nat) (v : BayDat) (j : Nat) : (s.setBay k v).pawl j = s.pawl j := rfl
@[simp] theorem State.setBay_hal_of (s : State) (k : Nat) (v : BayDat) (j : Nat) : (s.setBay k v).hal j = s.hal j := rfl
@[simp] theorem State.setBay_bay_same (s : State) (k : Nat) (v : BayDat) : (s.setBay k v).bay k = v := by simp [State.bay, State.setBay]
theorem State.setBay_bay_other (s : State) (k : Nat) (v : BayDat) {j : Nat} (h : j ≠ k) : (s.setBay k v).bay j = s.bay j := SMap.get_set_other _ _ _ h

/-! ### `setBus` -/

@[simp] theorem State.setBus_pending (s : State) (k : Nat) (v : BayBus) : (s.setBus k v).pending = s.pending := rfl
@[simp] theorem State.setBus_clockUs (s : State) (k : Nat) (v : BayBus) : (s.setBus k v).clockUs = s.clockUs := rfl
@[simp] theorem State.setBus_fresh (s : State) (k : Nat) (v : BayBus) : (s.setBus k v).fresh = s.fresh := rfl
@[simp] theorem State.setBus_out (s : State) (k : Nat) (v : BayBus) : (s.setBus k v).out = s.out := rfl
@[simp] theorem State.setBus_module (s : State) (k : Nat) (v : BayBus) : (s.setBus k v).module = s.module := rfl
@[simp] theorem State.setBus_outputs (s : State) (k : Nat) (v : BayBus) : (s.setBus k v).outputs = s.outputs := rfl
@[simp] theorem State.setBus_regs (s : State) (k : Nat) (v : BayBus) : (s.setBus k v).regs = s.regs := rfl
@[simp] theorem State.setBus_mem (s : State) (k : Nat) (v : BayBus) : (s.setBus k v).mem = s.mem := rfl
@[simp] theorem State.setBus_log (s : State) (k : Nat) (v : BayBus) : (s.setBus k v).log = s.log := rfl
@[simp] theorem State.setBus_nvm (s : State) (k : Nat) (v : BayBus) : (s.setBus k v).nvm = s.nvm := rfl
@[simp] theorem State.setBus_plate (s : State) (k : Nat) (v : BayBus) : (s.setBus k v).plate = s.plate := rfl
@[simp] theorem State.setBus_cleat (s : State) (k : Nat) (v : BayBus) : (s.setBus k v).cleat = s.cleat := rfl
@[simp] theorem State.setBus_fences (s : State) (k : Nat) (v : BayBus) : (s.setBus k v).fences = s.fences := rfl
@[simp] theorem State.setBus_ports (s : State) (k : Nat) (v : BayBus) : (s.setBus k v).ports = s.ports := rfl
@[simp] theorem State.setBus_routers (s : State) (k : Nat) (v : BayBus) : (s.setBus k v).routers = s.routers := rfl
@[simp] theorem State.setBus_net (s : State) (k : Nat) (v : BayBus) : (s.setBus k v).net = s.net := rfl
@[simp] theorem State.setBus_lines (s : State) (k : Nat) (v : BayBus) : (s.setBus k v).lines = s.lines := rfl
@[simp] theorem State.setBus_vaults (s : State) (k : Nat) (v : BayBus) : (s.setBus k v).vaults = s.vaults := rfl
@[simp] theorem State.setBus_gov (s : State) (k : Nat) (v : BayBus) : (s.setBus k v).gov = s.gov := rfl
@[simp] theorem State.setBus_bays (s : State) (k : Nat) (v : BayBus) : (s.setBus k v).bays = s.bays := rfl
@[simp] theorem State.setBus_invs (s : State) (k : Nat) (v : BayBus) : (s.setBus k v).invs = s.invs := rfl
@[simp] theorem State.setBus_plies (s : State) (k : Nat) (v : BayBus) : (s.setBus k v).plies = s.plies := rfl
@[simp] theorem State.setBus_txns (s : State) (k : Nat) (v : BayBus) : (s.setBus k v).txns = s.txns := rfl
@[simp] theorem State.setBus_strRsv (s : State) (k : Nat) (v : BayBus) : (s.setBus k v).strRsv = s.strRsv := rfl
@[simp] theorem State.setBus_keys (s : State) (k : Nat) (v : BayBus) : (s.setBus k v).keys = s.keys := rfl
@[simp] theorem State.setBus_cores (s : State) (k : Nat) (v : BayBus) : (s.setBus k v).cores = s.cores := rfl
@[simp] theorem State.setBus_bends (s : State) (k : Nat) (v : BayBus) : (s.setBus k v).bends = s.bends := rfl
@[simp] theorem State.setBus_channels (s : State) (k : Nat) (v : BayBus) : (s.setBus k v).channels = s.channels := rfl
@[simp] theorem State.setBus_engines (s : State) (k : Nat) (v : BayBus) : (s.setBus k v).engines = s.engines := rfl
@[simp] theorem State.setBus_cap (s : State) (k : Nat) (v : BayBus) : (s.setBus k v).cap = s.cap := rfl
@[simp] theorem State.setBus_pawls (s : State) (k : Nat) (v : BayBus) : (s.setBus k v).pawls = s.pawls := rfl
@[simp] theorem State.setBus_power (s : State) (k : Nat) (v : BayBus) : (s.setBus k v).power = s.power := rfl
@[simp] theorem State.setBus_halyards (s : State) (k : Nat) (v : BayBus) : (s.setBus k v).halyards = s.halyards := rfl
@[simp] theorem State.setBus_fld_of (s : State) (k : Nat) (v : BayBus) (g : Fld) (j : Nat) : (s.setBus k v).fld g j = s.fld g j := rfl
@[simp] theorem State.setBus_byte_of (s : State) (k : Nat) (v : BayBus) (x : Nat) : (s.setBus k v).byte x = s.byte x := rfl
@[simp] theorem State.setBus_port_of (s : State) (k : Nat) (v : BayBus) (j : Nat) : (s.setBus k v).port j = s.port j := rfl
@[simp] theorem State.setBus_router_of (s : State) (k : Nat) (v : BayBus) (j : Nat) : (s.setBus k v).router j = s.router j := rfl
@[simp] theorem State.setBus_line_of (s : State) (k : Nat) (v : BayBus) (j : Nat) : (s.setBus k v).line j = s.line j := rfl
@[simp] theorem State.setBus_vault_of (s : State) (k : Nat) (v : BayBus) (j : Nat) : (s.setBus k v).vault j = s.vault j := rfl
@[simp] theorem State.setBus_bay_of (s : State) (k : Nat) (v : BayBus) (j : Nat) : (s.setBus k v).bay j = s.bay j := rfl
@[simp] theorem State.setBus_ply_of (s : State) (k : Nat) (v : BayBus) (j : Nat) : (s.setBus k v).ply j = s.ply j := rfl
@[simp] theorem State.setBus_core_of (s : State) (k : Nat) (v : BayBus) (j : Nat) : (s.setBus k v).core j = s.core j := rfl
@[simp] theorem State.setBus_bend_of (s : State) (k : Nat) (v : BayBus) (j : Nat) : (s.setBus k v).bend j = s.bend j := rfl
@[simp] theorem State.setBus_chan_of (s : State) (k : Nat) (v : BayBus) (j : Nat) : (s.setBus k v).chan j = s.chan j := rfl
@[simp] theorem State.setBus_engine_of (s : State) (k : Nat) (v : BayBus) (j : Nat) : (s.setBus k v).engine j = s.engine j := rfl
@[simp] theorem State.setBus_task_of (s : State) (k : Nat) (v : BayBus) (j : Nat) : (s.setBus k v).task j = s.task j := rfl
@[simp] theorem State.setBus_pawl_of (s : State) (k : Nat) (v : BayBus) (j : Nat) : (s.setBus k v).pawl j = s.pawl j := rfl
@[simp] theorem State.setBus_hal_of (s : State) (k : Nat) (v : BayBus) (j : Nat) : (s.setBus k v).hal j = s.hal j := rfl
@[simp] theorem State.setBus_bus_same (s : State) (k : Nat) (v : BayBus) : (s.setBus k v).bus k = v := by simp [State.bus, State.setBus]
theorem State.setBus_bus_other (s : State) (k : Nat) (v : BayBus) {j : Nat} (h : j ≠ k) : (s.setBus k v).bus j = s.bus j := SMap.get_set_other _ _ _ h

/-! ### `setPly` -/

@[simp] theorem State.setPly_pending (s : State) (k : Nat) (v : Ply) : (s.setPly k v).pending = s.pending := rfl
@[simp] theorem State.setPly_clockUs (s : State) (k : Nat) (v : Ply) : (s.setPly k v).clockUs = s.clockUs := rfl
@[simp] theorem State.setPly_fresh (s : State) (k : Nat) (v : Ply) : (s.setPly k v).fresh = s.fresh := rfl
@[simp] theorem State.setPly_out (s : State) (k : Nat) (v : Ply) : (s.setPly k v).out = s.out := rfl
@[simp] theorem State.setPly_module (s : State) (k : Nat) (v : Ply) : (s.setPly k v).module = s.module := rfl
@[simp] theorem State.setPly_outputs (s : State) (k : Nat) (v : Ply) : (s.setPly k v).outputs = s.outputs := rfl
@[simp] theorem State.setPly_regs (s : State) (k : Nat) (v : Ply) : (s.setPly k v).regs = s.regs := rfl
@[simp] theorem State.setPly_mem (s : State) (k : Nat) (v : Ply) : (s.setPly k v).mem = s.mem := rfl
@[simp] theorem State.setPly_log (s : State) (k : Nat) (v : Ply) : (s.setPly k v).log = s.log := rfl
@[simp] theorem State.setPly_nvm (s : State) (k : Nat) (v : Ply) : (s.setPly k v).nvm = s.nvm := rfl
@[simp] theorem State.setPly_plate (s : State) (k : Nat) (v : Ply) : (s.setPly k v).plate = s.plate := rfl
@[simp] theorem State.setPly_cleat (s : State) (k : Nat) (v : Ply) : (s.setPly k v).cleat = s.cleat := rfl
@[simp] theorem State.setPly_fences (s : State) (k : Nat) (v : Ply) : (s.setPly k v).fences = s.fences := rfl
@[simp] theorem State.setPly_ports (s : State) (k : Nat) (v : Ply) : (s.setPly k v).ports = s.ports := rfl
@[simp] theorem State.setPly_routers (s : State) (k : Nat) (v : Ply) : (s.setPly k v).routers = s.routers := rfl
@[simp] theorem State.setPly_net (s : State) (k : Nat) (v : Ply) : (s.setPly k v).net = s.net := rfl
@[simp] theorem State.setPly_lines (s : State) (k : Nat) (v : Ply) : (s.setPly k v).lines = s.lines := rfl
@[simp] theorem State.setPly_vaults (s : State) (k : Nat) (v : Ply) : (s.setPly k v).vaults = s.vaults := rfl
@[simp] theorem State.setPly_gov (s : State) (k : Nat) (v : Ply) : (s.setPly k v).gov = s.gov := rfl
@[simp] theorem State.setPly_bays (s : State) (k : Nat) (v : Ply) : (s.setPly k v).bays = s.bays := rfl
@[simp] theorem State.setPly_invs (s : State) (k : Nat) (v : Ply) : (s.setPly k v).invs = s.invs := rfl
@[simp] theorem State.setPly_buses (s : State) (k : Nat) (v : Ply) : (s.setPly k v).buses = s.buses := rfl
@[simp] theorem State.setPly_txns (s : State) (k : Nat) (v : Ply) : (s.setPly k v).txns = s.txns := rfl
@[simp] theorem State.setPly_strRsv (s : State) (k : Nat) (v : Ply) : (s.setPly k v).strRsv = s.strRsv := rfl
@[simp] theorem State.setPly_keys (s : State) (k : Nat) (v : Ply) : (s.setPly k v).keys = s.keys := rfl
@[simp] theorem State.setPly_cores (s : State) (k : Nat) (v : Ply) : (s.setPly k v).cores = s.cores := rfl
@[simp] theorem State.setPly_bends (s : State) (k : Nat) (v : Ply) : (s.setPly k v).bends = s.bends := rfl
@[simp] theorem State.setPly_channels (s : State) (k : Nat) (v : Ply) : (s.setPly k v).channels = s.channels := rfl
@[simp] theorem State.setPly_engines (s : State) (k : Nat) (v : Ply) : (s.setPly k v).engines = s.engines := rfl
@[simp] theorem State.setPly_cap (s : State) (k : Nat) (v : Ply) : (s.setPly k v).cap = s.cap := rfl
@[simp] theorem State.setPly_pawls (s : State) (k : Nat) (v : Ply) : (s.setPly k v).pawls = s.pawls := rfl
@[simp] theorem State.setPly_power (s : State) (k : Nat) (v : Ply) : (s.setPly k v).power = s.power := rfl
@[simp] theorem State.setPly_halyards (s : State) (k : Nat) (v : Ply) : (s.setPly k v).halyards = s.halyards := rfl
@[simp] theorem State.setPly_fld_of (s : State) (k : Nat) (v : Ply) (g : Fld) (j : Nat) : (s.setPly k v).fld g j = s.fld g j := rfl
@[simp] theorem State.setPly_byte_of (s : State) (k : Nat) (v : Ply) (x : Nat) : (s.setPly k v).byte x = s.byte x := rfl
@[simp] theorem State.setPly_port_of (s : State) (k : Nat) (v : Ply) (j : Nat) : (s.setPly k v).port j = s.port j := rfl
@[simp] theorem State.setPly_router_of (s : State) (k : Nat) (v : Ply) (j : Nat) : (s.setPly k v).router j = s.router j := rfl
@[simp] theorem State.setPly_line_of (s : State) (k : Nat) (v : Ply) (j : Nat) : (s.setPly k v).line j = s.line j := rfl
@[simp] theorem State.setPly_vault_of (s : State) (k : Nat) (v : Ply) (j : Nat) : (s.setPly k v).vault j = s.vault j := rfl
@[simp] theorem State.setPly_bay_of (s : State) (k : Nat) (v : Ply) (j : Nat) : (s.setPly k v).bay j = s.bay j := rfl
@[simp] theorem State.setPly_bus_of (s : State) (k : Nat) (v : Ply) (j : Nat) : (s.setPly k v).bus j = s.bus j := rfl
@[simp] theorem State.setPly_core_of (s : State) (k : Nat) (v : Ply) (j : Nat) : (s.setPly k v).core j = s.core j := rfl
@[simp] theorem State.setPly_bend_of (s : State) (k : Nat) (v : Ply) (j : Nat) : (s.setPly k v).bend j = s.bend j := rfl
@[simp] theorem State.setPly_chan_of (s : State) (k : Nat) (v : Ply) (j : Nat) : (s.setPly k v).chan j = s.chan j := rfl
@[simp] theorem State.setPly_engine_of (s : State) (k : Nat) (v : Ply) (j : Nat) : (s.setPly k v).engine j = s.engine j := rfl
@[simp] theorem State.setPly_task_of (s : State) (k : Nat) (v : Ply) (j : Nat) : (s.setPly k v).task j = s.task j := rfl
@[simp] theorem State.setPly_pawl_of (s : State) (k : Nat) (v : Ply) (j : Nat) : (s.setPly k v).pawl j = s.pawl j := rfl
@[simp] theorem State.setPly_hal_of (s : State) (k : Nat) (v : Ply) (j : Nat) : (s.setPly k v).hal j = s.hal j := rfl
@[simp] theorem State.setPly_ply_same (s : State) (k : Nat) (v : Ply) : (s.setPly k v).ply k = v := by simp [State.ply, State.setPly]
theorem State.setPly_ply_other (s : State) (k : Nat) (v : Ply) {j : Nat} (h : j ≠ k) : (s.setPly k v).ply j = s.ply j := SMap.get_set_other _ _ _ h

/-! ### `setCore` -/

@[simp] theorem State.setCore_pending (s : State) (c : Nat) (v : Core) : (s.setCore c v).pending = s.pending := rfl
@[simp] theorem State.setCore_clockUs (s : State) (c : Nat) (v : Core) : (s.setCore c v).clockUs = s.clockUs := rfl
@[simp] theorem State.setCore_fresh (s : State) (c : Nat) (v : Core) : (s.setCore c v).fresh = s.fresh := rfl
@[simp] theorem State.setCore_out (s : State) (c : Nat) (v : Core) : (s.setCore c v).out = s.out := rfl
@[simp] theorem State.setCore_module (s : State) (c : Nat) (v : Core) : (s.setCore c v).module = s.module := rfl
@[simp] theorem State.setCore_outputs (s : State) (c : Nat) (v : Core) : (s.setCore c v).outputs = s.outputs := rfl
@[simp] theorem State.setCore_regs (s : State) (c : Nat) (v : Core) : (s.setCore c v).regs = s.regs := rfl
@[simp] theorem State.setCore_mem (s : State) (c : Nat) (v : Core) : (s.setCore c v).mem = s.mem := rfl
@[simp] theorem State.setCore_log (s : State) (c : Nat) (v : Core) : (s.setCore c v).log = s.log := rfl
@[simp] theorem State.setCore_nvm (s : State) (c : Nat) (v : Core) : (s.setCore c v).nvm = s.nvm := rfl
@[simp] theorem State.setCore_plate (s : State) (c : Nat) (v : Core) : (s.setCore c v).plate = s.plate := rfl
@[simp] theorem State.setCore_cleat (s : State) (c : Nat) (v : Core) : (s.setCore c v).cleat = s.cleat := rfl
@[simp] theorem State.setCore_fences (s : State) (c : Nat) (v : Core) : (s.setCore c v).fences = s.fences := rfl
@[simp] theorem State.setCore_ports (s : State) (c : Nat) (v : Core) : (s.setCore c v).ports = s.ports := rfl
@[simp] theorem State.setCore_routers (s : State) (c : Nat) (v : Core) : (s.setCore c v).routers = s.routers := rfl
@[simp] theorem State.setCore_net (s : State) (c : Nat) (v : Core) : (s.setCore c v).net = s.net := rfl
@[simp] theorem State.setCore_lines (s : State) (c : Nat) (v : Core) : (s.setCore c v).lines = s.lines := rfl
@[simp] theorem State.setCore_vaults (s : State) (c : Nat) (v : Core) : (s.setCore c v).vaults = s.vaults := rfl
@[simp] theorem State.setCore_gov (s : State) (c : Nat) (v : Core) : (s.setCore c v).gov = s.gov := rfl
@[simp] theorem State.setCore_bays (s : State) (c : Nat) (v : Core) : (s.setCore c v).bays = s.bays := rfl
@[simp] theorem State.setCore_invs (s : State) (c : Nat) (v : Core) : (s.setCore c v).invs = s.invs := rfl
@[simp] theorem State.setCore_buses (s : State) (c : Nat) (v : Core) : (s.setCore c v).buses = s.buses := rfl
@[simp] theorem State.setCore_plies (s : State) (c : Nat) (v : Core) : (s.setCore c v).plies = s.plies := rfl
@[simp] theorem State.setCore_txns (s : State) (c : Nat) (v : Core) : (s.setCore c v).txns = s.txns := rfl
@[simp] theorem State.setCore_strRsv (s : State) (c : Nat) (v : Core) : (s.setCore c v).strRsv = s.strRsv := rfl
@[simp] theorem State.setCore_keys (s : State) (c : Nat) (v : Core) : (s.setCore c v).keys = s.keys := rfl
@[simp] theorem State.setCore_bends (s : State) (c : Nat) (v : Core) : (s.setCore c v).bends = s.bends := rfl
@[simp] theorem State.setCore_channels (s : State) (c : Nat) (v : Core) : (s.setCore c v).channels = s.channels := rfl
@[simp] theorem State.setCore_engines (s : State) (c : Nat) (v : Core) : (s.setCore c v).engines = s.engines := rfl
@[simp] theorem State.setCore_cap (s : State) (c : Nat) (v : Core) : (s.setCore c v).cap = s.cap := rfl
@[simp] theorem State.setCore_pawls (s : State) (c : Nat) (v : Core) : (s.setCore c v).pawls = s.pawls := rfl
@[simp] theorem State.setCore_power (s : State) (c : Nat) (v : Core) : (s.setCore c v).power = s.power := rfl
@[simp] theorem State.setCore_halyards (s : State) (c : Nat) (v : Core) : (s.setCore c v).halyards = s.halyards := rfl
@[simp] theorem State.setCore_fld_of (s : State) (c : Nat) (v : Core) (g : Fld) (j : Nat) : (s.setCore c v).fld g j = s.fld g j := rfl
@[simp] theorem State.setCore_byte_of (s : State) (c : Nat) (v : Core) (x : Nat) : (s.setCore c v).byte x = s.byte x := rfl
@[simp] theorem State.setCore_port_of (s : State) (c : Nat) (v : Core) (j : Nat) : (s.setCore c v).port j = s.port j := rfl
@[simp] theorem State.setCore_router_of (s : State) (c : Nat) (v : Core) (j : Nat) : (s.setCore c v).router j = s.router j := rfl
@[simp] theorem State.setCore_line_of (s : State) (c : Nat) (v : Core) (j : Nat) : (s.setCore c v).line j = s.line j := rfl
@[simp] theorem State.setCore_vault_of (s : State) (c : Nat) (v : Core) (j : Nat) : (s.setCore c v).vault j = s.vault j := rfl
@[simp] theorem State.setCore_bay_of (s : State) (c : Nat) (v : Core) (j : Nat) : (s.setCore c v).bay j = s.bay j := rfl
@[simp] theorem State.setCore_bus_of (s : State) (c : Nat) (v : Core) (j : Nat) : (s.setCore c v).bus j = s.bus j := rfl
@[simp] theorem State.setCore_ply_of (s : State) (c : Nat) (v : Core) (j : Nat) : (s.setCore c v).ply j = s.ply j := rfl
@[simp] theorem State.setCore_bend_of (s : State) (c : Nat) (v : Core) (j : Nat) : (s.setCore c v).bend j = s.bend j := rfl
@[simp] theorem State.setCore_chan_of (s : State) (c : Nat) (v : Core) (j : Nat) : (s.setCore c v).chan j = s.chan j := rfl
@[simp] theorem State.setCore_engine_of (s : State) (c : Nat) (v : Core) (j : Nat) : (s.setCore c v).engine j = s.engine j := rfl
@[simp] theorem State.setCore_task_of (s : State) (c : Nat) (v : Core) (j : Nat) : (s.setCore c v).task j = s.task j := rfl
@[simp] theorem State.setCore_pawl_of (s : State) (c : Nat) (v : Core) (j : Nat) : (s.setCore c v).pawl j = s.pawl j := rfl
@[simp] theorem State.setCore_hal_of (s : State) (c : Nat) (v : Core) (j : Nat) : (s.setCore c v).hal j = s.hal j := rfl
@[simp] theorem State.setCore_core_same (s : State) (c : Nat) (v : Core) : (s.setCore c v).core c = v := by simp [State.core, State.setCore]
theorem State.setCore_core_other (s : State) (c : Nat) (v : Core) {j : Nat} (h : j ≠ c) : (s.setCore c v).core j = s.core j := SMap.get_set_other _ _ _ h

/-! ### `setBend` -/

@[simp] theorem State.setBend_pending (s : State) (b : Nat) (v : BendPort) : (s.setBend b v).pending = s.pending := rfl
@[simp] theorem State.setBend_clockUs (s : State) (b : Nat) (v : BendPort) : (s.setBend b v).clockUs = s.clockUs := rfl
@[simp] theorem State.setBend_fresh (s : State) (b : Nat) (v : BendPort) : (s.setBend b v).fresh = s.fresh := rfl
@[simp] theorem State.setBend_out (s : State) (b : Nat) (v : BendPort) : (s.setBend b v).out = s.out := rfl
@[simp] theorem State.setBend_module (s : State) (b : Nat) (v : BendPort) : (s.setBend b v).module = s.module := rfl
@[simp] theorem State.setBend_outputs (s : State) (b : Nat) (v : BendPort) : (s.setBend b v).outputs = s.outputs := rfl
@[simp] theorem State.setBend_regs (s : State) (b : Nat) (v : BendPort) : (s.setBend b v).regs = s.regs := rfl
@[simp] theorem State.setBend_mem (s : State) (b : Nat) (v : BendPort) : (s.setBend b v).mem = s.mem := rfl
@[simp] theorem State.setBend_log (s : State) (b : Nat) (v : BendPort) : (s.setBend b v).log = s.log := rfl
@[simp] theorem State.setBend_nvm (s : State) (b : Nat) (v : BendPort) : (s.setBend b v).nvm = s.nvm := rfl
@[simp] theorem State.setBend_plate (s : State) (b : Nat) (v : BendPort) : (s.setBend b v).plate = s.plate := rfl
@[simp] theorem State.setBend_cleat (s : State) (b : Nat) (v : BendPort) : (s.setBend b v).cleat = s.cleat := rfl
@[simp] theorem State.setBend_fences (s : State) (b : Nat) (v : BendPort) : (s.setBend b v).fences = s.fences := rfl
@[simp] theorem State.setBend_ports (s : State) (b : Nat) (v : BendPort) : (s.setBend b v).ports = s.ports := rfl
@[simp] theorem State.setBend_routers (s : State) (b : Nat) (v : BendPort) : (s.setBend b v).routers = s.routers := rfl
@[simp] theorem State.setBend_net (s : State) (b : Nat) (v : BendPort) : (s.setBend b v).net = s.net := rfl
@[simp] theorem State.setBend_lines (s : State) (b : Nat) (v : BendPort) : (s.setBend b v).lines = s.lines := rfl
@[simp] theorem State.setBend_vaults (s : State) (b : Nat) (v : BendPort) : (s.setBend b v).vaults = s.vaults := rfl
@[simp] theorem State.setBend_gov (s : State) (b : Nat) (v : BendPort) : (s.setBend b v).gov = s.gov := rfl
@[simp] theorem State.setBend_bays (s : State) (b : Nat) (v : BendPort) : (s.setBend b v).bays = s.bays := rfl
@[simp] theorem State.setBend_invs (s : State) (b : Nat) (v : BendPort) : (s.setBend b v).invs = s.invs := rfl
@[simp] theorem State.setBend_buses (s : State) (b : Nat) (v : BendPort) : (s.setBend b v).buses = s.buses := rfl
@[simp] theorem State.setBend_plies (s : State) (b : Nat) (v : BendPort) : (s.setBend b v).plies = s.plies := rfl
@[simp] theorem State.setBend_txns (s : State) (b : Nat) (v : BendPort) : (s.setBend b v).txns = s.txns := rfl
@[simp] theorem State.setBend_strRsv (s : State) (b : Nat) (v : BendPort) : (s.setBend b v).strRsv = s.strRsv := rfl
@[simp] theorem State.setBend_keys (s : State) (b : Nat) (v : BendPort) : (s.setBend b v).keys = s.keys := rfl
@[simp] theorem State.setBend_cores (s : State) (b : Nat) (v : BendPort) : (s.setBend b v).cores = s.cores := rfl
@[simp] theorem State.setBend_channels (s : State) (b : Nat) (v : BendPort) : (s.setBend b v).channels = s.channels := rfl
@[simp] theorem State.setBend_engines (s : State) (b : Nat) (v : BendPort) : (s.setBend b v).engines = s.engines := rfl
@[simp] theorem State.setBend_cap (s : State) (b : Nat) (v : BendPort) : (s.setBend b v).cap = s.cap := rfl
@[simp] theorem State.setBend_pawls (s : State) (b : Nat) (v : BendPort) : (s.setBend b v).pawls = s.pawls := rfl
@[simp] theorem State.setBend_power (s : State) (b : Nat) (v : BendPort) : (s.setBend b v).power = s.power := rfl
@[simp] theorem State.setBend_halyards (s : State) (b : Nat) (v : BendPort) : (s.setBend b v).halyards = s.halyards := rfl
@[simp] theorem State.setBend_fld_of (s : State) (b : Nat) (v : BendPort) (g : Fld) (j : Nat) : (s.setBend b v).fld g j = s.fld g j := rfl
@[simp] theorem State.setBend_byte_of (s : State) (b : Nat) (v : BendPort) (x : Nat) : (s.setBend b v).byte x = s.byte x := rfl
@[simp] theorem State.setBend_port_of (s : State) (b : Nat) (v : BendPort) (j : Nat) : (s.setBend b v).port j = s.port j := rfl
@[simp] theorem State.setBend_router_of (s : State) (b : Nat) (v : BendPort) (j : Nat) : (s.setBend b v).router j = s.router j := rfl
@[simp] theorem State.setBend_line_of (s : State) (b : Nat) (v : BendPort) (j : Nat) : (s.setBend b v).line j = s.line j := rfl
@[simp] theorem State.setBend_vault_of (s : State) (b : Nat) (v : BendPort) (j : Nat) : (s.setBend b v).vault j = s.vault j := rfl
@[simp] theorem State.setBend_bay_of (s : State) (b : Nat) (v : BendPort) (j : Nat) : (s.setBend b v).bay j = s.bay j := rfl
@[simp] theorem State.setBend_bus_of (s : State) (b : Nat) (v : BendPort) (j : Nat) : (s.setBend b v).bus j = s.bus j := rfl
@[simp] theorem State.setBend_ply_of (s : State) (b : Nat) (v : BendPort) (j : Nat) : (s.setBend b v).ply j = s.ply j := rfl
@[simp] theorem State.setBend_core_of (s : State) (b : Nat) (v : BendPort) (j : Nat) : (s.setBend b v).core j = s.core j := rfl
@[simp] theorem State.setBend_chan_of (s : State) (b : Nat) (v : BendPort) (j : Nat) : (s.setBend b v).chan j = s.chan j := rfl
@[simp] theorem State.setBend_engine_of (s : State) (b : Nat) (v : BendPort) (j : Nat) : (s.setBend b v).engine j = s.engine j := rfl
@[simp] theorem State.setBend_task_of (s : State) (b : Nat) (v : BendPort) (j : Nat) : (s.setBend b v).task j = s.task j := rfl
@[simp] theorem State.setBend_pawl_of (s : State) (b : Nat) (v : BendPort) (j : Nat) : (s.setBend b v).pawl j = s.pawl j := rfl
@[simp] theorem State.setBend_hal_of (s : State) (b : Nat) (v : BendPort) (j : Nat) : (s.setBend b v).hal j = s.hal j := rfl
@[simp] theorem State.setBend_bend_same (s : State) (b : Nat) (v : BendPort) : (s.setBend b v).bend b = v := by simp [State.bend, State.setBend]
theorem State.setBend_bend_other (s : State) (b : Nat) (v : BendPort) {j : Nat} (h : j ≠ b) : (s.setBend b v).bend j = s.bend j := SMap.get_set_other _ _ _ h

/-! ### `setChan` -/

@[simp] theorem State.setChan_pending (s : State) (i : Nat) (v : Channel) : (s.setChan i v).pending = s.pending := rfl
@[simp] theorem State.setChan_clockUs (s : State) (i : Nat) (v : Channel) : (s.setChan i v).clockUs = s.clockUs := rfl
@[simp] theorem State.setChan_fresh (s : State) (i : Nat) (v : Channel) : (s.setChan i v).fresh = s.fresh := rfl
@[simp] theorem State.setChan_out (s : State) (i : Nat) (v : Channel) : (s.setChan i v).out = s.out := rfl
@[simp] theorem State.setChan_module (s : State) (i : Nat) (v : Channel) : (s.setChan i v).module = s.module := rfl
@[simp] theorem State.setChan_outputs (s : State) (i : Nat) (v : Channel) : (s.setChan i v).outputs = s.outputs := rfl
@[simp] theorem State.setChan_regs (s : State) (i : Nat) (v : Channel) : (s.setChan i v).regs = s.regs := rfl
@[simp] theorem State.setChan_mem (s : State) (i : Nat) (v : Channel) : (s.setChan i v).mem = s.mem := rfl
@[simp] theorem State.setChan_log (s : State) (i : Nat) (v : Channel) : (s.setChan i v).log = s.log := rfl
@[simp] theorem State.setChan_nvm (s : State) (i : Nat) (v : Channel) : (s.setChan i v).nvm = s.nvm := rfl
@[simp] theorem State.setChan_plate (s : State) (i : Nat) (v : Channel) : (s.setChan i v).plate = s.plate := rfl
@[simp] theorem State.setChan_cleat (s : State) (i : Nat) (v : Channel) : (s.setChan i v).cleat = s.cleat := rfl
@[simp] theorem State.setChan_fences (s : State) (i : Nat) (v : Channel) : (s.setChan i v).fences = s.fences := rfl
@[simp] theorem State.setChan_ports (s : State) (i : Nat) (v : Channel) : (s.setChan i v).ports = s.ports := rfl
@[simp] theorem State.setChan_routers (s : State) (i : Nat) (v : Channel) : (s.setChan i v).routers = s.routers := rfl
@[simp] theorem State.setChan_net (s : State) (i : Nat) (v : Channel) : (s.setChan i v).net = s.net := rfl
@[simp] theorem State.setChan_lines (s : State) (i : Nat) (v : Channel) : (s.setChan i v).lines = s.lines := rfl
@[simp] theorem State.setChan_vaults (s : State) (i : Nat) (v : Channel) : (s.setChan i v).vaults = s.vaults := rfl
@[simp] theorem State.setChan_gov (s : State) (i : Nat) (v : Channel) : (s.setChan i v).gov = s.gov := rfl
@[simp] theorem State.setChan_bays (s : State) (i : Nat) (v : Channel) : (s.setChan i v).bays = s.bays := rfl
@[simp] theorem State.setChan_invs (s : State) (i : Nat) (v : Channel) : (s.setChan i v).invs = s.invs := rfl
@[simp] theorem State.setChan_buses (s : State) (i : Nat) (v : Channel) : (s.setChan i v).buses = s.buses := rfl
@[simp] theorem State.setChan_plies (s : State) (i : Nat) (v : Channel) : (s.setChan i v).plies = s.plies := rfl
@[simp] theorem State.setChan_txns (s : State) (i : Nat) (v : Channel) : (s.setChan i v).txns = s.txns := rfl
@[simp] theorem State.setChan_strRsv (s : State) (i : Nat) (v : Channel) : (s.setChan i v).strRsv = s.strRsv := rfl
@[simp] theorem State.setChan_keys (s : State) (i : Nat) (v : Channel) : (s.setChan i v).keys = s.keys := rfl
@[simp] theorem State.setChan_cores (s : State) (i : Nat) (v : Channel) : (s.setChan i v).cores = s.cores := rfl
@[simp] theorem State.setChan_bends (s : State) (i : Nat) (v : Channel) : (s.setChan i v).bends = s.bends := rfl
@[simp] theorem State.setChan_engines (s : State) (i : Nat) (v : Channel) : (s.setChan i v).engines = s.engines := rfl
@[simp] theorem State.setChan_cap (s : State) (i : Nat) (v : Channel) : (s.setChan i v).cap = s.cap := rfl
@[simp] theorem State.setChan_pawls (s : State) (i : Nat) (v : Channel) : (s.setChan i v).pawls = s.pawls := rfl
@[simp] theorem State.setChan_power (s : State) (i : Nat) (v : Channel) : (s.setChan i v).power = s.power := rfl
@[simp] theorem State.setChan_halyards (s : State) (i : Nat) (v : Channel) : (s.setChan i v).halyards = s.halyards := rfl
@[simp] theorem State.setChan_fld_of (s : State) (i : Nat) (v : Channel) (g : Fld) (j : Nat) : (s.setChan i v).fld g j = s.fld g j := rfl
@[simp] theorem State.setChan_byte_of (s : State) (i : Nat) (v : Channel) (x : Nat) : (s.setChan i v).byte x = s.byte x := rfl
@[simp] theorem State.setChan_port_of (s : State) (i : Nat) (v : Channel) (j : Nat) : (s.setChan i v).port j = s.port j := rfl
@[simp] theorem State.setChan_router_of (s : State) (i : Nat) (v : Channel) (j : Nat) : (s.setChan i v).router j = s.router j := rfl
@[simp] theorem State.setChan_line_of (s : State) (i : Nat) (v : Channel) (j : Nat) : (s.setChan i v).line j = s.line j := rfl
@[simp] theorem State.setChan_vault_of (s : State) (i : Nat) (v : Channel) (j : Nat) : (s.setChan i v).vault j = s.vault j := rfl
@[simp] theorem State.setChan_bay_of (s : State) (i : Nat) (v : Channel) (j : Nat) : (s.setChan i v).bay j = s.bay j := rfl
@[simp] theorem State.setChan_bus_of (s : State) (i : Nat) (v : Channel) (j : Nat) : (s.setChan i v).bus j = s.bus j := rfl
@[simp] theorem State.setChan_ply_of (s : State) (i : Nat) (v : Channel) (j : Nat) : (s.setChan i v).ply j = s.ply j := rfl
@[simp] theorem State.setChan_core_of (s : State) (i : Nat) (v : Channel) (j : Nat) : (s.setChan i v).core j = s.core j := rfl
@[simp] theorem State.setChan_bend_of (s : State) (i : Nat) (v : Channel) (j : Nat) : (s.setChan i v).bend j = s.bend j := rfl
@[simp] theorem State.setChan_engine_of (s : State) (i : Nat) (v : Channel) (j : Nat) : (s.setChan i v).engine j = s.engine j := rfl
@[simp] theorem State.setChan_task_of (s : State) (i : Nat) (v : Channel) (j : Nat) : (s.setChan i v).task j = s.task j := rfl
@[simp] theorem State.setChan_pawl_of (s : State) (i : Nat) (v : Channel) (j : Nat) : (s.setChan i v).pawl j = s.pawl j := rfl
@[simp] theorem State.setChan_hal_of (s : State) (i : Nat) (v : Channel) (j : Nat) : (s.setChan i v).hal j = s.hal j := rfl
@[simp] theorem State.setChan_chan_same (s : State) (i : Nat) (v : Channel) : (s.setChan i v).chan i = v := by simp [State.chan, State.setChan]
theorem State.setChan_chan_other (s : State) (i : Nat) (v : Channel) {j : Nat} (h : j ≠ i) : (s.setChan i v).chan j = s.chan j := SMap.get_set_other _ _ _ h

/-! ### `setEngine` -/

@[simp] theorem State.setEngine_pending (s : State) (e : Nat) (v : Engine) : (s.setEngine e v).pending = s.pending := rfl
@[simp] theorem State.setEngine_clockUs (s : State) (e : Nat) (v : Engine) : (s.setEngine e v).clockUs = s.clockUs := rfl
@[simp] theorem State.setEngine_fresh (s : State) (e : Nat) (v : Engine) : (s.setEngine e v).fresh = s.fresh := rfl
@[simp] theorem State.setEngine_out (s : State) (e : Nat) (v : Engine) : (s.setEngine e v).out = s.out := rfl
@[simp] theorem State.setEngine_module (s : State) (e : Nat) (v : Engine) : (s.setEngine e v).module = s.module := rfl
@[simp] theorem State.setEngine_outputs (s : State) (e : Nat) (v : Engine) : (s.setEngine e v).outputs = s.outputs := rfl
@[simp] theorem State.setEngine_regs (s : State) (e : Nat) (v : Engine) : (s.setEngine e v).regs = s.regs := rfl
@[simp] theorem State.setEngine_mem (s : State) (e : Nat) (v : Engine) : (s.setEngine e v).mem = s.mem := rfl
@[simp] theorem State.setEngine_log (s : State) (e : Nat) (v : Engine) : (s.setEngine e v).log = s.log := rfl
@[simp] theorem State.setEngine_nvm (s : State) (e : Nat) (v : Engine) : (s.setEngine e v).nvm = s.nvm := rfl
@[simp] theorem State.setEngine_plate (s : State) (e : Nat) (v : Engine) : (s.setEngine e v).plate = s.plate := rfl
@[simp] theorem State.setEngine_cleat (s : State) (e : Nat) (v : Engine) : (s.setEngine e v).cleat = s.cleat := rfl
@[simp] theorem State.setEngine_fences (s : State) (e : Nat) (v : Engine) : (s.setEngine e v).fences = s.fences := rfl
@[simp] theorem State.setEngine_ports (s : State) (e : Nat) (v : Engine) : (s.setEngine e v).ports = s.ports := rfl
@[simp] theorem State.setEngine_routers (s : State) (e : Nat) (v : Engine) : (s.setEngine e v).routers = s.routers := rfl
@[simp] theorem State.setEngine_net (s : State) (e : Nat) (v : Engine) : (s.setEngine e v).net = s.net := rfl
@[simp] theorem State.setEngine_lines (s : State) (e : Nat) (v : Engine) : (s.setEngine e v).lines = s.lines := rfl
@[simp] theorem State.setEngine_vaults (s : State) (e : Nat) (v : Engine) : (s.setEngine e v).vaults = s.vaults := rfl
@[simp] theorem State.setEngine_gov (s : State) (e : Nat) (v : Engine) : (s.setEngine e v).gov = s.gov := rfl
@[simp] theorem State.setEngine_bays (s : State) (e : Nat) (v : Engine) : (s.setEngine e v).bays = s.bays := rfl
@[simp] theorem State.setEngine_invs (s : State) (e : Nat) (v : Engine) : (s.setEngine e v).invs = s.invs := rfl
@[simp] theorem State.setEngine_buses (s : State) (e : Nat) (v : Engine) : (s.setEngine e v).buses = s.buses := rfl
@[simp] theorem State.setEngine_plies (s : State) (e : Nat) (v : Engine) : (s.setEngine e v).plies = s.plies := rfl
@[simp] theorem State.setEngine_txns (s : State) (e : Nat) (v : Engine) : (s.setEngine e v).txns = s.txns := rfl
@[simp] theorem State.setEngine_strRsv (s : State) (e : Nat) (v : Engine) : (s.setEngine e v).strRsv = s.strRsv := rfl
@[simp] theorem State.setEngine_keys (s : State) (e : Nat) (v : Engine) : (s.setEngine e v).keys = s.keys := rfl
@[simp] theorem State.setEngine_cores (s : State) (e : Nat) (v : Engine) : (s.setEngine e v).cores = s.cores := rfl
@[simp] theorem State.setEngine_bends (s : State) (e : Nat) (v : Engine) : (s.setEngine e v).bends = s.bends := rfl
@[simp] theorem State.setEngine_channels (s : State) (e : Nat) (v : Engine) : (s.setEngine e v).channels = s.channels := rfl
@[simp] theorem State.setEngine_cap (s : State) (e : Nat) (v : Engine) : (s.setEngine e v).cap = s.cap := rfl
@[simp] theorem State.setEngine_pawls (s : State) (e : Nat) (v : Engine) : (s.setEngine e v).pawls = s.pawls := rfl
@[simp] theorem State.setEngine_power (s : State) (e : Nat) (v : Engine) : (s.setEngine e v).power = s.power := rfl
@[simp] theorem State.setEngine_halyards (s : State) (e : Nat) (v : Engine) : (s.setEngine e v).halyards = s.halyards := rfl
@[simp] theorem State.setEngine_fld_of (s : State) (e : Nat) (v : Engine) (g : Fld) (j : Nat) : (s.setEngine e v).fld g j = s.fld g j := rfl
@[simp] theorem State.setEngine_byte_of (s : State) (e : Nat) (v : Engine) (x : Nat) : (s.setEngine e v).byte x = s.byte x := rfl
@[simp] theorem State.setEngine_port_of (s : State) (e : Nat) (v : Engine) (j : Nat) : (s.setEngine e v).port j = s.port j := rfl
@[simp] theorem State.setEngine_router_of (s : State) (e : Nat) (v : Engine) (j : Nat) : (s.setEngine e v).router j = s.router j := rfl
@[simp] theorem State.setEngine_line_of (s : State) (e : Nat) (v : Engine) (j : Nat) : (s.setEngine e v).line j = s.line j := rfl
@[simp] theorem State.setEngine_vault_of (s : State) (e : Nat) (v : Engine) (j : Nat) : (s.setEngine e v).vault j = s.vault j := rfl
@[simp] theorem State.setEngine_bay_of (s : State) (e : Nat) (v : Engine) (j : Nat) : (s.setEngine e v).bay j = s.bay j := rfl
@[simp] theorem State.setEngine_bus_of (s : State) (e : Nat) (v : Engine) (j : Nat) : (s.setEngine e v).bus j = s.bus j := rfl
@[simp] theorem State.setEngine_ply_of (s : State) (e : Nat) (v : Engine) (j : Nat) : (s.setEngine e v).ply j = s.ply j := rfl
@[simp] theorem State.setEngine_core_of (s : State) (e : Nat) (v : Engine) (j : Nat) : (s.setEngine e v).core j = s.core j := rfl
@[simp] theorem State.setEngine_bend_of (s : State) (e : Nat) (v : Engine) (j : Nat) : (s.setEngine e v).bend j = s.bend j := rfl
@[simp] theorem State.setEngine_chan_of (s : State) (e : Nat) (v : Engine) (j : Nat) : (s.setEngine e v).chan j = s.chan j := rfl
@[simp] theorem State.setEngine_task_of (s : State) (e : Nat) (v : Engine) (j : Nat) : (s.setEngine e v).task j = s.task j := rfl
@[simp] theorem State.setEngine_pawl_of (s : State) (e : Nat) (v : Engine) (j : Nat) : (s.setEngine e v).pawl j = s.pawl j := rfl
@[simp] theorem State.setEngine_hal_of (s : State) (e : Nat) (v : Engine) (j : Nat) : (s.setEngine e v).hal j = s.hal j := rfl
@[simp] theorem State.setEngine_engine_same (s : State) (e : Nat) (v : Engine) : (s.setEngine e v).engine e = v := by simp [State.engine, State.setEngine]
theorem State.setEngine_engine_other (s : State) (e : Nat) (v : Engine) {j : Nat} (h : j ≠ e) : (s.setEngine e v).engine j = s.engine j := SMap.get_set_other _ _ _ h

/-! ### `setTask` -/

@[simp] theorem State.setTask_pending (s : State) (t : Nat) (v : Task) : (s.setTask t v).pending = s.pending := rfl
@[simp] theorem State.setTask_clockUs (s : State) (t : Nat) (v : Task) : (s.setTask t v).clockUs = s.clockUs := rfl
@[simp] theorem State.setTask_fresh (s : State) (t : Nat) (v : Task) : (s.setTask t v).fresh = s.fresh := rfl
@[simp] theorem State.setTask_out (s : State) (t : Nat) (v : Task) : (s.setTask t v).out = s.out := rfl
@[simp] theorem State.setTask_module (s : State) (t : Nat) (v : Task) : (s.setTask t v).module = s.module := rfl
@[simp] theorem State.setTask_outputs (s : State) (t : Nat) (v : Task) : (s.setTask t v).outputs = s.outputs := rfl
@[simp] theorem State.setTask_regs (s : State) (t : Nat) (v : Task) : (s.setTask t v).regs = s.regs := rfl
@[simp] theorem State.setTask_mem (s : State) (t : Nat) (v : Task) : (s.setTask t v).mem = s.mem := rfl
@[simp] theorem State.setTask_log (s : State) (t : Nat) (v : Task) : (s.setTask t v).log = s.log := rfl
@[simp] theorem State.setTask_nvm (s : State) (t : Nat) (v : Task) : (s.setTask t v).nvm = s.nvm := rfl
@[simp] theorem State.setTask_plate (s : State) (t : Nat) (v : Task) : (s.setTask t v).plate = s.plate := rfl
@[simp] theorem State.setTask_cleat (s : State) (t : Nat) (v : Task) : (s.setTask t v).cleat = s.cleat := rfl
@[simp] theorem State.setTask_fences (s : State) (t : Nat) (v : Task) : (s.setTask t v).fences = s.fences := rfl
@[simp] theorem State.setTask_ports (s : State) (t : Nat) (v : Task) : (s.setTask t v).ports = s.ports := rfl
@[simp] theorem State.setTask_routers (s : State) (t : Nat) (v : Task) : (s.setTask t v).routers = s.routers := rfl
@[simp] theorem State.setTask_net (s : State) (t : Nat) (v : Task) : (s.setTask t v).net = s.net := rfl
@[simp] theorem State.setTask_lines (s : State) (t : Nat) (v : Task) : (s.setTask t v).lines = s.lines := rfl
@[simp] theorem State.setTask_vaults (s : State) (t : Nat) (v : Task) : (s.setTask t v).vaults = s.vaults := rfl
@[simp] theorem State.setTask_gov (s : State) (t : Nat) (v : Task) : (s.setTask t v).gov = s.gov := rfl
@[simp] theorem State.setTask_bays (s : State) (t : Nat) (v : Task) : (s.setTask t v).bays = s.bays := rfl
@[simp] theorem State.setTask_invs (s : State) (t : Nat) (v : Task) : (s.setTask t v).invs = s.invs := rfl
@[simp] theorem State.setTask_buses (s : State) (t : Nat) (v : Task) : (s.setTask t v).buses = s.buses := rfl
@[simp] theorem State.setTask_plies (s : State) (t : Nat) (v : Task) : (s.setTask t v).plies = s.plies := rfl
@[simp] theorem State.setTask_txns (s : State) (t : Nat) (v : Task) : (s.setTask t v).txns = s.txns := rfl
@[simp] theorem State.setTask_strRsv (s : State) (t : Nat) (v : Task) : (s.setTask t v).strRsv = s.strRsv := rfl
@[simp] theorem State.setTask_keys (s : State) (t : Nat) (v : Task) : (s.setTask t v).keys = s.keys := rfl
@[simp] theorem State.setTask_cores (s : State) (t : Nat) (v : Task) : (s.setTask t v).cores = s.cores := rfl
@[simp] theorem State.setTask_bends (s : State) (t : Nat) (v : Task) : (s.setTask t v).bends = s.bends := rfl
@[simp] theorem State.setTask_channels (s : State) (t : Nat) (v : Task) : (s.setTask t v).channels = s.channels := rfl
@[simp] theorem State.setTask_engines (s : State) (t : Nat) (v : Task) : (s.setTask t v).engines = s.engines := rfl
@[simp] theorem State.setTask_pawls (s : State) (t : Nat) (v : Task) : (s.setTask t v).pawls = s.pawls := rfl
@[simp] theorem State.setTask_power (s : State) (t : Nat) (v : Task) : (s.setTask t v).power = s.power := rfl
@[simp] theorem State.setTask_halyards (s : State) (t : Nat) (v : Task) : (s.setTask t v).halyards = s.halyards := rfl
@[simp] theorem State.setTask_fld_of (s : State) (t : Nat) (v : Task) (g : Fld) (j : Nat) : (s.setTask t v).fld g j = s.fld g j := rfl
@[simp] theorem State.setTask_byte_of (s : State) (t : Nat) (v : Task) (x : Nat) : (s.setTask t v).byte x = s.byte x := rfl
@[simp] theorem State.setTask_port_of (s : State) (t : Nat) (v : Task) (j : Nat) : (s.setTask t v).port j = s.port j := rfl
@[simp] theorem State.setTask_router_of (s : State) (t : Nat) (v : Task) (j : Nat) : (s.setTask t v).router j = s.router j := rfl
@[simp] theorem State.setTask_line_of (s : State) (t : Nat) (v : Task) (j : Nat) : (s.setTask t v).line j = s.line j := rfl
@[simp] theorem State.setTask_vault_of (s : State) (t : Nat) (v : Task) (j : Nat) : (s.setTask t v).vault j = s.vault j := rfl
@[simp] theorem State.setTask_bay_of (s : State) (t : Nat) (v : Task) (j : Nat) : (s.setTask t v).bay j = s.bay j := rfl
@[simp] theorem State.setTask_bus_of (s : State) (t : Nat) (v : Task) (j : Nat) : (s.setTask t v).bus j = s.bus j := rfl
@[simp] theorem State.setTask_ply_of (s : State) (t : Nat) (v : Task) (j : Nat) : (s.setTask t v).ply j = s.ply j := rfl
@[simp] theorem State.setTask_core_of (s : State) (t : Nat) (v : Task) (j : Nat) : (s.setTask t v).core j = s.core j := rfl
@[simp] theorem State.setTask_bend_of (s : State) (t : Nat) (v : Task) (j : Nat) : (s.setTask t v).bend j = s.bend j := rfl
@[simp] theorem State.setTask_chan_of (s : State) (t : Nat) (v : Task) (j : Nat) : (s.setTask t v).chan j = s.chan j := rfl
@[simp] theorem State.setTask_engine_of (s : State) (t : Nat) (v : Task) (j : Nat) : (s.setTask t v).engine j = s.engine j := rfl
@[simp] theorem State.setTask_pawl_of (s : State) (t : Nat) (v : Task) (j : Nat) : (s.setTask t v).pawl j = s.pawl j := rfl
@[simp] theorem State.setTask_hal_of (s : State) (t : Nat) (v : Task) (j : Nat) : (s.setTask t v).hal j = s.hal j := rfl

/-! ### `setPawl` -/

@[simp] theorem State.setPawl_pending (s : State) (k : Nat) (v : Pawl) : (s.setPawl k v).pending = s.pending := rfl
@[simp] theorem State.setPawl_clockUs (s : State) (k : Nat) (v : Pawl) : (s.setPawl k v).clockUs = s.clockUs := rfl
@[simp] theorem State.setPawl_fresh (s : State) (k : Nat) (v : Pawl) : (s.setPawl k v).fresh = s.fresh := rfl
@[simp] theorem State.setPawl_out (s : State) (k : Nat) (v : Pawl) : (s.setPawl k v).out = s.out := rfl
@[simp] theorem State.setPawl_module (s : State) (k : Nat) (v : Pawl) : (s.setPawl k v).module = s.module := rfl
@[simp] theorem State.setPawl_outputs (s : State) (k : Nat) (v : Pawl) : (s.setPawl k v).outputs = s.outputs := rfl
@[simp] theorem State.setPawl_regs (s : State) (k : Nat) (v : Pawl) : (s.setPawl k v).regs = s.regs := rfl
@[simp] theorem State.setPawl_mem (s : State) (k : Nat) (v : Pawl) : (s.setPawl k v).mem = s.mem := rfl
@[simp] theorem State.setPawl_log (s : State) (k : Nat) (v : Pawl) : (s.setPawl k v).log = s.log := rfl
@[simp] theorem State.setPawl_nvm (s : State) (k : Nat) (v : Pawl) : (s.setPawl k v).nvm = s.nvm := rfl
@[simp] theorem State.setPawl_plate (s : State) (k : Nat) (v : Pawl) : (s.setPawl k v).plate = s.plate := rfl
@[simp] theorem State.setPawl_cleat (s : State) (k : Nat) (v : Pawl) : (s.setPawl k v).cleat = s.cleat := rfl
@[simp] theorem State.setPawl_fences (s : State) (k : Nat) (v : Pawl) : (s.setPawl k v).fences = s.fences := rfl
@[simp] theorem State.setPawl_ports (s : State) (k : Nat) (v : Pawl) : (s.setPawl k v).ports = s.ports := rfl
@[simp] theorem State.setPawl_routers (s : State) (k : Nat) (v : Pawl) : (s.setPawl k v).routers = s.routers := rfl
@[simp] theorem State.setPawl_net (s : State) (k : Nat) (v : Pawl) : (s.setPawl k v).net = s.net := rfl
@[simp] theorem State.setPawl_lines (s : State) (k : Nat) (v : Pawl) : (s.setPawl k v).lines = s.lines := rfl
@[simp] theorem State.setPawl_vaults (s : State) (k : Nat) (v : Pawl) : (s.setPawl k v).vaults = s.vaults := rfl
@[simp] theorem State.setPawl_gov (s : State) (k : Nat) (v : Pawl) : (s.setPawl k v).gov = s.gov := rfl
@[simp] theorem State.setPawl_bays (s : State) (k : Nat) (v : Pawl) : (s.setPawl k v).bays = s.bays := rfl
@[simp] theorem State.setPawl_invs (s : State) (k : Nat) (v : Pawl) : (s.setPawl k v).invs = s.invs := rfl
@[simp] theorem State.setPawl_buses (s : State) (k : Nat) (v : Pawl) : (s.setPawl k v).buses = s.buses := rfl
@[simp] theorem State.setPawl_plies (s : State) (k : Nat) (v : Pawl) : (s.setPawl k v).plies = s.plies := rfl
@[simp] theorem State.setPawl_txns (s : State) (k : Nat) (v : Pawl) : (s.setPawl k v).txns = s.txns := rfl
@[simp] theorem State.setPawl_strRsv (s : State) (k : Nat) (v : Pawl) : (s.setPawl k v).strRsv = s.strRsv := rfl
@[simp] theorem State.setPawl_keys (s : State) (k : Nat) (v : Pawl) : (s.setPawl k v).keys = s.keys := rfl
@[simp] theorem State.setPawl_cores (s : State) (k : Nat) (v : Pawl) : (s.setPawl k v).cores = s.cores := rfl
@[simp] theorem State.setPawl_bends (s : State) (k : Nat) (v : Pawl) : (s.setPawl k v).bends = s.bends := rfl
@[simp] theorem State.setPawl_channels (s : State) (k : Nat) (v : Pawl) : (s.setPawl k v).channels = s.channels := rfl
@[simp] theorem State.setPawl_engines (s : State) (k : Nat) (v : Pawl) : (s.setPawl k v).engines = s.engines := rfl
@[simp] theorem State.setPawl_cap (s : State) (k : Nat) (v : Pawl) : (s.setPawl k v).cap = s.cap := rfl
@[simp] theorem State.setPawl_power (s : State) (k : Nat) (v : Pawl) : (s.setPawl k v).power = s.power := rfl
@[simp] theorem State.setPawl_halyards (s : State) (k : Nat) (v : Pawl) : (s.setPawl k v).halyards = s.halyards := rfl
@[simp] theorem State.setPawl_fld_of (s : State) (k : Nat) (v : Pawl) (g : Fld) (j : Nat) : (s.setPawl k v).fld g j = s.fld g j := rfl
@[simp] theorem State.setPawl_byte_of (s : State) (k : Nat) (v : Pawl) (x : Nat) : (s.setPawl k v).byte x = s.byte x := rfl
@[simp] theorem State.setPawl_port_of (s : State) (k : Nat) (v : Pawl) (j : Nat) : (s.setPawl k v).port j = s.port j := rfl
@[simp] theorem State.setPawl_router_of (s : State) (k : Nat) (v : Pawl) (j : Nat) : (s.setPawl k v).router j = s.router j := rfl
@[simp] theorem State.setPawl_line_of (s : State) (k : Nat) (v : Pawl) (j : Nat) : (s.setPawl k v).line j = s.line j := rfl
@[simp] theorem State.setPawl_vault_of (s : State) (k : Nat) (v : Pawl) (j : Nat) : (s.setPawl k v).vault j = s.vault j := rfl
@[simp] theorem State.setPawl_bay_of (s : State) (k : Nat) (v : Pawl) (j : Nat) : (s.setPawl k v).bay j = s.bay j := rfl
@[simp] theorem State.setPawl_bus_of (s : State) (k : Nat) (v : Pawl) (j : Nat) : (s.setPawl k v).bus j = s.bus j := rfl
@[simp] theorem State.setPawl_ply_of (s : State) (k : Nat) (v : Pawl) (j : Nat) : (s.setPawl k v).ply j = s.ply j := rfl
@[simp] theorem State.setPawl_core_of (s : State) (k : Nat) (v : Pawl) (j : Nat) : (s.setPawl k v).core j = s.core j := rfl
@[simp] theorem State.setPawl_bend_of (s : State) (k : Nat) (v : Pawl) (j : Nat) : (s.setPawl k v).bend j = s.bend j := rfl
@[simp] theorem State.setPawl_chan_of (s : State) (k : Nat) (v : Pawl) (j : Nat) : (s.setPawl k v).chan j = s.chan j := rfl
@[simp] theorem State.setPawl_engine_of (s : State) (k : Nat) (v : Pawl) (j : Nat) : (s.setPawl k v).engine j = s.engine j := rfl
@[simp] theorem State.setPawl_task_of (s : State) (k : Nat) (v : Pawl) (j : Nat) : (s.setPawl k v).task j = s.task j := rfl
@[simp] theorem State.setPawl_hal_of (s : State) (k : Nat) (v : Pawl) (j : Nat) : (s.setPawl k v).hal j = s.hal j := rfl
@[simp] theorem State.setPawl_pawl_same (s : State) (k : Nat) (v : Pawl) : (s.setPawl k v).pawl k = v := by simp [State.pawl, State.setPawl]
theorem State.setPawl_pawl_other (s : State) (k : Nat) (v : Pawl) {j : Nat} (h : j ≠ k) : (s.setPawl k v).pawl j = s.pawl j := SMap.get_set_other _ _ _ h

/-! ### `setHal` -/

@[simp] theorem State.setHal_pending (s : State) (k : Nat) (v : Halyard) : (s.setHal k v).pending = s.pending := rfl
@[simp] theorem State.setHal_clockUs (s : State) (k : Nat) (v : Halyard) : (s.setHal k v).clockUs = s.clockUs := rfl
@[simp] theorem State.setHal_fresh (s : State) (k : Nat) (v : Halyard) : (s.setHal k v).fresh = s.fresh := rfl
@[simp] theorem State.setHal_out (s : State) (k : Nat) (v : Halyard) : (s.setHal k v).out = s.out := rfl
@[simp] theorem State.setHal_module (s : State) (k : Nat) (v : Halyard) : (s.setHal k v).module = s.module := rfl
@[simp] theorem State.setHal_outputs (s : State) (k : Nat) (v : Halyard) : (s.setHal k v).outputs = s.outputs := rfl
@[simp] theorem State.setHal_regs (s : State) (k : Nat) (v : Halyard) : (s.setHal k v).regs = s.regs := rfl
@[simp] theorem State.setHal_mem (s : State) (k : Nat) (v : Halyard) : (s.setHal k v).mem = s.mem := rfl
@[simp] theorem State.setHal_log (s : State) (k : Nat) (v : Halyard) : (s.setHal k v).log = s.log := rfl
@[simp] theorem State.setHal_nvm (s : State) (k : Nat) (v : Halyard) : (s.setHal k v).nvm = s.nvm := rfl
@[simp] theorem State.setHal_plate (s : State) (k : Nat) (v : Halyard) : (s.setHal k v).plate = s.plate := rfl
@[simp] theorem State.setHal_cleat (s : State) (k : Nat) (v : Halyard) : (s.setHal k v).cleat = s.cleat := rfl
@[simp] theorem State.setHal_fences (s : State) (k : Nat) (v : Halyard) : (s.setHal k v).fences = s.fences := rfl
@[simp] theorem State.setHal_ports (s : State) (k : Nat) (v : Halyard) : (s.setHal k v).ports = s.ports := rfl
@[simp] theorem State.setHal_routers (s : State) (k : Nat) (v : Halyard) : (s.setHal k v).routers = s.routers := rfl
@[simp] theorem State.setHal_net (s : State) (k : Nat) (v : Halyard) : (s.setHal k v).net = s.net := rfl
@[simp] theorem State.setHal_lines (s : State) (k : Nat) (v : Halyard) : (s.setHal k v).lines = s.lines := rfl
@[simp] theorem State.setHal_vaults (s : State) (k : Nat) (v : Halyard) : (s.setHal k v).vaults = s.vaults := rfl
@[simp] theorem State.setHal_gov (s : State) (k : Nat) (v : Halyard) : (s.setHal k v).gov = s.gov := rfl
@[simp] theorem State.setHal_bays (s : State) (k : Nat) (v : Halyard) : (s.setHal k v).bays = s.bays := rfl
@[simp] theorem State.setHal_invs (s : State) (k : Nat) (v : Halyard) : (s.setHal k v).invs = s.invs := rfl
@[simp] theorem State.setHal_buses (s : State) (k : Nat) (v : Halyard) : (s.setHal k v).buses = s.buses := rfl
@[simp] theorem State.setHal_plies (s : State) (k : Nat) (v : Halyard) : (s.setHal k v).plies = s.plies := rfl
@[simp] theorem State.setHal_txns (s : State) (k : Nat) (v : Halyard) : (s.setHal k v).txns = s.txns := rfl
@[simp] theorem State.setHal_strRsv (s : State) (k : Nat) (v : Halyard) : (s.setHal k v).strRsv = s.strRsv := rfl
@[simp] theorem State.setHal_keys (s : State) (k : Nat) (v : Halyard) : (s.setHal k v).keys = s.keys := rfl
@[simp] theorem State.setHal_cores (s : State) (k : Nat) (v : Halyard) : (s.setHal k v).cores = s.cores := rfl
@[simp] theorem State.setHal_bends (s : State) (k : Nat) (v : Halyard) : (s.setHal k v).bends = s.bends := rfl
@[simp] theorem State.setHal_channels (s : State) (k : Nat) (v : Halyard) : (s.setHal k v).channels = s.channels := rfl
@[simp] theorem State.setHal_engines (s : State) (k : Nat) (v : Halyard) : (s.setHal k v).engines = s.engines := rfl
@[simp] theorem State.setHal_cap (s : State) (k : Nat) (v : Halyard) : (s.setHal k v).cap = s.cap := rfl
@[simp] theorem State.setHal_pawls (s : State) (k : Nat) (v : Halyard) : (s.setHal k v).pawls = s.pawls := rfl
@[simp] theorem State.setHal_power (s : State) (k : Nat) (v : Halyard) : (s.setHal k v).power = s.power := rfl
@[simp] theorem State.setHal_fld_of (s : State) (k : Nat) (v : Halyard) (g : Fld) (j : Nat) : (s.setHal k v).fld g j = s.fld g j := rfl
@[simp] theorem State.setHal_byte_of (s : State) (k : Nat) (v : Halyard) (x : Nat) : (s.setHal k v).byte x = s.byte x := rfl
@[simp] theorem State.setHal_port_of (s : State) (k : Nat) (v : Halyard) (j : Nat) : (s.setHal k v).port j = s.port j := rfl
@[simp] theorem State.setHal_router_of (s : State) (k : Nat) (v : Halyard) (j : Nat) : (s.setHal k v).router j = s.router j := rfl
@[simp] theorem State.setHal_line_of (s : State) (k : Nat) (v : Halyard) (j : Nat) : (s.setHal k v).line j = s.line j := rfl
@[simp] theorem State.setHal_vault_of (s : State) (k : Nat) (v : Halyard) (j : Nat) : (s.setHal k v).vault j = s.vault j := rfl
@[simp] theorem State.setHal_bay_of (s : State) (k : Nat) (v : Halyard) (j : Nat) : (s.setHal k v).bay j = s.bay j := rfl
@[simp] theorem State.setHal_bus_of (s : State) (k : Nat) (v : Halyard) (j : Nat) : (s.setHal k v).bus j = s.bus j := rfl
@[simp] theorem State.setHal_ply_of (s : State) (k : Nat) (v : Halyard) (j : Nat) : (s.setHal k v).ply j = s.ply j := rfl
@[simp] theorem State.setHal_core_of (s : State) (k : Nat) (v : Halyard) (j : Nat) : (s.setHal k v).core j = s.core j := rfl
@[simp] theorem State.setHal_bend_of (s : State) (k : Nat) (v : Halyard) (j : Nat) : (s.setHal k v).bend j = s.bend j := rfl
@[simp] theorem State.setHal_chan_of (s : State) (k : Nat) (v : Halyard) (j : Nat) : (s.setHal k v).chan j = s.chan j := rfl
@[simp] theorem State.setHal_engine_of (s : State) (k : Nat) (v : Halyard) (j : Nat) : (s.setHal k v).engine j = s.engine j := rfl
@[simp] theorem State.setHal_task_of (s : State) (k : Nat) (v : Halyard) (j : Nat) : (s.setHal k v).task j = s.task j := rfl
@[simp] theorem State.setHal_pawl_of (s : State) (k : Nat) (v : Halyard) (j : Nat) : (s.setHal k v).pawl j = s.pawl j := rfl
@[simp] theorem State.setHal_hal_same (s : State) (k : Nat) (v : Halyard) : (s.setHal k v).hal k = v := by simp [State.hal, State.setHal]
theorem State.setHal_hal_other (s : State) (k : Nat) (v : Halyard) {j : Nat} (h : j ≠ k) : (s.setHal k v).hal j = s.hal j := SMap.get_set_other _ _ _ h

/-! ### `send` -/

@[simp] theorem State.send_pending (s : State) (m : Out) : (s.send m).pending = s.pending := rfl
@[simp] theorem State.send_clockUs (s : State) (m : Out) : (s.send m).clockUs = s.clockUs := rfl
@[simp] theorem State.send_fresh (s : State) (m : Out) : (s.send m).fresh = s.fresh := rfl
@[simp] theorem State.send_module (s : State) (m : Out) : (s.send m).module = s.module := rfl
@[simp] theorem State.send_outputs (s : State) (m : Out) : (s.send m).outputs = s.outputs := rfl
@[simp] theorem State.send_regs (s : State) (m : Out) : (s.send m).regs = s.regs := rfl
@[simp] theorem State.send_mem (s : State) (m : Out) : (s.send m).mem = s.mem := rfl
@[simp] theorem State.send_log (s : State) (m : Out) : (s.send m).log = s.log := rfl
@[simp] theorem State.send_nvm (s : State) (m : Out) : (s.send m).nvm = s.nvm := rfl
@[simp] theorem State.send_plate (s : State) (m : Out) : (s.send m).plate = s.plate := rfl
@[simp] theorem State.send_cleat (s : State) (m : Out) : (s.send m).cleat = s.cleat := rfl
@[simp] theorem State.send_fences (s : State) (m : Out) : (s.send m).fences = s.fences := rfl
@[simp] theorem State.send_ports (s : State) (m : Out) : (s.send m).ports = s.ports := rfl
@[simp] theorem State.send_routers (s : State) (m : Out) : (s.send m).routers = s.routers := rfl
@[simp] theorem State.send_net (s : State) (m : Out) : (s.send m).net = s.net := rfl
@[simp] theorem State.send_lines (s : State) (m : Out) : (s.send m).lines = s.lines := rfl
@[simp] theorem State.send_vaults (s : State) (m : Out) : (s.send m).vaults = s.vaults := rfl
@[simp] theorem State.send_gov (s : State) (m : Out) : (s.send m).gov = s.gov := rfl
@[simp] theorem State.send_bays (s : State) (m : Out) : (s.send m).bays = s.bays := rfl
@[simp] theorem State.send_invs (s : State) (m : Out) : (s.send m).invs = s.invs := rfl
@[simp] theorem State.send_buses (s : State) (m : Out) : (s.send m).buses = s.buses := rfl
@[simp] theorem State.send_plies (s : State) (m : Out) : (s.send m).plies = s.plies := rfl
@[simp] theorem State.send_txns (s : State) (m : Out) : (s.send m).txns = s.txns := rfl
@[simp] theorem State.send_strRsv (s : State) (m : Out) : (s.send m).strRsv = s.strRsv := rfl
@[simp] theorem State.send_keys (s : State) (m : Out) : (s.send m).keys = s.keys := rfl
@[simp] theorem State.send_cores (s : State) (m : Out) : (s.send m).cores = s.cores := rfl
@[simp] theorem State.send_bends (s : State) (m : Out) : (s.send m).bends = s.bends := rfl
@[simp] theorem State.send_channels (s : State) (m : Out) : (s.send m).channels = s.channels := rfl
@[simp] theorem State.send_engines (s : State) (m : Out) : (s.send m).engines = s.engines := rfl
@[simp] theorem State.send_cap (s : State) (m : Out) : (s.send m).cap = s.cap := rfl
@[simp] theorem State.send_pawls (s : State) (m : Out) : (s.send m).pawls = s.pawls := rfl
@[simp] theorem State.send_power (s : State) (m : Out) : (s.send m).power = s.power := rfl
@[simp] theorem State.send_halyards (s : State) (m : Out) : (s.send m).halyards = s.halyards := rfl
@[simp] theorem State.send_fld_of (s : State) (m : Out) (g : Fld) (j : Nat) : (s.send m).fld g j = s.fld g j := rfl
@[simp] theorem State.send_byte_of (s : State) (m : Out) (x : Nat) : (s.send m).byte x = s.byte x := rfl
@[simp] theorem State.send_port_of (s : State) (m : Out) (j : Nat) : (s.send m).port j = s.port j := rfl
@[simp] theorem State.send_router_of (s : State) (m : Out) (j : Nat) : (s.send m).router j = s.router j := rfl
@[simp] theorem State.send_line_of (s : State) (m : Out) (j : Nat) : (s.send m).line j = s.line j := rfl
@[simp] theorem State.send_vault_of (s : State) (m : Out) (j : Nat) : (s.send m).vault j = s.vault j := rfl
@[simp] theorem State.send_bay_of (s : State) (m : Out) (j : Nat) : (s.send m).bay j = s.bay j := rfl
@[simp] theorem State.send_bus_of (s : State) (m : Out) (j : Nat) : (s.send m).bus j = s.bus j := rfl
@[simp] theorem State.send_ply_of (s : State) (m : Out) (j : Nat) : (s.send m).ply j = s.ply j := rfl
@[simp] theorem State.send_core_of (s : State) (m : Out) (j : Nat) : (s.send m).core j = s.core j := rfl
@[simp] theorem State.send_bend_of (s : State) (m : Out) (j : Nat) : (s.send m).bend j = s.bend j := rfl
@[simp] theorem State.send_chan_of (s : State) (m : Out) (j : Nat) : (s.send m).chan j = s.chan j := rfl
@[simp] theorem State.send_engine_of (s : State) (m : Out) (j : Nat) : (s.send m).engine j = s.engine j := rfl
@[simp] theorem State.send_task_of (s : State) (m : Out) (j : Nat) : (s.send m).task j = s.task j := rfl
@[simp] theorem State.send_pawl_of (s : State) (m : Out) (j : Nat) : (s.send m).pawl j = s.pawl j := rfl
@[simp] theorem State.send_hal_of (s : State) (m : Out) (j : Nat) : (s.send m).hal j = s.hal j := rfl

/-! ### `settle` -/

@[simp] theorem State.settle_pending (s : State) : s.settle.pending = s.pending := rfl
@[simp] theorem State.settle_clockUs (s : State) : s.settle.clockUs = s.clockUs := rfl
@[simp] theorem State.settle_fresh (s : State) : s.settle.fresh = s.fresh := rfl
@[simp] theorem State.settle_out (s : State) : s.settle.out = s.out := rfl
@[simp] theorem State.settle_module (s : State) : s.settle.module = s.module := rfl
@[simp] theorem State.settle_regs (s : State) : s.settle.regs = s.regs := rfl
@[simp] theorem State.settle_mem (s : State) : s.settle.mem = s.mem := rfl
@[simp] theorem State.settle_log (s : State) : s.settle.log = s.log := rfl
@[simp] theorem State.settle_nvm (s : State) : s.settle.nvm = s.nvm := rfl
@[simp] theorem State.settle_plate (s : State) : s.settle.plate = s.plate := rfl
@[simp] theorem State.settle_cleat (s : State) : s.settle.cleat = s.cleat := rfl
@[simp] theorem State.settle_fences (s : State) : s.settle.fences = s.fences := rfl
@[simp] theorem State.settle_ports (s : State) : s.settle.ports = s.ports := rfl
@[simp] theorem State.settle_routers (s : State) : s.settle.routers = s.routers := rfl
@[simp] theorem State.settle_net (s : State) : s.settle.net = s.net := rfl
@[simp] theorem State.settle_lines (s : State) : s.settle.lines = s.lines := rfl
@[simp] theorem State.settle_vaults (s : State) : s.settle.vaults = s.vaults := rfl
@[simp] theorem State.settle_gov (s : State) : s.settle.gov = s.gov := rfl
@[simp] theorem State.settle_bays (s : State) : s.settle.bays = s.bays := rfl
@[simp] theorem State.settle_invs (s : State) : s.settle.invs = s.invs := rfl
@[simp] theorem State.settle_buses (s : State) : s.settle.buses = s.buses := rfl
@[simp] theorem State.settle_plies (s : State) : s.settle.plies = s.plies := rfl
@[simp] theorem State.settle_txns (s : State) : s.settle.txns = s.txns := rfl
@[simp] theorem State.settle_strRsv (s : State) : s.settle.strRsv = s.strRsv := rfl
@[simp] theorem State.settle_keys (s : State) : s.settle.keys = s.keys := rfl
@[simp] theorem State.settle_cores (s : State) : s.settle.cores = s.cores := rfl
@[simp] theorem State.settle_bends (s : State) : s.settle.bends = s.bends := rfl
@[simp] theorem State.settle_channels (s : State) : s.settle.channels = s.channels := rfl
@[simp] theorem State.settle_engines (s : State) : s.settle.engines = s.engines := rfl
@[simp] theorem State.settle_cap (s : State) : s.settle.cap = s.cap := rfl
@[simp] theorem State.settle_pawls (s : State) : s.settle.pawls = s.pawls := rfl
@[simp] theorem State.settle_power (s : State) : s.settle.power = s.power := rfl
@[simp] theorem State.settle_halyards (s : State) : s.settle.halyards = s.halyards := rfl
@[simp] theorem State.settle_fld_of (s : State) (g : Fld) (j : Nat) : s.settle.fld g j = s.fld g j := rfl
@[simp] theorem State.settle_byte_of (s : State) (x : Nat) : s.settle.byte x = s.byte x := rfl
@[simp] theorem State.settle_port_of (s : State) (j : Nat) : s.settle.port j = s.port j := rfl
@[simp] theorem State.settle_router_of (s : State) (j : Nat) : s.settle.router j = s.router j := rfl
@[simp] theorem State.settle_line_of (s : State) (j : Nat) : s.settle.line j = s.line j := rfl
@[simp] theorem State.settle_vault_of (s : State) (j : Nat) : s.settle.vault j = s.vault j := rfl
@[simp] theorem State.settle_bay_of (s : State) (j : Nat) : s.settle.bay j = s.bay j := rfl
@[simp] theorem State.settle_bus_of (s : State) (j : Nat) : s.settle.bus j = s.bus j := rfl
@[simp] theorem State.settle_ply_of (s : State) (j : Nat) : s.settle.ply j = s.ply j := rfl
@[simp] theorem State.settle_core_of (s : State) (j : Nat) : s.settle.core j = s.core j := rfl
@[simp] theorem State.settle_bend_of (s : State) (j : Nat) : s.settle.bend j = s.bend j := rfl
@[simp] theorem State.settle_chan_of (s : State) (j : Nat) : s.settle.chan j = s.chan j := rfl
@[simp] theorem State.settle_engine_of (s : State) (j : Nat) : s.settle.engine j = s.engine j := rfl
@[simp] theorem State.settle_task_of (s : State) (j : Nat) : s.settle.task j = s.task j := rfl
@[simp] theorem State.settle_pawl_of (s : State) (j : Nat) : s.settle.pawl j = s.pawl j := rfl
@[simp] theorem State.settle_hal_of (s : State) (j : Nat) : s.settle.hal j = s.hal j := rfl

/-! ### `silent` -/

@[simp] theorem State.silent_pending (s : State) : s.silent.pending = s.pending := rfl
@[simp] theorem State.silent_clockUs (s : State) : s.silent.clockUs = s.clockUs := rfl
@[simp] theorem State.silent_fresh (s : State) : s.silent.fresh = s.fresh := rfl
@[simp] theorem State.silent_module (s : State) : s.silent.module = s.module := rfl
@[simp] theorem State.silent_outputs (s : State) : s.silent.outputs = s.outputs := rfl
@[simp] theorem State.silent_regs (s : State) : s.silent.regs = s.regs := rfl
@[simp] theorem State.silent_mem (s : State) : s.silent.mem = s.mem := rfl
@[simp] theorem State.silent_log (s : State) : s.silent.log = s.log := rfl
@[simp] theorem State.silent_nvm (s : State) : s.silent.nvm = s.nvm := rfl
@[simp] theorem State.silent_plate (s : State) : s.silent.plate = s.plate := rfl
@[simp] theorem State.silent_cleat (s : State) : s.silent.cleat = s.cleat := rfl
@[simp] theorem State.silent_fences (s : State) : s.silent.fences = s.fences := rfl
@[simp] theorem State.silent_ports (s : State) : s.silent.ports = s.ports := rfl
@[simp] theorem State.silent_routers (s : State) : s.silent.routers = s.routers := rfl
@[simp] theorem State.silent_net (s : State) : s.silent.net = s.net := rfl
@[simp] theorem State.silent_lines (s : State) : s.silent.lines = s.lines := rfl
@[simp] theorem State.silent_vaults (s : State) : s.silent.vaults = s.vaults := rfl
@[simp] theorem State.silent_gov (s : State) : s.silent.gov = s.gov := rfl
@[simp] theorem State.silent_bays (s : State) : s.silent.bays = s.bays := rfl
@[simp] theorem State.silent_invs (s : State) : s.silent.invs = s.invs := rfl
@[simp] theorem State.silent_buses (s : State) : s.silent.buses = s.buses := rfl
@[simp] theorem State.silent_plies (s : State) : s.silent.plies = s.plies := rfl
@[simp] theorem State.silent_txns (s : State) : s.silent.txns = s.txns := rfl
@[simp] theorem State.silent_strRsv (s : State) : s.silent.strRsv = s.strRsv := rfl
@[simp] theorem State.silent_keys (s : State) : s.silent.keys = s.keys := rfl
@[simp] theorem State.silent_cores (s : State) : s.silent.cores = s.cores := rfl
@[simp] theorem State.silent_bends (s : State) : s.silent.bends = s.bends := rfl
@[simp] theorem State.silent_channels (s : State) : s.silent.channels = s.channels := rfl
@[simp] theorem State.silent_engines (s : State) : s.silent.engines = s.engines := rfl
@[simp] theorem State.silent_cap (s : State) : s.silent.cap = s.cap := rfl
@[simp] theorem State.silent_pawls (s : State) : s.silent.pawls = s.pawls := rfl
@[simp] theorem State.silent_power (s : State) : s.silent.power = s.power := rfl
@[simp] theorem State.silent_halyards (s : State) : s.silent.halyards = s.halyards := rfl
@[simp] theorem State.silent_fld_of (s : State) (g : Fld) (j : Nat) : s.silent.fld g j = s.fld g j := rfl
@[simp] theorem State.silent_byte_of (s : State) (x : Nat) : s.silent.byte x = s.byte x := rfl
@[simp] theorem State.silent_port_of (s : State) (j : Nat) : s.silent.port j = s.port j := rfl
@[simp] theorem State.silent_router_of (s : State) (j : Nat) : s.silent.router j = s.router j := rfl
@[simp] theorem State.silent_line_of (s : State) (j : Nat) : s.silent.line j = s.line j := rfl
@[simp] theorem State.silent_vault_of (s : State) (j : Nat) : s.silent.vault j = s.vault j := rfl
@[simp] theorem State.silent_bay_of (s : State) (j : Nat) : s.silent.bay j = s.bay j := rfl
@[simp] theorem State.silent_bus_of (s : State) (j : Nat) : s.silent.bus j = s.bus j := rfl
@[simp] theorem State.silent_ply_of (s : State) (j : Nat) : s.silent.ply j = s.ply j := rfl
@[simp] theorem State.silent_core_of (s : State) (j : Nat) : s.silent.core j = s.core j := rfl
@[simp] theorem State.silent_bend_of (s : State) (j : Nat) : s.silent.bend j = s.bend j := rfl
@[simp] theorem State.silent_chan_of (s : State) (j : Nat) : s.silent.chan j = s.chan j := rfl
@[simp] theorem State.silent_engine_of (s : State) (j : Nat) : s.silent.engine j = s.engine j := rfl
@[simp] theorem State.silent_task_of (s : State) (j : Nat) : s.silent.task j = s.task j := rfl
@[simp] theorem State.silent_pawl_of (s : State) (j : Nat) : s.silent.pawl j = s.pawl j := rfl
@[simp] theorem State.silent_hal_of (s : State) (j : Nat) : s.silent.hal j = s.hal j := rfl

/-! ### `withQueue` -/

@[simp] theorem State.withQueue_clockUs (s : State) (q : List Sys2Proof.Instr) : (s.withQueue q).clockUs = s.clockUs := rfl
@[simp] theorem State.withQueue_fresh (s : State) (q : List Sys2Proof.Instr) : (s.withQueue q).fresh = s.fresh := rfl
@[simp] theorem State.withQueue_out (s : State) (q : List Sys2Proof.Instr) : (s.withQueue q).out = s.out := rfl
@[simp] theorem State.withQueue_module (s : State) (q : List Sys2Proof.Instr) : (s.withQueue q).module = s.module := rfl
@[simp] theorem State.withQueue_outputs (s : State) (q : List Sys2Proof.Instr) : (s.withQueue q).outputs = s.outputs := rfl
@[simp] theorem State.withQueue_regs (s : State) (q : List Sys2Proof.Instr) : (s.withQueue q).regs = s.regs := rfl
@[simp] theorem State.withQueue_mem (s : State) (q : List Sys2Proof.Instr) : (s.withQueue q).mem = s.mem := rfl
@[simp] theorem State.withQueue_log (s : State) (q : List Sys2Proof.Instr) : (s.withQueue q).log = s.log := rfl
@[simp] theorem State.withQueue_nvm (s : State) (q : List Sys2Proof.Instr) : (s.withQueue q).nvm = s.nvm := rfl
@[simp] theorem State.withQueue_plate (s : State) (q : List Sys2Proof.Instr) : (s.withQueue q).plate = s.plate := rfl
@[simp] theorem State.withQueue_cleat (s : State) (q : List Sys2Proof.Instr) : (s.withQueue q).cleat = s.cleat := rfl
@[simp] theorem State.withQueue_fences (s : State) (q : List Sys2Proof.Instr) : (s.withQueue q).fences = s.fences := rfl
@[simp] theorem State.withQueue_ports (s : State) (q : List Sys2Proof.Instr) : (s.withQueue q).ports = s.ports := rfl
@[simp] theorem State.withQueue_routers (s : State) (q : List Sys2Proof.Instr) : (s.withQueue q).routers = s.routers := rfl
@[simp] theorem State.withQueue_net (s : State) (q : List Sys2Proof.Instr) : (s.withQueue q).net = s.net := rfl
@[simp] theorem State.withQueue_lines (s : State) (q : List Sys2Proof.Instr) : (s.withQueue q).lines = s.lines := rfl
@[simp] theorem State.withQueue_vaults (s : State) (q : List Sys2Proof.Instr) : (s.withQueue q).vaults = s.vaults := rfl
@[simp] theorem State.withQueue_gov (s : State) (q : List Sys2Proof.Instr) : (s.withQueue q).gov = s.gov := rfl
@[simp] theorem State.withQueue_bays (s : State) (q : List Sys2Proof.Instr) : (s.withQueue q).bays = s.bays := rfl
@[simp] theorem State.withQueue_invs (s : State) (q : List Sys2Proof.Instr) : (s.withQueue q).invs = s.invs := rfl
@[simp] theorem State.withQueue_buses (s : State) (q : List Sys2Proof.Instr) : (s.withQueue q).buses = s.buses := rfl
@[simp] theorem State.withQueue_plies (s : State) (q : List Sys2Proof.Instr) : (s.withQueue q).plies = s.plies := rfl
@[simp] theorem State.withQueue_txns (s : State) (q : List Sys2Proof.Instr) : (s.withQueue q).txns = s.txns := rfl
@[simp] theorem State.withQueue_strRsv (s : State) (q : List Sys2Proof.Instr) : (s.withQueue q).strRsv = s.strRsv := rfl
@[simp] theorem State.withQueue_keys (s : State) (q : List Sys2Proof.Instr) : (s.withQueue q).keys = s.keys := rfl
@[simp] theorem State.withQueue_cores (s : State) (q : List Sys2Proof.Instr) : (s.withQueue q).cores = s.cores := rfl
@[simp] theorem State.withQueue_bends (s : State) (q : List Sys2Proof.Instr) : (s.withQueue q).bends = s.bends := rfl
@[simp] theorem State.withQueue_channels (s : State) (q : List Sys2Proof.Instr) : (s.withQueue q).channels = s.channels := rfl
@[simp] theorem State.withQueue_engines (s : State) (q : List Sys2Proof.Instr) : (s.withQueue q).engines = s.engines := rfl
@[simp] theorem State.withQueue_cap (s : State) (q : List Sys2Proof.Instr) : (s.withQueue q).cap = s.cap := rfl
@[simp] theorem State.withQueue_pawls (s : State) (q : List Sys2Proof.Instr) : (s.withQueue q).pawls = s.pawls := rfl
@[simp] theorem State.withQueue_power (s : State) (q : List Sys2Proof.Instr) : (s.withQueue q).power = s.power := rfl
@[simp] theorem State.withQueue_halyards (s : State) (q : List Sys2Proof.Instr) : (s.withQueue q).halyards = s.halyards := rfl
@[simp] theorem State.withQueue_fld_of (s : State) (q : List Sys2Proof.Instr) (g : Fld) (j : Nat) : (s.withQueue q).fld g j = s.fld g j := rfl
@[simp] theorem State.withQueue_byte_of (s : State) (q : List Sys2Proof.Instr) (x : Nat) : (s.withQueue q).byte x = s.byte x := rfl
@[simp] theorem State.withQueue_port_of (s : State) (q : List Sys2Proof.Instr) (j : Nat) : (s.withQueue q).port j = s.port j := rfl
@[simp] theorem State.withQueue_router_of (s : State) (q : List Sys2Proof.Instr) (j : Nat) : (s.withQueue q).router j = s.router j := rfl
@[simp] theorem State.withQueue_line_of (s : State) (q : List Sys2Proof.Instr) (j : Nat) : (s.withQueue q).line j = s.line j := rfl
@[simp] theorem State.withQueue_vault_of (s : State) (q : List Sys2Proof.Instr) (j : Nat) : (s.withQueue q).vault j = s.vault j := rfl
@[simp] theorem State.withQueue_bay_of (s : State) (q : List Sys2Proof.Instr) (j : Nat) : (s.withQueue q).bay j = s.bay j := rfl
@[simp] theorem State.withQueue_bus_of (s : State) (q : List Sys2Proof.Instr) (j : Nat) : (s.withQueue q).bus j = s.bus j := rfl
@[simp] theorem State.withQueue_ply_of (s : State) (q : List Sys2Proof.Instr) (j : Nat) : (s.withQueue q).ply j = s.ply j := rfl
@[simp] theorem State.withQueue_core_of (s : State) (q : List Sys2Proof.Instr) (j : Nat) : (s.withQueue q).core j = s.core j := rfl
@[simp] theorem State.withQueue_bend_of (s : State) (q : List Sys2Proof.Instr) (j : Nat) : (s.withQueue q).bend j = s.bend j := rfl
@[simp] theorem State.withQueue_chan_of (s : State) (q : List Sys2Proof.Instr) (j : Nat) : (s.withQueue q).chan j = s.chan j := rfl
@[simp] theorem State.withQueue_engine_of (s : State) (q : List Sys2Proof.Instr) (j : Nat) : (s.withQueue q).engine j = s.engine j := rfl
@[simp] theorem State.withQueue_task_of (s : State) (q : List Sys2Proof.Instr) (j : Nat) : (s.withQueue q).task j = s.task j := rfl
@[simp] theorem State.withQueue_pawl_of (s : State) (q : List Sys2Proof.Instr) (j : Nat) : (s.withQueue q).pawl j = s.pawl j := rfl
@[simp] theorem State.withQueue_hal_of (s : State) (q : List Sys2Proof.Instr) (j : Nat) : (s.withQueue q).hal j = s.hal j := rfl

end Sys2Proof.Machine
end

