-- ==== Sys2Proof/Laws/Issue.lean ====
section
/-!
SUPPORT. What issuing and retiring an instruction does: the one lemma that every result of a core instruction goes through.
-/
namespace Sys2Proof.Machine

theorem commit_next (s : State) (f : State → State) : commit s f = .next ((f s.silent).withQueue s.pending).settle := rfl

theorem Core.pendingOn_mono (x : Core) {u w : Uses} (hg : ∀ n ∈ u.g, n ∈ w.g) (hv : ∀ n ∈ u.v, n ∈ w.v) (ha : ∀ n ∈ u.a, n ∈ w.a)
    (h : x.pendingOn w = false) : x.pendingOn u = false := by
  simp only [Core.pendingOn, Bool.or_eq_false_iff, List.any_eq_false] at h ⊢
  refine ⟨fun a hm => ?_, fun m hm => ?_⟩
  · have h1 := h.1 a hm
    simp only [Bool.or_eq_true, not_or] at h1 ⊢
    refine ⟨?_, ?_⟩
    · cases hd : a.op.dstG with
      | none => simp
      | some n =>
        have := h1.1
        simp only [hd, Bool.and_eq_true, decide_eq_true_eq, List.contains_iff_mem] at this ⊢
        exact fun e => this ⟨e.1, hg n e.2⟩
    · cases hd : a.op.dstV with
      | none => simp
      | some n =>
        have := h1.2
        simp only [hd, List.contains_iff_mem] at this ⊢
        exact fun e => this (hv n e)
  · have h2 := h.2 m hm
    simp only [List.contains_iff_mem] at h2 ⊢
    exact fun e => h2 (ha _ e)

/-- A core whose next instruction may issue with some registers in use may issue with fewer. -/
theorem State.mayIssue_mono (s : State) (c : Nat) {u w : Uses} (hg : ∀ n ∈ u.g, n ∈ w.g) (hv : ∀ n ∈ u.v, n ∈ w.v) (ha : ∀ n ∈ u.a, n ∈ w.a)
    (h : s.mayIssue c w = true) : s.mayIssue c u = true := by
  simp only [State.mayIssue, Bool.and_eq_true, Bool.not_eq_true'] at h ⊢
  exact ⟨h.1, Core.pendingOn_mono _ hg hv ha h.2⟩

/-- An instruction that may issue, on legal operands, has its effect. -/
theorem State.instr_issues (s : State) (c : Nat) (u : Uses) (f : State → State) (h : s.mayIssue c u = true) : s.instr c true u f = f s := by
  simp [State.instr, h]

/-- One that may not issue changes nothing. -/
theorem State.instr_waits (s : State) (c : Nat) (legal : Bool) (u : Uses) (f : State → State) (h : s.mayIssue c u = false) :
    s.instr c legal u f = s := by
  simp [State.instr, h]

/-- Setting a core and retiring on it. -/
theorem retires_of_retireAt (s : State) (c pc : Nat) (x : Core) :
    Retires c (x.at_ pc) s (((s.silent.setCore c x).retireAt c pc).withQueue s.pending).settle := by
  have hb : ∀ (u : State) (f : Fld) (n : Nat), f.desc.acc ≠ .rc → u.bump f c n = u.setFld f c (wrapAdd f.desc.w (u.fld f c) n) :=
    fun u f n h => State.bump_wraps u f c n h
  have hw : Fld.CR_RETIRED_COUNT.desc.w = 64 := rfl
  have hc : Fld.CR_RETIRED_COUNT.desc.acc ≠ .rc := by decide
  constructor
  · simp [State.retireAt, hb _ _ _ hc, Core.at_, State.settle, State.core, State.setCore, State.setFld]
  · intro j hj
    simp only [State.retireAt, hb _ _ _ hc]
    show SMap.get _ (SMap.set _ (SMap.set _ s.cores c _) c _) j = _
    rw [SMap.get_set_other _ _ _ hj, SMap.get_set_other _ _ _ hj]; rfl
  · simp only [State.retireAt, hb _ _ _ hc]
    show State.fld (State.setFld _ _ _ _) _ _ = _
    simp
  · simp only [State.retireAt, hb _ _ _ hc]
    show State.fld (State.setFld _ _ _ _) _ _ = _
    simp [hw, wrapAdd]
  · intro f i hf
    simp only [State.retireAt, hb _ _ _ hc]
    show State.fld (State.setFld _ _ _ _) _ _ = _
    rcases hf with ⟨h1, h2⟩ | h
    · simp [h1, h2]
    · simp [h]
  · simp only [State.retireAt, hb _ _ _ hc]
    rfl

/-- An instruction that only changes its core. -/
theorem completes_update (i : Sys2Proof.Instr) (s : State) (c : Nat) (u : Uses) (f : Core → Core)
    (he : exec i s = commit s (fun s => s.instr c true u (fun s => s.update c f))) (h : s.mayIssue c u = true)
    (hpc : (f (s.core c)).pc = (s.core c).pc) :
    Completes i s (Retires c ((f (s.core c)).at_ ((s.core c).pc + 8)) s) := by
  refine ⟨_, he, ?_⟩
  have h' : s.silent.mayIssue c u = true := h
  have e : s.silent.update c f = (s.silent.setCore c (f (s.core c))).retireAt c ((s.core c).pc + 8) := by
    simp only [State.update, State.retire, State.setCore_core_same, State.silent_core_of, hpc]
  simp only [State.instr_issues _ _ _ _ h', e]
  exact retires_of_retireAt s c _ _

end Sys2Proof.Machine
end

