-- ==== Sys2Proof/Laws/Walk.lean ====
section
/-!
SUPPORT. The laws of translation: a walk depends on the address only through its fathom.
-/
namespace Sys2Proof.Machine

/-- A field of an address above its fathom offset. -/
theorem bits_fathom (a b hi lo : Nat) (h : a / 0x1000000 = b / 0x1000000) (hl : 24 ≤ lo) : bits a hi lo = bits b hi lo := by
  unfold bits
  rw [Nat.shiftRight_eq_div_pow, Nat.shiftRight_eq_div_pow]
  obtain ⟨k, rfl⟩ := Nat.exists_eq_add_of_le hl
  rw [Nat.pow_add, ← Nat.div_div_eq_div_mul, ← Nat.div_div_eq_div_mul]
  have : (2 : Nat) ^ 24 = 0x1000000 := by decide
  rw [this, h]
theorem entryAddr_fathom (t l a b : Nat) (h : a / 0x1000000 = b / 0x1000000) : entryAddr t l a = entryAddr t l b := by
  unfold entryAddr
  split <;> rw [bits_fathom a b _ _ h (by decide)]
theorem readLeaf_fathom (s : State) (c l a b e : Nat) (h : a / 0x1000000 = b / 0x1000000) : s.readLeaf c l a e = s.readLeaf c l b e := by
  simp only [State.readLeaf, bits_fathom a b 47 30 h (by decide), bits_fathom a b 47 24 h (by decide)]
theorem readEntry_fathom (s : State) (c l a b e : Nat) (h : a / 0x1000000 = b / 0x1000000) : s.readEntry c l a e = s.readEntry c l b e := by
  simp only [State.readEntry, readLeaf_fathom s c _ a b _ h]
theorem walkFrom_fathom (s : State) (c a b : Nat) (h : a / 0x1000000 = b / 0x1000000) : ∀ n t l, s.walkFrom c a n t l = s.walkFrom c b n t l
  | 0, _, _ => rfl
  | n + 1, t, l => by simp only [State.walkFrom, entryAddr_fathom t l a b h, readEntry_fathom s c l a b _ h, walkFrom_fathom s c a b h n]
/-- A walk depends on the address only through its fathom. -/
theorem walk_fathom (s : State) (c a b : Nat) (h : a / 0x1000000 = b / 0x1000000) : s.walk c a = s.walk c b := by
  have hp : s.preFault c a = s.preFault c b := by
    unfold State.preFault
    have : 2 ^ 48 ≤ a ↔ 2 ^ 48 ≤ b := by omega
    simp only [this]
  simp only [State.walk, hp, walkFrom_fathom s c a b h]

end Sys2Proof.Machine
end

