-- ==== Sys2Proof/Tests/Slice0.lean ====
section
/-!
SUPPORT. The author's own tests: an ill-formed term for each check of `Instr.wf`, a state and operands that meet the hypotheses of each statement, with
the effect that the rule gives there, and the worked examples of the spec.
-/
set_option Elab.async false

namespace Sys2Proof.Tests
open Sys2Proof Sys2Proof.Machine

/-- The command answers a next state of which `p` holds. -/
def nextIs (i : Instr) (s : State) (p : State → Bool) : Bool :=
  match exec i s with
  | .next t => p t
  | _ => false

/-- A step answers a next state of which `p` holds. -/
def stepIs (s : State) (p : State → Bool) : Bool :=
  match step s with
  | .next t => p t
  | _ => false

/-- The wafer in service, Gwyn running. -/
def up : State := { module := { aoOn := true, railsOn := true, wakeState := .ready, rated := true, full := true }, cleat := { running := true } }

/-- `s` with register fields set. -/
def flds (s : State) (l : List (Fld × Nat × Nat)) : State := l.foldl (fun t e => t.setFld e.1 e.2.1 e.2.2) s

/-- Core 0 running RIG-level code at 0x1000, its line fetched. -/
def rigOn (x : Core) : State :=
  { flds up [(.CR_STATUS_PSTATE, 0, 0)] with cores := [(0, { x with pc := 0x1000, l1i := [0x40], running := true, rig := true })] }

/-- Core 0 with its general registers. -/
def withG (l : List (Nat × Nat)) : Core := { g := l.map (fun e => (e.1, BitVec.ofNat 64 e.2)) }

/-- The instruction retires on core 0 of `s` and gives register `d` the value `v`. -/
def gives (i : Instr) (s : State) (d v : Nat) : Bool :=
  nextIs i s (fun t => (t.core 0).rg d = BitVec.ofNat 64 v && (t.core 0).pc = 0x1008 && t.fld .CR_RETIRED_COUNT 0 = 1)

/-- Coil 3 is open at home on port 0, whose link is up. It owns vault 0 and ply 2. Its tables lie in fathom 1 of vault 0; its DVA fathoms 0 and 1 are
fathoms 2 and 3 of Spool (Tables 8.1 and 8.2). Submission ring 0 lies at DVA 0x2000, completion ring 0 at 0x4000, the skein directory at 0x8000, the knot
table at 0x1000000. -/
def coil3 : State :=
  let s := flds up [(.CP_COIL_ADMIN_STATE, 3, 1), (.CP_COIL_ADMIN_HOME_VALID, 3, 1), (.SP_KEY_CTL_VALID, 3, 1), (.SP_VAULT_OWNER_COIL, 0, 3), (.SP_VAULT_OWNER_VALID, 0, 1),
    (.SP_VAULT_STATUS_STATE, 0, 1), (.CP_PLY_OWNER_COIL, 2, 3), (.CP_PLY_OWNER_VALID, 2, 1), (.DT_CTX_ROOT_ROOT, 3, 0x1000), (.DT_CTX_TBL_BASE, 3, 1), (.DT_CTX_TBL_COUNT, 3, 1),
    (.DT_CTX_CTL_ENABLE, 3, 1), (.CP_COIL_KNOTS_BASE, 3, 1), (.CP_COIL_KNOTS_LOG2, 3, 4), (.CP_COIL_SKDIR_BASE, 3, 8), (.CP_COIL_SKDIR_VALID, 3, 1), (.CP_SRING_CFG_BASE, 192, 0x40),
    (.CP_SRING_CFG_ENABLE, 192, 1), (.CP_CRING_CFG_BASE, 192, 0x200), (.CP_CRING_CFG_ENABLE, 192, 1)]
  let t := (((s.store 0x1000000 8 0x1001001).store 0x1001000 8 0x1002001).store 0x1002000 8 0x20000E2).store 0x1002008 8 0x30000E2
  { t with ports := [(0, { present := true, released := true, linkUp := true })] }

/-- Core 64, of ply 8 and bay 2, runs task 0 of coil 3 at DVA 0x1000; its line is fetched. -/
def coilOn (x : Core) : State :=
  let leaf : Leaf := { coil := 3, fathom := 0, fathoms := 1, target := .near, base := 0x2000000, r := true, w := true, x := true, region := .coh }
  let core : Core := { x with pc := 0x1000, l1i := [0x80040], running := true, coil := some 3, task := some 0, itb := [leaf], dtb := [leaf] }
  { flds coil3 [(.CR_STATUS_PSTATE, 64, 0)] with
    cores := [(64, core)]
    cap := { tasks := [(0, { coil := 3, state := .running 64 })], nextTask := 1 } }

/-! ### Scalar instructions (chapter 13) -/

/-- g1 = -7, g2 = 2, g3 = 0, g4 = 2^63. -/
def sc : State := rigOn (withG [(1, 2 ^ 64 - 7), (2, 2), (4, 2 ^ 63), (5, 0x0000_F0F0_0000_0001)])

theorem witness_scalar_issue : sc.mayIssue 0 { g := [5, 1, 2, 3] } = true := by decide +kernel
theorem test_add_wraps : gives (.add 0 6 1 (.reg 2)) sc 6 (2 ^ 64 - 5) ∧ gives (.add 0 6 4 (.reg 4)) sc 6 0 ∧ gives (.add 0 6 2 (.imm (2 ^ 28 - 3))) sc 6 (2 ^ 64 - 1) := by decide +kernel
theorem test_add_g0_discarded : nextIs (.add 0 0 1 (.reg 2)) sc (fun t => (t.core 0).rg 0 = 0 && (t.core 0).g = (sc.core 0).g && (t.core 0).pc = 0x1008) := by decide +kernel
theorem test_sub : gives (.sub 0 6 3 2) sc 6 (2 ^ 64 - 2) := by decide +kernel
theorem test_mul_highs : gives (.mul 0 6 1 (.reg 2)) sc 6 (2 ^ 64 - 14) ∧ gives (.mulh 0 6 1 2) sc 6 (2 ^ 64 - 1) ∧ gives (.mulhu 0 6 1 2) sc 6 1 := by decide +kernel
/-- Division truncates towards zero; a zero divisor gives all ones, and the dividend as remainder; the most negative number by minus one is itself (R451). -/
theorem test_div : gives (.div 0 6 1 2) sc 6 (2 ^ 64 - 3) ∧ gives (.rem 0 6 1 2) sc 6 (2 ^ 64 - 1) ∧ gives (.div 0 6 1 3) sc 6 (2 ^ 64 - 1) ∧ gives (.rem 0 6 1 3) sc 6 (2 ^ 64 - 7) ∧
    gives (.divu 0 6 4 2) sc 6 (2 ^ 62) ∧ gives (.remu 0 6 4 3) sc 6 (2 ^ 63) := by decide +kernel
theorem test_div_overflow : gives (.div 0 6 4 7) (rigOn (withG [(4, 2 ^ 63), (7, 2 ^ 64 - 1)])) 6 (2 ^ 63) ∧
    gives (.rem 0 6 4 7) (rigOn (withG [(4, 2 ^ 63), (7, 2 ^ 64 - 1)])) 6 0 := by decide +kernel
theorem test_compare : gives (.slt 0 6 1 (.reg 2)) sc 6 1 ∧ gives (.sltu 0 6 1 (.reg 2)) sc 6 0 ∧ gives (.seq 0 6 3 (.reg 0)) sc 6 1 ∧ gives (.min 0 6 1 2) sc 6 (2 ^ 64 - 7) ∧
    gives (.max 0 6 1 2) sc 6 2 ∧ gives (.minu 0 6 1 2) sc 6 2 ∧ gives (.maxu 0 6 1 2) sc 6 (2 ^ 64 - 7) ∧ gives (.csel 0 6 1 2 3) sc 6 2 := by decide +kernel
theorem test_logic : gives (.and 0 6 1 (.reg 5)) sc 6 0xF0F0_0000_0001 ∧ gives (.or 0 6 2 (.reg 5)) sc 6 0xF0F0_0000_0003 ∧ gives (.xor 0 6 5 (.reg 5)) sc 6 0 ∧
    gives (.andn 0 6 5 2) sc 6 0xF0F0_0000_0001 := by decide +kernel
theorem test_shifts : gives (.sll 0 6 5 (.imm 63)) sc 6 (2 ^ 63) ∧ gives (.srl 0 6 1 (.imm 60)) sc 6 15 ∧ gives (.sra 0 6 1 (.reg 2)) sc 6 (2 ^ 64 - 2) ∧ gives (.ror 0 6 5 (.imm 1)) sc 6 (2 ^ 63 + 0x7878_0000_0000) := by decide +kernel
theorem test_bit_counts : gives (.clz 0 6 5) sc 6 16 ∧ gives (.ctz 0 6 4) sc 6 63 ∧ gives (.clz 0 6 3) sc 6 64 ∧ gives (.popc 0 6 5) sc 6 9 := by decide +kernel
theorem test_extend : gives (.sext 0 6 1 0) sc 6 (2 ^ 64 - 7) ∧ gives (.zext 0 6 1 0) sc 6 249 ∧ gives (.zext 0 6 1 2) sc 6 (2 ^ 32 - 7) ∧ gives (.movk 0 4 0xABCD 3) sc 4 0xABCD_0000_0000_0000 := by decide +kernel
theorem test_branches : nextIs (.beq 0 1 1 (2 ^ 28 - 1)) sc (fun t => (t.core 0).pc = 0xFF8) ∧ nextIs (.bne 0 1 1 4) sc (fun t => (t.core 0).pc = 0x1008) ∧
    nextIs (.blt 0 1 2 1) sc (fun t => (t.core 0).pc = 0x1008) ∧ nextIs (.bge 0 1 2 4) sc (fun t => (t.core 0).pc = 0x1008) ∧ nextIs (.bltu 0 1 2 4) sc (fun t => (t.core 0).pc = 0x1008) ∧
    nextIs (.bgeu 0 1 2 4) sc (fun t => (t.core 0).pc = 0x1020) ∧ nextIs (.bpany 0 0 4) sc (fun t => (t.core 0).pc = 0x1020) ∧ nextIs (.bpnone 0 1 4) sc (fun t => (t.core 0).pc = 0x1020) := by decide +kernel
theorem test_jumps : nextIs (.j 0 (2 ^ 27)) sc (fun t => (t.core 0).pc = 2 ^ 64 + 0x1000 - 2 ^ 30) ∧ nextIs (.jal 0 7 2) sc (fun t => (t.core 0).pc = 0x1010 && (t.core 0).rg 7 = 0x1008) ∧
    nextIs (.jr 0 4 1) sc (fun t => (t.core 0).pc = 2 ^ 63 + 8) ∧ nextIs (.jalr 0 4 4 0) sc (fun t => (t.core 0).pc = 2 ^ 63 && (t.core 0).rg 4 = 0x1008) ∧
    nextIs (.icinv 0) sc (fun t => (t.core 0).l1i = []) ∧ nextIs (.nop 0) sc (fun t => (t.core 0).pc = 0x1008) := by decide +kernel

theorem witness_PreciseFaults : (coilOn {}).mayIssue 64 { g := [40, 2] } = true ∧ ((coilOn {}).core 64).fault = none ∧ ((coilOn {}).core 64).rig = false := by decide +kernel
def faultsWith (i : Instr) (s : State) (code addr : Nat) : Bool :=
  nextIs i s (fun t => (t.core 64).ending && (t.core 64).pc = 0x1000 && (t.core 64).g = (s.core 64).g && (t.core 64).fault = some { code := code, pc := 0x1000, addr := addr })
theorem test_illegal : faultsWith (.illegalInstruction 64) (coilOn {}) 6 0 ∧ faultsWith (.clz 64 40 2) (coilOn {}) 6 0 := by decide +kernel
theorem test_misaligned_jump : faultsWith (.jr 64 2 1) (coilOn (withG [(2, 4)])) 5 12 ∧ faultsWith (.jalr 64 1 2 1) (coilOn (withG [(2, 4)])) 5 12 := by decide +kernel

/-! ### Vector and matrix instructions (chapters 13 and 14) -/

/-- A vector register with the given low elements of `w` bits. -/
def vec (w : Nat) (l : List Nat) : BitVec 1024 := BitVec.ofNat 1024 (l.foldr (fun v n => v % 2 ^ w + 2 ^ w * n) 0)
/-- v1 holds 0x7FFFFFFF, 5, -1; v2 holds 1, 40, 2; p1 names elements 0 and 2 of 32 bits; g1 = 7. -/
def vc : State := rigOn { g := [(1, 7)], v := [(1, vec 32 [0x7FFFFFFF, 5, 0xFFFFFFFF]), (2, vec 32 [1, 40, 2]), (3, vec 32 [9, 9, 9, 9])], p := [(1, 0xF0F), (2, 0x0FF)] }
/-- The low elements of register `d` afterwards, and CC_FPFLAGS. -/
def lanes (i : Instr) (s : State) (d w : Nat) (l : List Nat) (flags : Nat) : Bool :=
  nextIs i s (fun t => (List.range l.length).map (elem ((t.core 0).rv d) w) = l && (t.core 0).cr 9 = flags && (t.core 0).pc = 0x1008)

theorem witness_vector : vc.mayIssue 0 { g := [1, 2], v := [3, 1, 2] } = true ∧ vmodOk { ty := 3, pred := 1 } {} tyInt = true ∧ vmodOk { ty := 3, u := true, pred := 1, z := true } { u := true } tyInt = true ∧
    vmodOk { ty := 4, imm := 63 } { imm := true } tyInt = true ∧ vmodOk { ty := 7, rmo := 5 } { rmo := true } tyFp = true ∧ vmodOk { ty := 14 } {} tyAll = true := by decide +kernel
theorem test_vadd_predicated : lanes (.vadd 0 3 1 2 { ty := 3, pred := 1 }) vc 3 32 [0x80000000, 9, 1, 9] 0 ∧ lanes (.vadd 0 3 1 2 { ty := 3, pred := 1, z := true }) vc 3 32 [0x80000000, 0, 1, 0] 0 := by decide +kernel
theorem test_vadds_saturates : lanes (.vadds 0 3 1 2 { ty := 3, pred := 1 }) vc 3 32 [0x7FFFFFFF, 9, 1, 9] flSaturated ∧ lanes (.vsubs 0 3 2 1 { ty := 3, u := true }) vc 3 32 [0, 35, 0, 0] flSaturated := by decide +kernel
theorem test_vmul : lanes (.vmul 0 3 1 2 { ty := 3 }) vc 3 32 [0x7FFFFFFF, 200, 0xFFFFFFFE] 0 ∧ lanes (.vmulh 0 3 1 2 { ty := 3, u := true }) vc 3 32 [0, 0, 1] 0 ∧ lanes (.vmulh 0 3 1 2 { ty := 3 }) vc 3 32 [0, 0, 0xFFFFFFFF] 0 := by decide +kernel
theorem test_vshifts : lanes (.vshl 0 3 1 2 { ty := 3 }) vc 3 32 [0xFFFFFFFE, 0, 0xFFFFFFFC] 0 ∧ lanes (.vshr 0 3 1 2 { ty := 3 }) vc 3 32 [0x3FFFFFFF, 0, 0xFFFFFFFF] 0 ∧
    lanes (.vshri 0 3 1 { ty := 3, imm := 31, u := true }) vc 3 32 [0, 0, 1] 0 ∧ lanes (.vshli 0 3 1 { ty := 3, imm := 31 }) vc 3 32 [0x80000000, 0x80000000, 0x80000000] 0 := by decide +kernel
theorem test_vabs_vneg : lanes (.vabs 0 3 1 { ty := 3 }) vc 3 32 [0x7FFFFFFF, 5, 1] 0 ∧ lanes (.vneg 0 3 2 { ty := 3 }) vc 3 32 [0xFFFFFFFF, 0xFFFFFFD8, 0xFFFFFFFE] 0 ∧ lanes (.vabs 0 3 4 { ty := 1 }) (rigOn { v := [(4, 0x80)] }) 3 8 [0x80] 0 := by decide +kernel
theorem test_vmin_vmax : lanes (.vmin 0 3 1 2 { ty := 3 }) vc 3 32 [1, 5, 0xFFFFFFFF] 0 ∧ lanes (.vmax 0 3 1 2 { ty := 3, u := true }) vc 3 32 [0x7FFFFFFF, 40, 0xFFFFFFFF] 0 := by decide +kernel
theorem test_vector_logic : lanes (.vand 0 3 1 2 { ty := 3 }) vc 3 32 [1, 0, 2] 0 ∧ lanes (.vor 0 3 1 2 { ty := 3 }) vc 3 32 [0x7FFFFFFF, 45, 0xFFFFFFFF] 0 ∧ lanes (.vxor 0 3 1 2 { ty := 3 }) vc 3 32 [0x7FFFFFFE, 45, 0xFFFFFFFD] 0 ∧
    lanes (.vnot 0 3 2 { ty := 3 }) vc 3 32 [0xFFFFFFFE] 0 ∧ lanes (.vmov 0 3 1 { ty := 3, pred := 1 }) vc 3 32 [0x7FFFFFFF, 9, 0xFFFFFFFF, 9] 0 := by decide +kernel
theorem test_vector_moves : lanes (.vbcast 0 3 1 { ty := 3, pred := 1 }) vc 3 32 [7, 9, 7, 9] 0 ∧ lanes (.vperm 0 3 1 2 { ty := 3 }) vc 3 32 [5, 0, 0xFFFFFFFF] 0 ∧ lanes (.vslideup 0 3 1 { ty := 3, imm := 1 }) vc 3 32 [0, 0x7FFFFFFF, 5] 0 ∧
    lanes (.vslidedn 0 3 1 { ty := 3, imm := 2 }) vc 3 32 [0xFFFFFFFF, 0] 0 := by decide +kernel
/-- 1.5 + 2.25, 1 / 3 rounded both ways, the square root of -1. -/
theorem test_vector_float : lanes (.vfadd 0 3 1 2 { ty := 7 }) (rigOn { v := [(1, vec 32 [0x3FC00000]), (2, vec 32 [0x40100000])] }) 3 32 [0x40700000] 0 ∧
    lanes (.vfdiv 0 3 1 2 { ty := 7, pred := 1 }) (rigOn { v := [(1, vec 32 [0x3F800000]), (2, vec 32 [0x40400000])], p := [(1, 1)] }) 3 32 [0x3EAAAAAB] flInexact ∧
    lanes (.vfsqrt 0 3 1 { ty := 7, pred := 1 }) (rigOn { v := [(1, vec 32 [0xBF800000])], p := [(1, 1)] }) 3 32 [0x7FC00000] flInvalid := by decide +kernel
theorem test_vector_float_more : lanes (.vfsub 0 3 1 2 { ty := 7 }) (rigOn { v := [(1, vec 32 [0x3FC00000]), (2, vec 32 [0x40100000])] }) 3 32 [0xBF400000] 0 ∧
    lanes (.vfmul 0 3 1 2 { ty := 7 }) (rigOn { v := [(1, vec 32 [0x3FC00000]), (2, vec 32 [0x40100000])] }) 3 32 [0x40580000] 0 ∧
    lanes (.vfma 0 3 1 2 { ty := 7 }) (rigOn { v := [(1, vec 32 [0x3FC00000]), (2, vec 32 [0x40000000]), (3, vec 32 [0x3F800000])] }) 3 32 [0x40800000] 0 ∧
    lanes (.vfmin 0 3 1 2 { ty := 7 }) (rigOn { v := [(1, vec 32 [0xFFC00001]), (2, vec 32 [0x40100000])] }) 3 32 [0x40100000] 0 ∧
    lanes (.vfneg 0 3 1 { ty := 5 }) (rigOn { v := [(1, vec 16 [0x3C00])] }) 3 16 [0xBC00] 0 := by decide +kernel
/-- 2^3 and log2 8 are exact; log2 0 is minus infinity with the divide-by-zero flag. -/
theorem test_exp2_log2 : lanes (.vexp2 0 3 1 { ty := 7, pred := 1 }) (rigOn { v := [(1, vec 32 [0x40400000])], p := [(1, 1)] }) 3 32 [0x41000000] 0 ∧
    lanes (.vlog2 0 3 1 { ty := 7, pred := 1 }) (rigOn { v := [(1, vec 32 [0x41000000])], p := [(1, 1)] }) 3 32 [0x40400000] 0 ∧
    lanes (.vfrcp 0 3 1 { ty := 7, pred := 1 }) (rigOn { v := [(1, vec 32 [0x40000000])], p := [(1, 1)] }) 3 32 [0x3F000000] 0 := by decide +kernel

theorem witness_compares : vc.mayIssue 0 { g := [3, 1], v := [1, 2] } = true ∧ vmodOk { ty := 3, sub := 5 } { u := true, sub := true } tyInt = true ∧ vmodOk { ty := 7, sub := 6 } { sub := true } tyFp = true := by decide +kernel
def predIs (i : Instr) (s : State) (d v : Nat) : Bool := nextIs i s (fun t => (t.core 0).rp d = BitVec.ofNat 128 v && (t.core 0).pc = 0x1008)
theorem test_vcmp : nextIs (.vcmp 0 3 1 2 { ty := 3, sub := 2 }) vc (fun t => ((t.core 0).rp 3).toNat % 0x1000 = 0xFF0) ∧ nextIs (.vcmp 0 3 1 2 { ty := 3, sub := 2, u := true, pred := 1, z := true }) vc (fun t => (t.core 0).rp 3 = 0) ∧
    nextIs (.vfcmp 0 3 1 2 { ty := 7, sub := 6 }) vc (fun t => ((t.core 0).rp 3).toNat % 0x1000 = 0xF0F) := by decide +kernel
theorem test_predicates : predIs (.pand 0 3 1 2) vc 3 0xF ∧ predIs (.por 0 3 1 2) vc 3 0xFFF ∧ predIs (.pxor 0 3 1 2) vc 3 0xFF0 ∧ predIs (.pandn 0 3 1 2) vc 3 0xF00 ∧ predIs (.pnot 0 3 1) vc 3 (2 ^ 128 - 1 - 0xF0F) ∧
    predIs (.pfirst 0 3 1 3) vc 3 (2 ^ 28 - 1) ∧ predIs (.pand 0 0 1 2) vc 0 (2 ^ 128 - 1) ∧ gives (.pcnt 0 5 1 3) vc 5 2 := by decide +kernel
theorem witness_elements : vc.mayIssue 0 { g := [3, 1, 2], v := [3, 1] } = true ∧ vmodOk { ty := 3, imm := 31 } { u := true, imm := true, pred := false } tyElem = true ∧ vmodOk { ty := 3 } { sub := true } tyInt = true ∧
    vmodOk { ty := 6, ty2 := 5, part := 0, rmo := 1 } { rmo := true, ty2 := true, part := true } tyFp = true ∧ tyWidth 5 = tyWidth 6 ∧ 5 ∈ tyFp ∧ vmodOk { ty := 8 } { pred := false } tyMx = true ∧
    vmodOk { ty := 12, part := 7, rmo := 1 } { rmo := true, part := true, pred := false } tyMx = true ∧ (7 + 1) * 32 * tyWidth 12 ≤ 1024 := by decide +kernel
theorem test_elements : gives (.vext 0 5 1 { ty := 3, imm := 2 }) vc 5 (2 ^ 64 - 1) ∧ gives (.vext 0 5 1 { ty := 3, imm := 2, u := true }) vc 5 (2 ^ 32 - 1) ∧ lanes (.vins 0 3 1 { ty := 3, imm := 1 }) vc 3 32 [9, 7, 9] 0 ∧
    lanes (.vred 0 3 2 { ty := 3, pred := 1 }) vc 3 32 [3, 0, 0, 0] 0 := by decide +kernel
/-- FP16 1.0 as BF16; 448 and 1 into MX FP8 E4M3 with the scale of 2^0; the block scale of a largest value 448. -/
theorem test_conversions : lanes (.vcvt 0 3 1 { ty := 6, ty2 := 5, pred := 1 }) (rigOn { v := [(1, vec 16 [0x3C00])], p := [(1, 1)] }) 3 16 [0x3F80] 0 ∧
    lanes (.vcvtmx 0 3 1 2 { ty := 8 }) (rigOn { g := [(2, 127)], v := [(1, vec 32 [0x43E00000, 0x3F800000])] }) 3 8 [0x7E, 0x38] 0 ∧ gives (.vmxscale 0 5 1 { ty := 8 }) (rigOn { v := [(1, vec 32 [0x43E00000])] }) 5 127 ∧
    lanes (.vmxdec 0 3 1 2 { ty := 8 }) (rigOn { g := [(2, 128)], v := [(1, vec 8 [0x7E, 0x38])] }) 3 32 [0x44600000, 0x40000000] 0 := by decide +kernel

/-- g1 = 64, g2 = 0x1FFF80, g3 = 128, g5 the dimensions M 2, N 2, K 2, g6 = 256; the tile store holds 1, 2, 3 from byte 64 on. -/
def tc : State := rigOn { withG [(1, 64), (2, 0x1FFF80), (3, 128), (5, 0x00020202), (6, 256)] with tile := [(64, 1), (65, 2), (66, 3)], v := [(1, vec 8 [7, 8])] }
theorem witness_tile : tc.mayIssue 0 { g := [1, 2, 3], v := [1] } = true ∧ ((tc.core 0).mmaReads 0x1FFF80 128 = false ∧ 0x1FFF80 + 128 ≤ 0x200000) ∧ (tc.core 0).tileBad 64 128 = false ∧ (tc.core 0).mma = [] ∧
    0x1FFF80 % 8 = 0 := by decide +kernel
/-- The tile store holds the bytes from `at_` on afterwards. -/
def tileIs (i : Instr) (s : State) (at_ : Nat) (l : List Byte) : Bool := nextIs i s (fun t => (List.range l.length).map (fun k => SMap.get 0 (t.core 0).tile (at_ + k)) = l && (t.core 0).pc = 0x1008)
theorem test_tile_moves : lanes (.tld 0 3 1 0 0) tc 3 8 [1, 2, 3, 0] 0 ∧ tileIs (.tst 0 1 2 0) tc 0x1FFF80 [7, 8, 0] ∧ tileIs (.tcpy 0 2 1 3) tc 0x1FFF80 [1, 2, 3] ∧ tileIs (.tzero 0 1 3) tc 64 [0, 0, 0] := by decide +kernel
theorem test_tile_faults : nextIs (.tld 0 3 3 0 0) (rigOn (withG [(3, 4)])) (fun t => (t.core 0).fault.map (·.code) = some 5) ∧ nextIs (.tld 0 3 3 0 0) (rigOn (withG [(3, 0x1FFF88)])) (fun t => (t.core 0).fault.map (·.code) = some 2) ∧
    nextIs (.tzero 0 1 0) tc (fun t => (t.core 0).pc = 0x1008 && (t.core 0).tile = (tc.core 0).tile) := by decide +kernel

theorem witness_mma : mmaPair 1 1 false = true ∧ mmaDims ((tc.core 0).rg 5).toNat = true ∧ tc.mayIssue 0 { g := [1, 2, 5] } = true ∧
    ((tc.core 0).mmaOf 1 1 2 5 1 1 false true).k = 2 ∧ 0x1FFF80 + 4 * 8 * 2 ≤ 0x200000 := by decide +kernel
def mm : MmaOp := { acc := 1, ovw := true, mx := false, fa := 1, fb := 1, ta := 0, tas := 0, tb := 256, tbs := 0, m := 2, n := 2, k := 2, pc := 0x1000 }
def mc : State := rigOn { mma := [mm], tile := [(0, 3), (1, 255), (64, 2), (256, 5), (257, 128), (288, 1)] }
theorem test_mma_queued : nextIs (.mma 0 1 1 2 5 1 1 false true) tc (fun t => (t.core 0).mma.length = 1 && (t.core 0).pc = 0x1008) := by decide +kernel
/-- A = [3 2; -1 0], B = [5 -128; 1 0]: 3·5+2·1, 3·-128, -5, 128. -/
theorem test_mma_complete : (mc.core 0).tileBad 0 128 = false ∧ (mc.core 0).tileBad 256 64 = false ∧ nextIs (.mmaComplete 0) mc (fun t => (t.core 0).ra 1 0 0 = 17 && (t.core 0).ra 1 0 1 = BitVec.ofInt 32 (-384) &&
    (t.core 0).ra 1 1 0 = BitVec.ofInt 32 (-5) && (t.core 0).ra 1 1 1 = 128 && (t.core 0).ra 1 2 0 = 0 && (t.core 0).mma = []) := by decide +kernel
def ac : State := rigOn { withG [(1, 256), (2, 67)] with acc := [(2048, 5), (2048 + 32 * 3 + 1, 0x40490FDB)], tile := [(256, 9)], v := [(1, vec 32 [4, 6])] }
theorem witness_accumulators : ac.mayIssue 0 { g := [1, 2], v := [3, 1], a := [1] } = true ∧ (ac.core 0).mma = [] ∧ (ac.core 0).tileBad 256 8192 = false ∧ (accTypes true).contains 1 = true := by decide +kernel

/-! ### Loads, stores, fences and atomics (chapters 9, 11, 13 and 14) -/

/-- The first WPA of the scratch of ply 0. -/
def scr : Nat := 0x210000000000
/-- g1 = 64, g2 = 0x8182, g3 = 2, g4 = 0x1FFFF8, the last 8 B of two carved ways; bytes 64 to 67 of the own scratch hold 0xFE, 0xFF, 3, 4. -/
def mem0 (x : Core) : State :=
  let s := rigOn { x with g := (withG [(1, 64), (2, 0x8182), (3, 2), (4, 0x1FFFF8)]).g }
  { flds s [(.PC_STATUS_WAYS, 0, 2)] with mem := [(scr + 64, 0xFE), (scr + 65, 0xFF), (scr + 66, 3), (scr + 67, 4)] }
def hit : State := mem0 { l1d := [(scr / 64 + 1, 15)] }
/-- The last of the carved bytes: the boundary of the valid offsets. -/
theorem witness_ScalarMemory : hit.mayIssue 0 { g := [5, 1, 3, 2] } = true ∧ (hit.core 0).mb = [] ∧ (hit.core 0).nt = [] ∧ (hit.core 0).progress = 0 ∧ mmodOk { sz := 3, space := 1 } true = true ∧
    mmodOk { sz := 3, space := 1 } false = true ∧ 0x1FFFF8 % 8 = 0 ∧ hit.scratchValid 0 0x1FFFF8 = true ∧ hit.scratchValid 0 0x200000 = false ∧ (hit.ply 0).scratchPoison.contains (0x1FFFF8 / 64) = false ∧
    bit (hit.l1dPieces 0 ((scr + 64) / 64)) (64 % 64 / 16) = true ∧ bit (hit.l1dPieces 0 ((scr + 0x1FFFF8) / 64)) 3 = false ∧ (hit.core 0).fault = none := by decide +kernel
theorem test_load_extends : gives (.ld 0 5 1 { sz := 1, space := 1 } 0) hit 5 0xFFFE ∧ gives (.ld 0 5 1 { sz := 1, sx := true, space := 1 } 0) hit 5 (2 ^ 64 - 2) ∧ gives (.ld 0 5 1 { sz := 0, space := 1, off := 2 } 0) hit 5 3 ∧
    gives (.ldx 0 5 1 3 { sz := 0, sx := true, space := 1, off := 2 ^ 22 - 1 } ) hit 5 (2 ^ 64 - 1) := by decide +kernel
theorem test_load_misses : nextIs (.ld 0 5 4 { sz := 3, space := 1 } 0) hit (fun t => (t.core 0).rg 5 = 0 && (t.core 0).pc = 0x1008 && (t.core 0).accesses.map (fun z => (z.dva, z.parts)) = [(0x1FFFF8, [{ elem := 0, wpa := scr + 0x1FFFF8, size := 8 }])]) := by decide +kernel
theorem test_store_buffers : nextIs (.st 0 1 2 { sz := 1, space := 1, off := 8 }) hit (fun t => t.mem = hit.mem && (t.core 0).mb.map (fun z => (z.line, z.mask, z.field 8 2)) = [(scr / 64 + 1, 0x300, 0x8182)]) ∧
    nextIs (.stx 0 1 3 2 { sz := 2, space := 1 }) hit (fun t => (t.core 0).mb.map (fun z => (z.line, z.mask, z.field 8 4)) = [(scr / 64 + 1, 0xF00, 0x8182)]) := by decide +kernel
theorem test_misaligned_load : nextIs (.ld 0 5 1 { sz := 3, space := 1, off := 4 } 0) hit (fun t => (t.core 0).fault.map (·.code) = some 5 && (t.core 0).pc = 0x1000) := by decide +kernel

/-- Element 0 of 32 bits active under p1; v2 holds the offsets 2 and 0. -/
def vmem : State := mem0 { l1d := [(scr / 64 + 1, 15)], p := [(1, 0xF0F), (2, 0xF)], v := [(2, vec 32 [4, 0]), (3, vec 32 [9, 9, 9])] }
theorem witness_VectorMemory : vmem.mayIssue 0 { g := [1, 2], v := [3, 2] } = true ∧ vmmodOk { ty := 3, space := 1, pred := 2 } true tyMem = true ∧ vmmodOk { ty := 3, space := 1, pred := 2 } false tyIndex = true ∧
    ((List.range 32).filter (fun i => ((vmem.core 0).rp 2).getLsbD (i * 4))) = [0] ∧ vmem.scratchValid 0 64 = true ∧ bit (vmem.l1dPieces 0 ((scr + 64) / 64)) 0 = true := by decide +kernel
theorem test_vector_loads : lanes (.vld 0 3 1 { ty := 3, space := 1, pred := 1 }) vmem 3 32 [0x0403FFFE, 9, 0] 0 ∧ lanes (.vldb 0 3 1 { ty := 1, space := 1, pred := 2, z := true }) vmem 3 8 [0xFE, 0xFE, 0xFE, 0xFE, 0] 0 ∧
    lanes (.vlds 0 3 1 3 { ty := 2, space := 1, pred := 2 }) vmem 3 16 [0xFFFE, 0x0403, 9] 0 ∧ lanes (.vldx 0 3 1 2 { ty := 3, space := 1, pred := 2 }) vmem 3 32 [0, 9] 0 := by decide +kernel
theorem test_vector_stores : nextIs (.vst 0 3 1 { ty := 3, space := 1, pred := 1 }) vmem (fun t => (t.core 0).mb.map (fun z => (z.line, z.mask, z.field 0 4)) = [(scr / 64 + 1, 0xF0F, 9)]) ∧
    nextIs (.vsts 0 3 1 1 { ty := 3, space := 1, pred := 1 }) vmem (fun t => (t.core 0).mb.map (fun z => (z.line, z.mask, z.field 0 4)) = [(scr / 64 + 1, 0xF, 9), (scr / 64 + 3, 0xF, 9)]) ∧
    nextIs (.vstx 0 3 1 2 { ty := 3, space := 1, pred := 2 }) vmem (fun t => (t.core 0).mb.map (fun z => (z.line, z.mask)) = [(scr / 64 + 1, 0xF0)]) := by decide +kernel
theorem witness_NonTemporalStores : vmem.mayIssue 0 { g := [1, 2], v := [3] } = true ∧ memForm { sz := 3, space := 1 } [0, 1, 2, 3] = true ∧ (vmem.core 0).nt = [] ∧ memForm { space := 1, off := 64 } [0] = true := by decide +kernel
theorem test_nt : nextIs (.stNt 0 1 2 { sz := 1, space := 1 }) vmem (fun t => t.mem = vmem.mem && (t.core 0).nt.map (fun z => (z.block, z.mask, z.data.toNat >>> 512 % 65536)) = [(scr / 256, BitVec.ofNat 256 (3 * 2 ^ 64), 0x8182)]) ∧
    nextIs (.vstNt 0 3 1 { space := 1, off := 64 }) vmem (fun t => (t.core 0).nt.map (fun z => (z.block, z.mask, z.data.toNat >>> 1024 % 2 ^ 32)) = [(scr / 256, BitVec.ofNat 256 ((2 ^ 128 - 1) * 2 ^ 128), 9)]) := by decide +kernel

def rsv : State := mem0 { rsv := some { base := scr + 64, size := 64 } }
theorem witness_AtomicsAndReservations : hit.mayIssue 0 { g := [5, 1, 2, 3, 0] } = true ∧ memForm { sz := 2, space := 1 } [2, 3] = true ∧ memForm { sz := 1, space := 1 } [1, 2] = true ∧ hit.plyCoil (plyOfCore 0) = (hit.core 0).coil ∧
    (hit.core 0).rsv = none ∧ rsv.mayIssue 0 { g := [5, 1, 2, 3, 0] } = true ∧ (rsv.core 0).rsv = some { base := scr + 64, size := 64 } := by decide +kernel
def amoIs (i : Instr) (s : State) (old new : Nat) : Bool := nextIs i s (fun t => (t.core 0).rg 5 = BitVec.ofNat 64 old && t.load (scr + 64) 4 = new && t.load (scr + 68) 4 = 0 && (t.core 0).pc = 0x1008)
theorem test_atomics : let m : MMod := { sz := 2, space := 1 }
    amoIs (.amoswap 0 5 1 2 m) hit 0x0403FFFE 0x8182 ∧ amoIs (.amoadd 0 5 1 2 m) hit 0x0403FFFE 0x04048180 ∧ amoIs (.amoand 0 5 1 2 m) hit 0x0403FFFE 0x8182 ∧ amoIs (.amoor 0 5 1 2 m) hit 0x0403FFFE 0x0403FFFE ∧
    amoIs (.amoxor 0 5 1 2 m) hit 0x0403FFFE 0x04037E7C ∧ amoIs (.amomin 0 5 1 2 m) hit 0x0403FFFE 0x8182 ∧ amoIs (.amomaxu 0 5 1 2 m) hit 0x0403FFFE 0x0403FFFE ∧ amoIs (.amocas 0 5 1 2 3 m) hit 0x0403FFFE 0x0403FFFE := by decide +kernel
theorem test_atomics_signed : amoIs (.amomin 0 5 1 3 { sz := 2, space := 1 }) { hit with mem := (hit.store (scr + 64) 4 0xFFFFFFF0).mem } 0xFFFFFFF0 0xFFFFFFF0 ∧
    amoIs (.amomax 0 5 1 3 { sz := 2, space := 1 }) { hit with mem := (hit.store (scr + 64) 4 0xFFFFFFF0).mem } 0xFFFFFFF0 2 ∧ amoIs (.amominu 0 5 1 3 { sz := 2, space := 1 }) { hit with mem := (hit.store (scr + 64) 4 0xFFFFFFF0).mem } 0xFFFFFFF0 2 := by decide +kernel
/-- 1.5 + 2.25 at FP32. -/
theorem test_atomics_float : let s : State := { mem0 {} with mem := ((mem0 {}).store (scr + 64) 4 0x3FC00000).mem, cores := [(0, { ((mem0 {}).core 0) with g := (withG [(1, 64), (2, 0x40100000)]).g })] }
    amoIs (.amofadd 0 5 1 2 { sz := 2, space := 1 }) s 0x3FC00000 0x40700000 ∧ amoIs (.amofmin 0 5 1 2 { sz := 2, space := 1 }) s 0x3FC00000 0x3FC00000 ∧ amoIs (.amofmax 0 5 1 2 { sz := 2, space := 1 }) s 0x3FC00000 0x40100000 := by decide +kernel
theorem test_reservations : nextIs (.ldrsv 0 5 1 { sz := 2, space := 1 }) hit (fun t => (t.core 0).rg 5 = 0x0403FFFE && (t.core 0).rsv = some { base := scr + 64, size := 64 }) ∧ ((rsv.element 0 64 { sz := 2, space := 1 } .write (fun s el => s.storeCond 0 5 2 false el)).load (scr + 64) 4 = 0x8182) ∧
    amoIs (.stcnd 0 5 1 2 { sz := 2, space := 1 }) hit 1 0x0403FFFE := by decide +kernel

/-- A store waits in the merging buffer. -/
def held : State := mem0 { mb := [{ line := scr / 64 + 1, mask := 1, data := 7 }] }
theorem witness_Fences : hit.mayIssue 0 {} = true ∧ (hit.core 0).accesses = [] ∧ (hit.core 0).flush = [] ∧ (hit.core 0).flushing = [] ∧ held.mayIssue 0 {} = true ∧ (held.core 0).mb ≠ [] ∧ bit 10 1 = true ∧ bit 10 3 = true := by decide +kernel
theorem test_fences : nextIs (.fenceC 0 10) hit (fun t => (t.core 0).pc = 0x1008) ∧ nextIs (.fenceS 0 31) hit (fun t => (t.core 0).pc = 0x1008) ∧
    nextIs (.fenceP 0 10) held (fun t => (t.core 0).pc = 0x1000 && (t.core 0).mb.all (·.draining) && t.fld .CR_STATUS_PSTATE 0 = 1) := by decide +kernel

/-- A RIG-level access at the first byte of window 2 of Bend port 1. -/
def wf (n : Nat) : State := rigOn { withG [(1, 17 * 2 ^ 48 + 2 * 2 ^ 40)] with progress := n }
theorem witness_WindowFence : (wf 0).mayIssue 0 { g := [1] } = true ∧ (match (wf 0).xlat 0 0 (17 * 2 ^ 48 + 2 * 2 ^ 40) .read with | .ok w _ _ => decide (placeOf w = .splice 1 2 0) | _ => false) = true ∧ bit 10 1 = true ∧ bit 10 3 = true := by decide +kernel
theorem test_window_fence : nextIs (.bendWfence 0 1 10) (wf 0) (fun t => (t.core 0).pc = 0x1000 && (t.core 0).accesses.map (·.op) = [.wfence] && (t.core 0).progress = 1) ∧ nextIs (.bendWfence 0 1 10) (wf 1) (fun t => (t.core 0).pc = 0x1008) := by decide +kernel

/-- The ply of a task of coil 3 holds the line of DVA 64 modified. -/
def own : State := { coilOn (withG [(1, 64)]) with plies := [(8, { cache := [(0x80001, { st := .m, data := 0xAB })] })] }
theorem witness_MaintenanceByAddress : own.mayIssue 64 { g := [1] } = true ∧ (match own.xlat 64 0 64 .read, own.xlat 64 0 64 .write with | .ok w .coh l, .ok w' .coh _ => decide (w = 0x2000040 ∧ w' = w ∧ placeOf w = .spool 0 w ∧ own.targetCheck (some 3) (leafShared l) 0x80001 = spOk) | _, _ => false) = true ∧
    ((own.ply 8).copy 0x80001).map (·.st) = some .m ∧ (own.bus 2).reqs = [] ∧ memForm {} [0] = true ∧ memForm { space := 1 } [0] = true := by decide +kernel
theorem test_maintenance : nextIs (.clean 64 1 {}) own (fun t => ((t.ply 8).copy 0x80001).map (·.st) = some .e && (t.bus 2).wbs.map (fun z => (z.line, z.kind, z.data)) = [(0x80001, .cln, some 0xAB)] && (t.core 64).pc = 0x1008) ∧
    nextIs (.cleanInv 64 1 {}) own (fun t => (t.ply 8).copy 0x80001 = none && (t.bus 2).wbs.map (fun z => (z.line, z.data)) = [(0x80001, some 0xAB)]) ∧ nextIs (.invalidate 64 1 {}) own (fun t => (t.ply 8).copy 0x80001 = none) ∧
    nextIs (.zero 0 1 { space := 1 }) hit (fun t => t.mem = []) := by decide +kernel

/-! ### System registers, waits, tasks and Capstan (chapters 12, 14 and 17) -/

/-- `core` 64 of `coilOn` after a command. -/
def core64 (i : Instr) (s : State) (p : Core → Bool) : Bool := nextIs i s (fun t => p (t.core 64))
def sys : State := coilOn { withG [(1, 2 ^ 64 - 1), (2, 5)] with cc := [(0x10, 0x2000)] }
def rig64 : State := { sys with cores := [(64, { (sys.core 64) with rig := true, l1i := [0x40] })] }
theorem witness_SystemRegisters : sys.mayIssue 64 { g := [3, 1] } = true ∧ sys.repeatable 64 = false ∧ (sys.core 64).changing = none ∧ (sys.core 64).opNext = none ∧ (sys.core 64).progress = 0 ∧ rig64.mayIssue 64 { g := [3, 1] } = true ∧
    (flds sys [(.CP_COIL_ADMIN_REPEATABLE, 3, 1)]).repeatable 64 = true ∧ sys.grantPoint 64 0 = sys.fld .CR_STATUS_OP 64 := by decide +kernel
theorem test_crr : core64 (.crr 64 3 1) sys (fun x => x.rg 3 = 3 && x.pc = 0x1008) ∧ core64 (.crr 64 3 2) sys (fun x => x.rg 3 = 64) ∧ core64 (.crr 64 3 2) (flds sys [(.CP_COIL_ADMIN_REPEATABLE, 3, 1)]) (fun x => x.rg 3 = 0) ∧
    core64 (.crr 64 3 0x10) rig64 (fun x => x.rg 3 = 0x2000) := by decide +kernel
theorem test_crw : core64 (.crw 64 1 8) sys (fun x => x.cr 8 = 8) ∧ core64 (.crw 64 1 9) sys (fun x => x.cr 9 = 63) ∧ core64 (.crw 64 2 0x12) rig64 (fun x => x.cr 0x12 = 5) := by decide +kernel
theorem test_hint_and_point : core64 (.ehint 64 1) sys (fun x => x.pc = 0x1008) ∧ core64 (.opreq 64 3 0) sys (fun x => x.pc = 0x1008 && x.rg 3 = 0) := by decide +kernel
theorem witness_RigServices : sys.mayIssue 64 { g := [1, 2] } = true ∧ (sys.core 64).mma = [] ∧ (sys.core 64).rig = false ∧ (sys.core 64).fault = none ∧ (rig64.core 64).rig = true ∧ rig64.mayIssue 64 { g := [1, 2] } = true := by decide +kernel
theorem test_rig_services : core64 (.rigret 64) rig64 (fun x => x.pc = 0x2000 && !x.rig) ∧ core64 (.rigret 64) sys (fun x => x.fault.map (·.code) = some 6) ∧
    core64 (.tilez 64) sys (fun x => x.fault.map (·.code) = some 6) ∧ core64 (.tilez 64) rig64 (fun x => x.pc = 0x1008) := by decide +kernel

/-- Knot 1 holds 2 and is armed, knot 15, the last, is idle; g1 = 1, g2 = 15, g3 = 16, g4 = 100. -/
def kn : State := (coilOn (withG [(1, 1), (2, 15), (3, 16), (4, 100), (5, 2)])).store 0x3000008 8 0x100000002
def asleep (w : CoreWait) : State := flds { kn with cores := [(64, { (kn.core 64) with wait := w, mon := some { line := 5, hit := true } })] } [(.CR_STATUS_PSTATE, 64, 2)]
theorem witness_Waits : kn.mayIssue 64 { g := [6, 1, 4] } = true ∧ kn.knotCount (kn.coilOf 64) = 16 ∧ (kn.knot 3 1).value = 2 ∧ (kn.knot 3 15).value = 0 ∧ kn.repeatable 64 = false ∧ (kn.core 64).mb = [] ∧
    (asleep (.kwait 1 6)).knot 3 1 = { value := 2, armed := true, mark := false } ∧ hit.mayIssue 0 { g := [1] } = true ∧ memForm { space := 1 } [0] = true := by decide +kernel
theorem test_kwait : core64 (.kwait 64 6 3 4) kn (fun x => x.rg 6 = 2) ∧ core64 (.kwait 64 6 2 4) kn (fun x => x.rg 6 = 0 && x.pc = 0x1008) ∧ core64 (.kwait 64 6 1 0) kn (fun x => x.rg 6 = 1) ∧
    nextIs (.kwait 64 6 1 4) kn (fun t => (t.core 64).wait = .kwait 1 6 && t.fld .CR_STATUS_PSTATE 64 = 2) := by decide +kernel
theorem test_knot_wait_ends : core64 (.knotWaitEnd 64) (asleep (.kwait 15 6)) (fun x => x.rg 6 = 0 && x.pc = 0x1008) ∧ core64 (.waitTimeout 64) (asleep (.kwait 1 6)) (fun x => x.rg 6 = 1 && x.wait = .none) ∧
    core64 (.knotWaitEnd 64) (asleep (.kwait 1 6)) (fun x => x.wait = .kwait 1 6) := by decide +kernel
theorem test_event_waits : core64 (.evwait 64 6 4 3) kn (fun x => x.wait = .evwait true true 6) ∧ core64 (.evwait 64 6 0 2) kn (fun x => x.rg 6 = 4 && x.pc = 0x1008) ∧ core64 (.monitorWake 64) (asleep (.evwait true false 6)) (fun x => x.rg 6 = 1 && x.mon = none) ∧
    core64 (.waitTimeout 64) (asleep (.evwait true false 6)) (fun x => x.rg 6 = 5) ∧ nextIs (.evmon 0 1 { space := 1 }) hit (fun t => (t.core 0).mon = some { line := scr / 64 + 1 }) := by decide +kernel

/-- A task that has started its termination. -/
def ending (f : Option CoreFault) : State := { kn with cores := [(64, { (kn.core 64) with ending := true, result := 9, fault := f })] }
theorem witness_TaskEnds : kn.mayIssue 64 { g := [1] } = true ∧ (kn.core 64).running = true ∧ (kn.core 64).ending = false ∧ ((ending none).core 64).ending = true ∧ ((ending none).core 64).accesses = [] ∧ ((ending none).core 64).flush = [] ∧
    (∀ b, b < 6 → ((ending none).bend b).lost = []) ∧ ((ending none).core 64).task = some 0 := by decide +kernel
theorem test_task_ends : core64 (.tend 64 4) kn (fun x => x.ending && x.result = 100 && x.pc = 0x1008) ∧ core64 (.energyOverrun 64) kn (fun x => x.overrun) ∧ core64 (.taskWatchdog 64) kn (fun x => x.ending && x.fault.map (·.code) = some 7) ∧
    nextIs (.terminationDone 64 12) (ending none) (fun t => !(t.core 64).running && (t.task 0).msg = some { status := 1, result := 9, energy := 12 } && t.fld .CR_FAULT_VALID 64 = 0) ∧
    nextIs (.terminationDone 64 12) (ending (some { code := 5, pc := 0x1000 })) (fun t => ((t.task 0).msg.map (fun m => (m.status, m.fault, m.pc))) = some (2, 5, 0x1000) && t.fld .CR_FAULT_CODE 64 = 5) := by decide +kernel

/-- Knot 1 at the WPA 0x3000008 of Spool. -/
theorem witness_KnotOperations : kn.module.railsOn = true ∧ kn.homeOf 3 = some 0 ∧ 15 < kn.knotCount 3 ∧ (match kn.headXlat 3 (kn.knotDva 3 15) .write with | .spool w sh => decide (w = 0x3000078 ∧ kn.vaultCheck 0 (some 3) sh = spOk) | _ => false) = true ∧
    lineVault (0x3000078 / 64) = some 0 ∧ kn.dirtyCopies (fun l x => l = 0x3000078 / 64 && !x.str) = [] ∧ (kn.line (0x3000078 / 64)).poison = false ∧ (kn.line (0x3000078 / 64)).tag = none ∧
    kn.tasksOf (fun t => t.coil = 3 && t.state = .waiting && t.ticket.tie = 15) = [] ∧ kn.mayIssue 64 { g := [6, 1, 4] } = true ∧ (kn.core 64).rg 2 = BitVec.ofNat 64 15 := by decide +kernel
theorem witness_PlainLine (y : Nat) : (kn.ply y).copy (0x3000078 / 64) = none := rfl
def knotIs (i : Instr) (v : Nat) : Bool := nextIs i kn (fun t => t.load 0x3000008 8 = v && t.fld .CP_CMD_STATUS_KNOT_STATUS 3 = 0)
theorem test_knots : knotIs (.knotArm 0 3 1 3) 0x100000005 ∧ knotIs (.knotDec 0 3 1 1) 0x100000001 ∧ knotIs (.knotDec 0 3 1 2) 0 ∧ knotIs (.knotMarkedDec 0 3 1 1) 0x300000001 ∧ knotIs (.knotReset 0 3 1) 0 ∧
    nextIs (.knotRead 0 3 1) kn (fun t => t.fld .CP_CMD_STATUS_VALUE 3 = 2 && t.fld .CP_CMD_STATUS_ARMED 3 = 1) ∧ nextIs (.knotRead 0 3 16) kn (fun t => t.fld .CP_CMD_STATUS_KNOT_STATUS 3 = 1) := by decide +kernel
theorem test_kdec : core64 (.kdec 64 6 3 1) kn (fun x => x.rg 6 = 1) ∧ nextIs (.kdec 64 6 2 1) kn (fun t => (t.core 64).rg 6 = 0 && t.load 0x3000078 8 = 0xFFFFFFFF) := by decide +kernel

theorem witness_RingControl : coil3.homeOf 3 = some 0 ∧ coil3.fld .CP_SRING_CFG_ENABLE 193 = 0 ∧ coil3.fld .CP_SRING_CFG_BASE 193 * 128 % (128 * 2 ^ coil3.fld .CP_SRING_CFG_LOG2 193) = 0 ∧ coil3.heldOf 3 0 = [] ∧
    (flds coil3 [(.CP_SRING_CFG_BASE, 255, 1)]).fld .CP_SRING_CFG_BASE 255 * 128 % (128 * 2 ^ coil3.fld .CP_SRING_CFG_LOG2 255) ≠ 0 := by decide +kernel
theorem test_rings : nextIs (.submissionRingEnable 0 3 1) coil3 (fun t => t.fld .CP_SRING_CFG_ENABLE 193 = 1) ∧ nextIs (.submissionRingEnable 0 3 63) (flds coil3 [(.CP_SRING_CFG_BASE, 255, 1)]) (fun t => t.fld .CP_SRING_CFG_ENABLE 255 = 0 && t.fld .CP_SRING_CFG_STATUS 255 = 1) ∧
    nextIs (.submissionRingDisable 0 3 0) coil3 (fun t => t.fld .CP_SRING_CFG_ENABLE 192 = 0) ∧ nextIs (.completionRingEnable 0 3 1) coil3 (fun t => t.fld .CP_CRING_CFG_ENABLE 193 = 1) ∧
    nextIs (.completionRingDisable 0 3 0) coil3 (fun t => t.fld .CP_CRING_CFG_ENABLE 192 = 0) ∧ nextIs (.skflush 0 3) { coil3 with cap := { skdir := [{ coil := 3, skein := 1, entry := none }, { coil := 4, skein := 1, entry := none }] } } (fun t => t.cap.skdir.map (·.coil) = [4]) := by decide +kernel
/-- A TAIL of 16 fills the ring of 16 slots, 17 overruns it. -/
theorem test_doorbells : nextIs (.submissionDoorbell 0 3 0 0 16) coil3 (fun t => t.fld .CP_SRING_PTR_TAIL 192 = 16) ∧ nextIs (.submissionDoorbell 0 3 0 0 17) coil3 (fun t => t.fld .CP_SRING_PTR_TAIL 192 = 0 && t.fld .CP_SRING_FAULT_REASON 192 = 2) ∧
    nextIs (.submissionDoorbell 0 3 0 2 1) coil3 (fun t => t.fld .CP_SRING_PTR_TAIL 192 = 0 && t.fld .CP_SRING_FAULT_IGNORED 192 = 1) ∧ nextIs (.completionHeadDoorbell 0 3 0 0 2) (flds coil3 [(.CP_CRING_PTR_WRITE, 192, 2)]) (fun t => t.fld .CP_CRING_PTR_HEAD 192 = 2) ∧
    nextIs (.completionHeadDoorbell 0 3 0 0 3) (flds coil3 [(.CP_CRING_PTR_WRITE, 192, 2)]) (fun t => t.fld .CP_CRING_PTR_HEAD 192 = 0 && t.fld .CP_CRING_MOD_IGNORED 192 = 1) := by decide +kernel
theorem test_doorbell_in_hold : nextIs (.submissionDoorbell 0 3 0 0 1) (flds coil3 [(.HT_HOLD_STATUS_HOLD, 0, 1)]) (fun t => t.fld .HT_HOLD_COUNT_POSTED_DROPPED 0 = 1 && t.fld .CP_SRING_PTR_TAIL 192 = 0) := by decide +kernel

/-- A ticket of task 7, skein 1, template 2, in the first slot of ring 0; the directory entry of skein 1 names a dispatch table of three templates at DVA 0x9000. -/
def tk : State := ((flds coil3 [(.CP_SRING_PTR_TAIL, 192, 1)]).store 0x2002000 16 (7 + 2 ^ 64 * 0x201)).store 0x2008010 16 (2 ^ 64 + 3 * 2 ^ 48 + 0x9000)
def checking : State := { tk with cap := { tasks := [(0, { coil := 3, ticket := { taskId := 7, skein := 1, template := 2 } })], nextTask := 1 } }
theorem witness_TicketAdmission : tk.mayAdmit 3 = true ∧ tk.fld .CP_SRING_FAULT_HALTED 192 = 0 ∧ tk.fld .CP_SRING_PTR_HEAD 192 ≠ tk.fld .CP_SRING_PTR_TAIL 192 ∧ (tk.headRead 3 (0x40 * 128) 128 none).1 = some (7 + 2 ^ 64 * 0x201) ∧
    ticketReserved (7 + 2 ^ 64 * 0x201) = false ∧ tk.cap.skdir = [] ∧ (checking.task 0).state = .checking ∧ (checking.headRead 3 0x8010 16 none).1 = some (2 ^ 64 + 3 * 2 ^ 48 + 0x9000) ∧
    ((flds tk [(.DT_CTX_CTL_ENABLE, 3, 0)]).headRead 3 0x2000 128 none).1 = none ∧ (flds tk [(.CP_COIL_CTL_QUIESCED, 3, 1)]).mayAdmit 3 = false := by decide +kernel
theorem test_tickets : nextIs (.ticketRead 3 0 none) tk (fun t => t.fld .CP_SRING_PTR_HEAD 192 = 1 && (t.task 0).ticket.taskId = 7 && (t.task 0).ticket.template = 2) ∧
    nextIs (.ticketRead 3 0 none) (flds tk [(.DT_CTX_CTL_ENABLE, 3, 0)]) (fun t => t.fld .CP_SRING_FAULT_HALTED 192 = 1 && t.fld .CP_SRING_FAULT_REASON 192 = 1) ∧
    nextIs (.skeinEntryRead 0 none) checking (fun t => t.cap.skdir = [{ coil := 3, skein := 1, entry := some (0x9000, 3) }]) := by decide +kernel

/-- Task 1 of coil 3 waits on a knot; task 0 runs. -/
def waiting : State := { kn with cap := { tasks := [(0, { coil := 3, ticket := { taskId := 7 }, state := .running 64 }), (1, { coil := 3, ticket := { taskId := 8, tie := 2, tieValid := true }, state := .waiting })], nextTask := 2 } }
def full : State := flds waiting [(.CP_CRING_PTR_WRITE, 192, 16)]
theorem witness_Cancellation : waiting.tasksOf (fun t => t.coil = 3 && t.ticket.taskId = 8) = [1] ∧ (waiting.task 1).state.undispatched = true ∧ (waiting.task 0).state.undispatched = false ∧ full.hostRing 1 = false ∧
    (16 + 2 ^ 32 - full.fld .CP_CRING_PTR_HEAD 192) % 2 ^ 32 = 2 ^ full.fld .CP_CRING_CFG_LOG2 192 ∧ waiting.mayIssue 64 { g := [6, 4] } = true := by decide +kernel
theorem test_cancel : nextIs (.cancel 0 3 8) full (fun t => t.fld .CP_CMD_STATUS_CANCEL_STATUS 3 = 0 && (t.task 1).state = .held && (t.task 1).ended.map (·.status) = some 3) ∧ nextIs (.cancel 0 3 7) waiting (fun t => t.fld .CP_CMD_STATUS_CANCEL_STATUS 3 = 1) ∧
    nextIs (.cancel 0 3 9) waiting (fun t => t.fld .CP_CMD_STATUS_CANCEL_STATUS 3 = 2) ∧ core64 (.tcancel 64 6 4) waiting (fun x => x.rg 6 = 2) := by decide +kernel

def ended : EndMsg := { status := 1, result := 9 }
def term : State := { kn with cap := { tasks := [(0, { coil := 3, ticket := { taskId := 7 }, state := .running 64, msg := some ended })], nextTask := 1 } }
def heldRec : State := { kn with cap := { tasks := [(0, { coil := 3, ticket := { taskId := 7 }, state := .held, ended := some ended })], nextTask := 1 } }
def writing : State := flds { kn with cap := { tasks := [(0, { coil := 3, ticket := { taskId := 7 }, state := .writing 0 none, ended := some ended })], nextTask := 1 } } [(.CP_CRING_PTR_WRITE, 192, 1)]
theorem witness_CompletionRecords : term.heldOf 3 0 = [] ∧ heldRec.heldOf 3 0 = [0] ∧ term.hostRing 0 = false ∧ (match term.headXlat 3 0x4000 .write with | .spool w sh => decide (w = 0x2004000 ∧ term.vaultCheck 0 (some 3) sh = spOk) | _ => false) = true ∧
    term.tasksOf (fun y => y.coil = 3 && y.state = .queued 2) = [] ∧ (writing.task 0).state = .writing 0 none ∧ lineVault (0x2004000 / 64) = some 0 ∧ writing.fld .CP_CRING_CFG_IRQ_EN 192 = 0 := by decide +kernel
theorem test_records : nextIs (.taskEnd 0) term (fun t => (t.task 0).state = .writing 0 none && t.fld .CP_CRING_PTR_WRITE 192 = 1 && t.fld .CR_STATUS_PSTATE 64 = 2) ∧ nextIs (.heldRecordRelease 3 0) heldRec (fun t => (t.task 0).state = .writing 0 none) ∧
    nextIs (.recordWriteAck 0) writing (fun t => t.cap.tasks = [] && t.load 0x2004000 8 = 7) ∧ nextIs (.moderationExpiry 3 0) { kn with cap := { rings := [(192, { moderating := true })] } } (fun t => t.cap.rings = []) := by decide +kernel

/-- A ticket of task 9 to be spawned lies at DVA 0x6000 in a line that the L1D holds; ring 0 takes SPAWN. -/
def sp (w : CoreWait) : State :=
  let s := coilOn { withG [(1, 0x6000), (2, 0x6040)] with wait := w, l1d := [(0x80180, 15), (0x80181, 15)] }
  { flds s [(.CP_SRING_CFG_SPAWN, 192, 1)] with plies := [(8, { cache := [(0x80180, { st := .e, data := 9 }), (0x80181, { st := .e })] })] }
def ticket9 : List Nat := 9 :: List.replicate 15 0
theorem witness_Spawning : (sp .none).mayIssue 64 { g := [6, 1] } = true ∧ ((sp .none).core 64).fault = none ∧ (sp (.spawn 0 6 ticket9)).spawnRefused 3 0 = none ∧ coil3.spawnRefused 3 0 = some 3 ∧ ticket9.length = 16 ∧
    (match (sp .none).headXlat 3 0x2000 .write with | .spool w sh => decide (w = 0x2002000 ∧ (sp .none).vaultCheck 0 (some 3) sh = spOk) | _ => false) = true ∧
    (match (sp .none).silent.checkEls 64 0 .read true ((List.range 16).map (fun k => (k, 0x6000 + 8 * k, 8))) with
      | .ok els u => els.all (fun z => z.region ≠ .dev) && (match u.gather 64 false els with | .done got [] _ => decide (got.map (·.1) = List.range 16 ∧ got.map (·.2) = ticket9) | _ => false)
      | _ => false) = true := by decide +kernel
theorem test_spawn : core64 (.spawn 64 6 2 0) (sp .none) (fun x => x.fault.map (·.code) = some 5) ∧ core64 (.spawn 64 6 1 0) (sp .none) (fun x => x.wait = .spawn 0 6 ticket9) ∧
    nextIs (.spawnTicketWritten 64 true) (sp (.spawn 0 6 ticket9)) (fun t => t.load 0x2002000 8 = 9 && t.fld .CP_SRING_PTR_TAIL 192 = 1 && (t.core 64).wait = .none && (t.core 64).pc = 0x1008) ∧
    core64 (.spawnTicketWritten 64 true) (flds (sp (.spawn 0 6 ticket9)) [(.CP_SRING_CFG_SPAWN, 192, 0)]) (fun x => x.rg 6 = 3) := by decide +kernel

/-! ### Translation (chapter 8) -/

theorem witness_contexts : coil3.homeOf 3 = some 0 ∧ coil3.fld .DT_CTX_TBL_BASE 3 * 2 ^ 24 ≤ coil3.fld .DT_CTX_ROOT_ROOT 3 * 4096 ∧ coil3.vaultCoil (1 * 2 ^ 24 / vaultSize) = some 3 ∧
    (flds coil3 [(.DT_CTX_TBL_BASE, 3, 2)]).fld .DT_CTX_TBL_BASE 3 * 2 ^ 24 > coil3.fld .DT_CTX_ROOT_ROOT 3 * 4096 ∧ (flds coil3 [(.SP_VAULT_OWNER_COIL, 0, 4)]).vaultCoil 0 ≠ some 3 := by decide +kernel
theorem test_contexts : nextIs (.contextEnable 0 3) (flds coil3 [(.DT_CTX_CTL_ENABLE, 3, 0)]) (fun t => t.fld .DT_CTX_CTL_ENABLE 3 = 1) ∧ nextIs (.contextEnable 0 3) (flds coil3 [(.DT_CTX_CTL_ENABLE, 3, 0), (.DT_CTX_TBL_BASE, 3, 2)]) (fun t => t.fld .DT_CTX_CTL_ENABLE 3 = 0 && t.fld .DT_CTX_CTL_STATUS 3 = 1) ∧
    nextIs (.contextEnable 0 3) (flds coil3 [(.DT_CTX_CTL_ENABLE, 3, 0), (.SP_VAULT_OWNER_COIL, 0, 4)]) (fun t => t.fld .DT_CTX_CTL_ENABLE 3 = 0 && t.fld .DT_CTX_CTL_STATUS 3 = 2) ∧ nextIs (.contextDisable 0 3) coil3 (fun t => t.fld .DT_CTX_CTL_ENABLE 3 = 0) ∧
    nextIs (.ctxTableWrite 0 3 false 2 8) (flds coil3 [(.DT_CTX_CTL_ENABLE, 3, 0)]) (fun t => t.fld .DT_CTX_TBL_COUNT 3 = 8) ∧ nextIs (.ctxTableWrite 0 3 false 2 8) coil3 (fun t => t.fld .DT_CTX_TBL_COUNT 3 = 1 && t.fld .DT_CTX_CTL_STATUS 3 = 1) := by decide +kernel
/-- Fifteen and sixteen commands queued: the last that is accepted and the first that is refused. -/
def queued (n : Nat) : State := { kn with invs := [(3, List.replicate n { seq := 1, range := some (5, 1) })] }
theorem witness_invalidations : (SMap.get [] (queued 15).invs 3).length = 15 ∧ (SMap.get [] (queued 16).invs 3).length = 16 ∧ kn.invDrained 3 (some (0, 1)) = true ∧
    ({ kn with cores := [(64, { (kn.core 64) with accesses := [{ id := 0, leaf := ((kn.core 64).dtb)[0]? }] })] } : State).invDrained 3 none = false := by decide +kernel
theorem test_invalidations : nextIs (.invRange 0 3 0 1) kn (fun t => t.fld .DT_INV_STATUS_ISSUED 3 = 1 && (t.core 64).dtb = [] && (t.core 64).itb = []) ∧ nextIs (.invRange 0 3 1 1) kn (fun t => (t.core 64).dtb.length = 1) ∧
    nextIs (.invAll 0 3) (queued 15) (fun t => t.fld .DT_INV_STATUS_PENDING 3 = 16) ∧ nextIs (.invAll 0 3) (queued 16) (fun t => t.fld .DT_INV_STATUS_STATUS 3 = 1) ∧
    nextIs (.invalidationDone 3) (queued 1) (fun t => t.fld .DT_INV_STATUS_DONE 3 = 1 && t.invs = []) := by decide +kernel
/-- Grant 5 of fathom 2 of coil 3's vault to coil 4. -/
def gr : State := flds coil3 [(.DT_SHARE_B_BASE, 5, 2), (.DT_SHARE_B_COUNT, 5, 1)]
theorem witness_SharedGrants : gr.homeOf 3 = some 0 ∧ gr.fld .DT_SHARE_A_VALID 5 = 0 ∧ gr.sealed 3 = false ∧ gr.sealed 4 = false ∧ gr.vaultCoil (2 * 2 ^ 24 / vaultSize) = some 3 ∧
    spoolSize < ((flds gr [(.DT_SHARE_B_BASE, 5, 0x11FFF), (.DT_SHARE_B_COUNT, 5, 2)]).fld .DT_SHARE_B_BASE 5 + 2) * 2 ^ 24 := by decide +kernel
theorem test_grants : nextIs (.shareGrant 0 5 3 4 1) gr (fun t => t.fld .DT_SHARE_A_VALID 5 = 1 && t.fld .DT_SHARE_A_GRANTEE 5 = 4 && t.fld .DT_STATUS_GRANTS 0 = 1) ∧ nextIs (.shareGrant 0 5 3 3 1) gr (fun t => t.fld .DT_SHARE_A_STATUS 5 = 2 && t.fld .DT_SHARE_A_VALID 5 = 0) ∧
    nextIs (.shareGrant 0 5 3 4 1) (flds gr [(.DT_SHARE_B_BASE, 5, 0x11FFF), (.DT_SHARE_B_COUNT, 5, 2)]) (fun t => t.fld .DT_SHARE_A_STATUS 5 = 3) ∧ nextIs (.shareGrant 0 5 3 4 1) (flds gr [(.DT_SHARE_B_BASE, 5, 24)]) (fun t => t.fld .DT_SHARE_A_STATUS 5 = 1) ∧
    nextIs (.shareRevoke 0 5) (flds gr [(.DT_SHARE_A_OWNER, 5, 3), (.DT_SHARE_A_VALID, 5, 1)]) (fun t => t.fld .DT_SHARE_A_VALID 5 = 0 && t.fld .DT_SHARE_A_BUSY 5 = 1) ∧ nextIs (.shareRevokeDrained 5) (flds gr [(.DT_SHARE_A_BUSY, 5, 1)]) (fun t => t.fld .DT_SHARE_A_BUSY 5 = 0) := by decide +kernel

/-- The core stalls on a read of DVA 0x1000040, fathom 1. -/
def miss : State := { kn with cores := [(64, { (kn.core 64) with stalled := some (.read, 0x1000040) })] }
def walk (level entry : Nat) : State := { miss with bays := [(2, { walks := [{ walker := 0, miss := ⟨3, 0x1000040, [.core 64 0]⟩, level := level, entry := entry }] })] }
theorem witness_TranslationWalks : (miss.core 64).stalled = some (.read, 0x1000040) ∧ (miss.bay 2).cache = [] ∧ miss.freeWalker 2 = some 0 ∧ (walk 0 0x1000000).preFault 3 0x1000040 = none ∧
    (match (walk 0 0x1000000).readEntry 3 0 0x1000040 0x1000000 with | .next n => decide (n = 0x1001000) | _ => false) = true ∧ (match (walk 2 0x1002008).readEntry 3 2 0x1000040 0x1002008 with | .leaf l => decide (l.base = 0x3000000) | _ => false) = true ∧
    (match (walk 2 0x1002010).readEntry 3 2 0x2000000 0x1002010 with | .fault _ => true | _ => false) = true ∧ (miss.core 64).running = true ∧ (miss.bay 2).dead.length < 7 := by decide +kernel
theorem test_walk : nextIs (.translationMiss 64) miss (fun t => (t.bay 2).walks = [{ walker := 0, miss := ⟨3, 0x1000040, [.core 64 0]⟩, level := 0, entry := 0x1000000 }]) ∧
    nextIs (.walkEntryRead 2 0) (walk 0 0x1000000) (fun t => (t.bay 2).walks.map (fun w => (w.level, w.entry)) = [(1, 0x1001000)]) ∧ nextIs (.walkEntryRead 2 0) (walk 1 0x1001000) (fun t => (t.bay 2).walks.map (fun w => (w.level, w.entry)) = [(2, 0x1002008)]) ∧
    nextIs (.walkEntryRead 2 0) (walk 2 0x1002008) (fun t => (t.bay 2).cache.map (fun l => (l.fathom, l.base, l.r, l.w, l.x)) = [(1, 0x3000000, true, true, true)] && (t.bay 2).walks = []) := by decide +kernel
/-- An entry of zeros is INVALID: the waiting core takes the fault, and DT_FAULT_INFO records it. -/
theorem test_walk_fault : nextIs (.walkEntryRead 2 0) (walk 1 0x1001008) (fun t => (t.core 64).fault.map (fun f => (f.cause, f.addr)) = some (Cause.notMapped.code, 0x1000040) && t.fld .DT_FAULT_INFO_VALID 3 = 1) ∧
    nextIs (.walkerFault 2 0) (walk 0 0x1000000) (fun t => (t.bay 2).dead = [0]) := by decide +kernel
theorem test_bay_cache_hit : nextIs (.translationMiss 64) { miss with bays := [(2, { cache := [{ coil := 3, fathom := 1, fathoms := 1, target := .near, base := 0x3000000, r := true, w := true, x := true, region := .coh }] })] } (fun t => (t.core 64).stalled = none && (t.core 64).dtb.length = 2) := by decide +kernel
/-- The line of the next instruction is in the ply cache, not in the L1I. -/
def cold : State := { kn with cores := [(64, { (kn.core 64) with l1i := [] })], plies := [(8, { cache := [(0x80040, { st := .e })] })] }
theorem witness_l1i : cold.coreLive 64 = true ∧ cold.fetched 64 = false ∧ (match cold.xlatDva 64 0x1000 .fetch with | .ok v r l => (match (cold.silent.keepLeaf 64 l true).obtain 64 (v / 64) (r = .str) (leafShared l) .brd false with | .have z _ => !z.poison | _ => false) | _ => false) = true := by decide +kernel
theorem test_l1i : core64 (.l1iFill 64) cold (fun x => x.l1i = [0x80040]) := by decide +kernel

/-! ### Coherence (chapters 9, 10 and 5) -/

def ln : Nat := 0x80001
/-- Ply 9 of bay 2 holds the line modified. -/
def peer (st : Mesi) : State := { coil3 with plies := [(9, { cache := [(ln, { st := st, data := 0xCD })] })] }
theorem witness_BusRequests : coil3.busUp 8 = true ∧ (coil3.bus 2).reqs = [] ∧ ((peer .m).ply 9).copy ln = some { st := .m, data := 0xCD } ∧ 9 / 4 = bayOfPly 8 ∧ (coil3.ply 8).cache = [] ∧ coil3.carved 8 < 16 := by decide +kernel
theorem witness_alone (z : Nat) : (coil3.ply z).copy ln = none := rfl
theorem test_bus_goes_home : nextIs (.brd 8 ln false) coil3 (fun t => (t.bus 2).reqs.map (fun r => (r.ply, r.line, r.req, r.pending)) = [(8, ln, .brd, true)]) ∧ nextIs (.brdx 8 ln) coil3 (fun t => (t.bus 2).reqs.map (·.req) = [.brdx]) ∧
    nextIs (.brds 8 ln) coil3 (fun t => (t.bus 2).reqs.map (·.req) = [.brds]) ∧ nextIs (.bown 8 ln true) coil3 (fun t => (t.bus 2).reqs.map (·.req) = [.bown true]) ∧ nextIs (.bclr 8 ln) coil3 (fun t => (t.bus 2).reqs.map (·.req) = [.bclr]) ∧
    nextIs (.binv 8 ln) coil3 (fun t => (t.bus 2).reqs.map (·.req) = [.binv]) := by decide +kernel
theorem test_bus_supplied : nextIs (.brd 8 ln false) (peer .m) (fun t => ((t.ply 8).copy ln).map (fun z => (z.st, z.data)) = some (.s, 0xCD) && ((t.ply 9).copy ln).map (·.st) = some .s && (t.bus 2).wbs.map (fun w => (w.ply, w.kind, w.data)) = [(9, .dng, some 0xCD)]) ∧
    nextIs (.brdx 8 ln) (peer .e) (fun t => ((t.ply 8).copy ln).map (fun z => (z.st, z.data)) = some (.m, 0xCD) && (t.ply 9).copy ln = none) := by decide +kernel
def bus (r : BusReq) : State := { coil3 with buses := [(2, { reqs := [r] })] }
theorem test_promoted : nextIs (.requestPromoted 8 ln) (bus { ply := 8, line := ln, req := .brd }) (fun t => (t.bus 2).reqs.map (fun r => (r.promoted, r.age)) = [(true, 4096)] && t.fld .BA_STATUS_PROMOTED 2 = 2) := by decide +kernel
def wb (kind : WbKind) (stage : Nat) : State := { coil3 with buses := [(2, { wbs := [{ ply := 8, line := ln, kind := kind, data := some 0xEE, stage := stage }] })], lines := [(ln, { dir := .owned 2 })] }
theorem witness_WriteBacks : (wb .wb 1).hitchOf ln = none ∧ lineVault ln = some 0 ∧ (wb .wb 1).vaultCheck 0 none none = spOk ∧ (wb .wb 1).dir ln = .owned 2 := by decide +kernel
theorem test_bus_accepts : nextIs (.bwb 8 ln) (wb .wb 0) (fun t => (t.bus 2).wbs.map (·.stage) = [1] && t.fld .BA_STATUS_WB_PENDING 2 = 1) ∧ nextIs (.bevc 8 ln) (wb .evc 0) (fun t => (t.bus 2).wbs.map (·.stage) = [1]) ∧ nextIs (.bcln 8 ln) (wb .cln 0) (fun t => (t.bus 2).wbs.map (·.stage) = [1]) := by decide +kernel
theorem test_home_writes : nextIs (.wb 2 ln) (wb .wb 1) (fun t => t.load (64 * ln) 8 = 0xEE && t.dir ln = .none && (t.bus 2).wbs.map (·.stage) = [2]) ∧ nextIs (.cln 2 ln) (wb .cln 1) (fun t => t.load (64 * ln) 8 = 0xEE && t.dir ln = .owned 2) ∧
    nextIs (.dng 2 ln) (wb .dng 1) (fun t => t.dir ln = .shared [2]) ∧ nextIs (.evc 2 ln) (wb .evc 1) (fun t => t.dir ln = .none) ∧ nextIs (.ack 2 ln) (wb .wb 2) (fun t => (t.bus 2).wbs = []) ∧
    nextIs (.sweepDone 2) (flds coil3 [(.BA_STATUS_SWEEP, 2, 1)]) (fun t => t.fld .BA_STATUS_SWEEP 2 = 0) := by decide +kernel

def req (q : BayReq) : State := (bus { ply := 8, line := ln, req := q, pending := true, coil := some 3 }).store (64 * ln) 2 0x1234
theorem witness_HomeGrants : (req .brd).flipping ln = false ∧ (req .brd).txn ln = {} ∧ (req .brd).hitchOf ln = none ∧ linePort ln = none ∧ (req .brd).vaultCheck 0 (some 3) none = spOk ∧ (req .brd).dir ln = .none ∧
    (req .brd).tagMismatch ln 0 = false ∧ (req .brd).fld .SP_VAULT_STATUS_UE_LINES 0 < 64 := by decide +kernel
def granted (i : Instr) (s : State) (st : Mesi) (d : Dir) : Bool := nextIs i s (fun t => t.dir ln = d && (t.txn ln).grant.map (·.st) = some st && (t.txn ln).busy)
theorem test_home_grants : granted (.rda 8 ln {}) (req .brd) .e (.owned 2) ∧ granted (.rds 8 ln {}) (req .brds) .s (.shared [2]) ∧ granted (.rdx 8 ln {}) (req .brdx) .m (.owned 2) ∧ granted (.own 8 ln true {}) (req (.bown true)) .m (.owned 2) ∧
    nextIs (.rda 8 ln {}) (req .brd) (fun t => (t.txn ln).grant.map (·.data) = some (some 0x1234)) := by decide +kernel
theorem test_home_removals : nextIs (.clnr 8 ln) (req .bclr) (fun t => (t.bus 2).reqs.map (·.done) = [true] && !(t.txn ln).busy) ∧ nextIs (.invr 8 ln) (req .binv) (fun t => (t.bus 2).reqs.map (·.done) = [true]) := by decide +kernel
def tx (x : Txn) : State := { peer .m with txns := [(ln, x)] }
theorem witness_Snoops : ((tx { busy := true, waiting := [2], snoop := .snpInv }).txn ln).busy = true ∧ (tx {}).wbInFlight 2 ln = [] ∧ ((tx {}).ply 9).copy ln ≠ none ∧ ((tx {}).txn ln).busy = false := by decide +kernel
def snooped (i : Instr) (kind : Snoop) (st : Option Mesi) : Bool := nextIs i (tx { busy := true, waiting := [2], snoop := kind }) (fun t => (t.txn ln).waiting = [] && (t.txn ln).rsps.map (fun r => (r.rsp, r.data)) = [(.rspData, some 0xCD)] && ((t.ply 9).copy ln).map (·.st) = st)
theorem test_snoops : snooped (.snps 2 ln) .snpS (some .s) ∧ snooped (.snpinv 2 ln) .snpInv none ∧ snooped (.snpcur 2 ln) .snpCur (some .m) ∧ snooped (.snpclean 2 ln) .snpClean (some .e) := by decide +kernel
def answered (i : Instr) (r : Rsp) (d : Option LineData) (v : LineData) : Bool := nextIs i { coil3 with txns := [(ln, { busy := true, op := .rdx, src := 2, ply := 8, rsps := [{ holder := 5, rsp := r, data := d }] })] } (fun t => (t.txn ln).grant.map (fun g => (g.st, g.data)) = some (.m, some v) && t.dir ln = .owned 2)
theorem test_responses : answered (.rspi 5 ln) .rspI none 0 ∧ answered (.rsps 5 ln) .rspS none 0 ∧ answered (.rspv 5 ln) .rspV none 0 ∧ answered (.rspdata 5 ln) .rspData (some 0x77) 0x77 := by decide +kernel
def granting (b : Bool) : State := { req .brd with txns := [(ln, { busy := true, op := .rda, src := 2, ply := 8, grant := some { st := .e, data := some 0x1234 }, installed := b })] }
theorem test_grant : nextIs (.grant ln) (granting false) (fun t => ((t.ply 8).copy ln).map (fun z => (z.st, z.data)) = some (.e, 0x1234) && (t.bus 2).reqs = [] && (t.txn ln).installed) ∧ nextIs (.cmpack ln) (granting true) (fun t => !(t.txn ln).busy) := by decide +kernel
/-- Byte 3 of the line is written, the field at 8 is added to; a coil that does not own the vault is refused. -/
theorem test_non_caching : nextIs (.rdnc ln (some 3) none {}) (req .brd) (fun t => t.out = [.home 0 0x1234 false]) ∧ nextIs (.wrnc ln (some 3) none 0xAB000000 8 false) (req .brd) (fun t => t.load (64 * ln) 8 = 0xAB001234) ∧
    nextIs (.atom ln (some 3) none 0x11 0 4 0xFFFFFFFF 64) (req .brd) (fun t => t.load (64 * ln) 8 = 0x1233 && t.out = [.home 0 0x1234 false]) ∧ nextIs (.wrnc ln (some 4) none 0xAB000000 8 false) (req .brd) (fun t => t.mem = (req .brd).mem) ∧
    nextIs (.atom ln (some 4) none 0x11 0 4 1 64) (req .brd) (fun t => t.mem = (req .brd).mem) := by decide +kernel
theorem witness_NonCachingRequests : (req .brd).quietLine ln = true ∧ (req .brd).vaultCheck 0 (some 3) none = spOk ∧ (req .brd).vaultCheck 0 (some 4) none ≠ spOk ∧ ((req .brd).vault 0).copying = [] ∧ (0 * vaultSize + 64 * ln) / 64 = ln ∧ (req .brd).module.railsOn = true ∧
    (req .brd).fld .SP_SCRUB_CTL_ENABLE 0 ≠ 0 := by decide +kernel
/-- The governor pauses coil 3. -/
def paused3 (q : BayReq) : State := flds (req q) [(.SP_RSV_PAUSED, 3, 1)]
theorem witness_pause : (req .brd).fld .SP_RSV_PAUSED 3 = 0 ∧ (paused3 .brd).fld .SP_RSV_PAUSED 3 ≠ 0 ∧ (paused3 .brd).quietLine ln = true ∧ (paused3 .brd).vaultCheck 0 (some 3) none = spOk := by decide +kernel
theorem test_pause_waits : nextIs (.wrnc ln (some 3) none 0xAB000000 8 false) (paused3 .brd) (fun t => t.mem = (req .brd).mem && t.out = []) ∧ nextIs (.rda 8 ln {}) (paused3 .brd) (fun t => !(t.txn ln).busy && (t.bus 2).reqs.map (·.pending) = [true]) ∧
    nextIs (.vaultRequest 0 (64 * ln) { coil := some 3 }) (paused3 .brd) (fun t => t.out = []) := by decide +kernel
theorem test_vault_request : nextIs (.vaultRequest 0 (64 * ln) { coil := some 3 }) (req .brd) (fun t => t.out = [.spool 0 0x1234 false]) ∧ nextIs (.vaultRequest 0 (64 * ln) { coil := some 3, write := true, data := 0xFF, mask := 1 }) (req .brd) (fun t => t.load (64 * ln) 8 = 0x12FF) ∧
    nextIs (.patrolScrub 0 0 {} true) (req .brd) (fun t => t.fld .SP_SCRUB_STATUS_PASSES 0 = 1) := by decide +kernel

/-- A D2H request of port 0 for a host line, in a transaction of its home. -/
def hl : Nat := hostLine 0 0x1000
def d2 (op : D2hOp) (x : Txn) : State := { coil3 with ports := [(0, { present := true, linkUp := true, d2h := [{ id := 4, op := op, line := hl, data := 0x99 }] })], txns := [(hl, x)], buses := [(2, { reqs := [{ ply := 8, line := hl, req := .brd, pending := true }] })] }
def ask (op : D2hOp) : State := d2 op { busy := true, src := 2, ply := 8, d2h := some op }
theorem witness_HostGrants : ((ask .rdOwn).port 0).d2h.map (·.id) = [4] ∧ ((ask .rdOwn).txn hl).busy = true ∧ ((ask .rdOwn).port 0).sf = [] ∧ ((d2 .cleanEvict {}).txn hl).busy = false := by decide +kernel
theorem test_host_grants : nextIs (.go 0 4 .e 0x55 false) (ask .rdOwn) (fun t => (t.txn hl).grant = some { st := .m, data := some 0x55 } && (t.port 0).d2h = [] && (t.sf 0 hl).holders = [2]) ∧ nextIs (.go 0 4 .s 0x55 false) (ask .rdShared) (fun t => (t.txn hl).grant.map (·.st) = some .s) ∧
    nextIs (.go 0 4 .err 0 false) (ask .rdOwn) (fun t => !(t.txn hl).busy && (t.ply 8).poisonedMiss = [hl] && (t.bus 2).reqs = []) ∧ nextIs (.go 0 4 .i 0 false) (d2 .cleanEvict {}) (fun t => (t.port 0).d2h = []) ∧
    nextIs (.goWritepull 0 4) (d2 .dirtyEvict {}) (fun t => t.out = [.d2h 0 4 .dirtyEvict hl (some 0x99) false] && (t.port 0).d2h = []) := by decide +kernel
def hs (st : Mesi) : State := { coil3 with plies := [(9, { cache := [(hl, { st := st, data := 0xCD })] })], ports := [(0, { present := true, linkUp := true, sf := [(hl, { holders := [2], excl := true })] })] }
def hostAnswer (i : Instr) (s : State) (code : Nat) (d : Option LineData) (st : Option Mesi) : Bool := nextIs i s (fun t => t.out = [.h2dRsp 0 code d] && ((t.ply 9).copy hl).map (·.st) = st)
theorem witness_HostSnoops : ((hs .m).sf 0 hl).holders = [2] ∧ (hs .m).fld .HT_HOLD_STATUS_HOLD 0 = 0 ∧ (hs .m).wbInFlight 2 hl = [] ∧ (coil3.sf 0 hl).holders = [] := by decide +kernel
theorem test_host_snoops : hostAnswer (.h2dSnpinv 0 0x1000) (hs .m) 2 (some 0xCD) none ∧ hostAnswer (.h2dSnpdata 0 0x1000) (hs .m) 4 (some 0xCD) (some .s) ∧ hostAnswer (.h2dSnpcur 0 0x1000) (hs .m) 6 (some 0xCD) (some .m) ∧
    hostAnswer (.h2dSnpinv 0 0x1000) (hs .e) 1 none none ∧ hostAnswer (.h2dSnpdata 0 0x1000) (hs .e) 3 none (some .s) ∧ hostAnswer (.h2dSnpcur 0 0x1000) (hs .e) 5 none (some .e) ∧ nextIs (.h2dSnpinv 0 0x1000) coil3 (fun t => t.out = [.h2dRsp 0 0 none]) := by decide +kernel
def bi (x : Txn) : State := { coil3 with ports := [(0, { present := true, linkUp := true, backInv := [ln] })], txns := [(ln, x)] }
theorem test_back_invalidation : nextIs (.birsp 0 ln .rspI) (bi { busy := true, op := .rdx, src := 2, ply := 8, waiting := [96] }) (fun t => (t.txn ln).grant.map (·.st) = some .m && t.dir ln = .owned 2 && (t.port 0).backInv = []) ∧
    nextIs (.biconflict 0 ln (.memRd 2 0)) (bi { busy := true, waiting := [96] }) (fun t => (t.txn ln).queue.map (fun q => (q.op, q.src)) = [(.memRd 2 0, 96)]) := by decide +kernel
/-- HDM fathom 15 is the last of a decoder of 16 fathoms, 16 the first beyond it. -/
def bias (n : Nat) : State := { flds coil3 [(.HT_LINK_STATUS_HDM, 0, n)] with ports := [(0, { present := true, linkUp := true, cfg := [(CfgField.hdmDecoder0.ctorIdx, 1)] })] }
theorem witness_BiasFlips : (bias 1).hdmFathoms 0 = 16 ∧ (bias 1).fld .HT_BIAS_FLIP_BUSY 0 = 0 ∧ (bias 2).fld .HT_LINK_STATUS_HDM 0 ≠ 1 ∧ (flds (bias 1) [(.HT_BIAS_FLIP_BUSY, 0, 1)]).fld .HT_BIAS_FLIP_BUSY 0 ≠ 0 := by decide +kernel
theorem test_bias : nextIs (.biasFlip 0 15 true) (bias 1) (fun t => t.fld .HT_BIAS_FLIP_BUSY 0 = 1 && t.fld .HT_BIAS_FLIP_FATHOM 0 = 15) ∧ nextIs (.biasFlip 0 16 true) (bias 1) (fun t => t.fld .HT_BIAS_FLIP_STATUS 0 = 3 && t.fld .HT_BIAS_FLIP_BUSY 0 = 0) ∧
    nextIs (.biasFlip 0 15 true) (bias 2) (fun t => t.fld .HT_BIAS_FLIP_STATUS 0 = 2) ∧ nextIs (.biasFlip 0 15 true) (flds (bias 1) [(.HT_BIAS_FLIP_BUSY, 0, 1)]) (fun t => t.fld .HT_BIAS_FLIP_STATUS 0 = 1) ∧
    nextIs (.biasFlipDone 0) (flds (bias 1) [(.HT_BIAS_FLIP_BUSY, 0, 1), (.HT_BIAS_FLIP_FATHOM, 0, 15), (.HT_BIAS_FLIP_TO_DEVICE, 0, 1)]) (fun t => t.fld .HT_BIAS_BIAS 0 = 0x8000 && t.fld .HT_BIAS_FLIP_BUSY 0 = 0) := by decide +kernel
/-- DPA fathom 1 of port 0 is Spool fathom 2, for coil 3. -/
def hdm (n : Nat) : State := flds ((req .brd).store (64 * ln) 2 0x1234) [(.HT_LINK_STATUS_HDM, 0, n), (.HT_LINK_STATUS_READY, 0, 1), (.SP_HDM_MAP_VALID, 1, 1), (.SP_HDM_MAP_FATHOM, 1, 2), (.SP_HDM_MAP_COIL, 1, 3)]
def dpa : Nat := 0x1000040
theorem witness_HostMemoryRequests : ((hdm 1).port 0).linkUp = true ∧ (match (hdm 1).hdmAt 0 dpa, (hdm 2).hdmAt 0 dpa with | .at l c, .at l' c' => decide (l = ln ∧ c = 3 ∧ l' = ln ∧ c' = 3) | _, _ => false) = true ∧ (hdm 2).quietLine ln = true ∧ (hdm 2).dir ln = .none ∧
    (hdm 1).fld .HT_IDE_CTL_REQUIRE_CXL 0 = 0 ∧ (hdm 1).fld .HT_IDE_CTL_REQUIRE_IO 0 = 0 ∧ (hdm 1).fld .HT_PM_STATUS_DSTATE 0 ≠ 3 ∧ (hdm 1).vaultCheck 0 (some 3) none = spOk := by decide +kernel
theorem test_hdm_d : nextIs (.memrd 0 dpa 2 0) (hdm 1) (fun t => t.out = [.memReply 0 0 0x1234 false]) ∧ nextIs (.memrddata 0 dpa) (hdm 1) (fun t => t.out = [.memReply 0 0 0x1234 false]) ∧ nextIs (.meminv 0 dpa 0) (hdm 1) (fun t => t.out = [.memAck 0]) ∧
    nextIs (.memclnevct 0 dpa) (hdm 1) (fun t => t.out = [.memAck 0]) ∧ nextIs (.memwr 0 dpa 0 0x77 false) (hdm 1) (fun t => t.load (64 * ln) 64 = 0x77) ∧ nextIs (.memwrptl 0 dpa 0 0x77 1 false) (hdm 1) (fun t => t.load (64 * ln) 64 = 0x1277) ∧
    nextIs (.memspecrd 0 dpa) (hdm 1) (fun t => t.out = []) := by decide +kernel
def fwd (op : D2hOp) (b : Bool) : State := { hdm 1 with ports := [(0, { present := true, linkUp := true, d2h := [{ id := 1, op := op, line := ln, data := 0x99 }] })], txns := [(ln, { busy := b, src := 2, ply := 8, d2h := some op })] }
theorem test_forwards : nextIs (.memrdfwd 0 dpa) (fwd .rdOwn true) (fun t => (t.txn ln).grant = some { st := .m, data := some 0x1234 } && (t.port 0).d2h = []) ∧ nextIs (.memwrfwd 0 dpa) (fwd .dirtyEvict false) (fun t => t.load (64 * ln) 64 = 0x99 && t.out = [.memAck 0]) := by decide +kernel
theorem test_hdm_db : nextIs (.memrd 0 dpa 2 0) (hdm 2) (fun t => t.out = [.memReply 0 2 0x1234 false] && t.dir ln = .owned 96) ∧ nextIs (.memrd 0 dpa 1 0) (hdm 2) (fun t => t.dir ln = .shared [96]) ∧ nextIs (.memrd 0 dpa 0 0) (hdm 2) (fun t => t.out = [.memReply 0 0 0x1234 false] && t.dir ln = .none) ∧
    nextIs (.meminv 0 dpa 2) (hdm 2) (fun t => t.dir ln = .owned 96 && t.out = [.memReply 0 2 0 false]) ∧ nextIs (.memclnevct 0 dpa) (hdm 2) (fun t => t.dir ln = .none) ∧ nextIs (.memwrptl 0 dpa 0 0x77 1 false) (hdm 2) (fun t => t.load (64 * ln) 64 = 0x1277 && t.out = [.memReply 0 0 0 false]) ∧
    nextIs (.memwr 0 dpa 0 0x77 false) (hdm 2) (fun t => t.load (64 * ln) 64 = 0x77) ∧ nextIs (.memrddata 0 dpa) (hdm 2) (fun t => t.dir ln = .owned 96) := by decide +kernel
theorem test_hdm_io : nextIs (.hdmAccess 0 dpa { io := true }) (hdm 1) (fun t => t.out = [.ioReply 0 0 0x1234 false]) ∧ nextIs (.hdmAccess 0 dpa { io := true, write := true, data := 0x77, mask := 1 }) (hdm 1) (fun t => t.load (64 * ln) 64 = 0x1277) := by decide +kernel

/-! ### Host ports (chapters 4 and 5) -/

def hp (x : Port) (l : List (Fld × Nat × Nat)) : State := { flds coil3 l with ports := [(0, x)] }
def ready0 : List (Fld × Nat × Nat) := [(.HT_LINK_STATUS_READY, 0, 1), (.HT_LINK_STATUS_PROTO, 0, 3)]
def linked : Port := { present := true, released := true, linkUp := true, trained := 16, cfg := [(CfgField.vfEnable.ctorIdx, 1)] }
def asserted : State := let s := hp { present := true } []; { s with module := { s.module with pins := { s.module.pins with perst := [(0, true)] } } }
theorem witness_HostLinks : coil3.perst 0 = false ∧ coil3.module.railsOn = true ∧ (coil3.port 0).resetting = false ∧ asserted.perst 0 = true ∧ coil3.ready = true ∧ coil3.fld .HT_LINK_STATUS_READY 0 = 0 ∧ (coil3.port 0).released = true ∧
    (hp linked []).fld .HT_LINK_STATUS_PROTO 0 ≠ 2 ∧ (hp {} []).port 0 = {} := by decide +kernel
def inRst (i : Instr) (s : State) : Bool := nextIs i s (fun t => (t.port 0).resetting && !(t.port 0).linkUp && t.fld .HT_LINK_STATUS_READY 0 = 0)
theorem test_perst : inRst (.perstNAssert 0) (hp linked ready0) ∧ nextIs (.perstNDeassert 0) asserted (fun t => (t.port 0).released && !t.perst 0) ∧ inRst (.hotReset 0) (hp linked ready0) ∧ inRst (.surpriseDown 0) (hp linked ready0) ∧
    nextIs (.hitchReady 0) (hp linked []) (fun t => t.fld .HT_LINK_STATUS_READY 0 = 1) := by decide +kernel
/-- 64 GT/s with 256 B flits, and 32 GT/s with 68 B flits. -/
theorem test_link : nextIs (.linkTrained 0 { rate := 6, width := 16, proto := 2 }) coil3 (fun t => t.fld .HT_LINK_STATUS_PROTO 0 = 3 && t.fld .HT_LINK_STATUS_HDM 0 = 2 && t.fld .HT_LINK_STATUS_SPEED 0 = 6 && t.fld .HT_LINK_STATUS_WIDTH 0 = 16) ∧
    nextIs (.linkTrained 0 { rate := 6, width := 8, proto := 1 }) coil3 (fun t => t.fld .HT_LINK_STATUS_PROTO 0 = 2 && t.fld .HT_LINK_STATUS_HDM 0 = 1 && t.fld .HT_LINK_STATUS_SPEED 0 = 5) ∧
    nextIs (.l0pWidthChange 0 4) (hp linked []) (fun t => t.fld .HT_LINK_STATUS_WIDTH 0 = 4 && t.fld .HT_LINK_STATUS_L0P 0 = 1) ∧ nextIs (.l1Entry 0 true) (hp linked []) (fun t => t.fld .HT_LINK_STATUS_L1 0 = 1) := by decide +kernel
def flr (fn n : Nat) : State := hp { linked with flr := [(fn, n)], tags := [{ tag := 3, fn := fn, src := .capstan, addr := 0, len := 4 }] } ready0
theorem witness_HostFunctions : (hp linked ready0).visible 0 0 = true ∧ (hp linked ready0).visible 0 32 = true ∧ (hp linked ready0).visible 0 33 = false ∧ (hp linked ready0).inFlr 0 1 = false ∧ (flr 1 2).inFlr 0 1 = true ∧ (flr 1 2).fnCoils 0 1 = [] ∧
    (flr 1 2).fnChannels 0 1 = [] ∧ ((flr 1 3).fnCoils 0 1).all (flr 1 3).coilQuiet = true ∧ (let s : State := { kn with ports := [(0, { linked with flr := [(0, 3)] })] }; (s.fnCoils 0 0).all s.coilQuiet = false) := by decide +kernel
theorem test_config : nextIs (.configRequest 0 0 (.read .vendorId)) (hp linked ready0) (fun t => t.out = [.cfgReply 0 0 0 0x1F6E]) ∧ nextIs (.configRequest 0 5 (.read .deviceId)) (hp linked ready0) (fun t => t.out = [.cfgReply 0 5 0 0x0B21]) ∧
    nextIs (.configRequest 0 0 (.read .vendorId)) (hp linked []) (fun t => t.out = [.cfgReply 0 0 2 0]) ∧ nextIs (.configRequest 0 33 (.read .vendorId)) (hp linked ready0) (fun t => t.out = [.cfgReply 0 33 1 0]) ∧
    nextIs (.configRequest 0 1 (.write .busMaster 1)) (hp linked ready0) (fun t => t.cfgVal 0 1 .busMaster = 1) ∧ nextIs (.configRequest 0 0 (.setMask .sfCorr true)) (hp linked ready0) (fun t => (t.port 0).masked = [.sfCorr]) := by decide +kernel
theorem test_power_states : nextIs (.setD3hot 0) (hp linked ready0) (fun t => t.fld .HT_PM_STATUS_DSTATE 0 = 3 && t.fld .HT_PM_STATUS_WB_BUSY 0 = 1) ∧ nextIs (.d3hotWritebackDone 0) (hp { linked with sf := [(hl, { holders := [2] })] } ((.HT_PM_STATUS_WB_BUSY, 0, 1) :: ready0)) (fun t => t.fld .HT_PM_STATUS_WB_BUSY 0 = 0 && (t.port 0).sf = []) ∧
    nextIs (.returnToD0 0) (hp linked ((.HT_PM_STATUS_DSTATE, 0, 3) :: ready0)) (fun t => t.fld .HT_PM_STATUS_DSTATE 0 = 0) ∧ nextIs (.pmeStatusClear 0) (hp linked [(.HT_PM_STATUS_PME_PENDING, 0, 1)]) (fun t => t.fld .HT_PM_STATUS_PME_PENDING 0 = 0) := by decide +kernel
theorem test_flr : nextIs (.initiateFlr 0 32) (hp linked ready0) (fun t => t.fld .HT_FLR_STATUS_IN_FLR 0 = 2 ^ 32 && (t.port 0).flr = [(32, 2)]) ∧ nextIs (.flrStepEnd 0 1) (flr 1 2) (fun t => (t.port 0).flr = [(1, 3)]) ∧
    nextIs (.flrStepEnd 0 1) (flr 1 3) (fun t => (t.port 0).flr = [(1, 4)] && (t.port 0).tags.map (·.discard) = [true]) ∧ nextIs (.flrStepEnd 0 1) (flr 1 5) (fun t => (t.port 0).flr = [(1, 6)]) ∧
    nextIs (.flrStepEnd 0 1) (flr 1 6) (fun t => (t.port 0).flr = []) ∧ nextIs (.flrStepEnd 0 0) (flr 0 4) (fun t => (t.port 0).sf = []) ∧ nextIs (.initiateCacheWriteback 0) (hp linked ready0) (fun t => t.cfgVal 0 0 .cacheInvalid = 1) := by decide +kernel
/-- An atomic of core 64 at the host, for register 5. -/
def tagged (d : Bool) : State := { kn with cores := [(64, { (kn.core 64) with accesses := [{ id := 2, op := .amo 0x11 1 0 5 }] })], ports := [(0, { linked with tags := [{ tag := 3, fn := 1, src := .core 64 2, addr := 0x1000, len := 4, discard := d }] })] }
theorem witness_HostErrors : ((tagged false).port 0).reclassed = [] ∧ ((tagged false).core 64).ending = false ∧ ((tagged false).port 0).tags.map (·.tag) = [3] ∧ (coil3.port 0).present = true ∧ coil3.fld .HT_HOLD_STATUS_HOLD 0 = 0 ∧ coil3.cleatUp = true ∧ coil3.ready = true := by decide +kernel
theorem test_completions : nextIs (.cxlIoCompletion 0 3 [1, 2] false) (tagged false) (fun t => (t.port 0).tags.map (·.got) = [[1, 2]]) ∧ nextIs (.cxlIoCompletion 0 3 [1, 2, 3, 4] false) (tagged false) (fun t => (t.core 64).rg 5 = 0x04030201 && (t.port 0).tags = [] && (t.core 64).accesses = []) ∧
    nextIs (.cxlIoCompletion 0 3 [1, 2, 3, 4] false) (tagged true) (fun t => (t.port 0).tags = [] && (t.core 64).accesses.length = 1) ∧ nextIs (.completionTimeout 0 3) (tagged true) (fun t => (t.port 0).tags = [] && (t.port 0).status = [.completionTimeout]) := by decide +kernel
def holding (l : List (Fld × Nat × Nat)) : State := hp { linked with d2h := [{ id := 7, op := .rdOwn, line := hl }] } ((.HT_HOLD_STATUS_HOLD, 0, 1) :: l)
theorem test_errors : nextIs (.hostPortError 0 .sfCorr {}) coil3 (fun t => t.fld .HT_ERR_STATUS_SF_CORR 0 = 1 && t.fld .HT_ERR_CE_COUNT_COUNT 0 = 1 && t.fld .HT_HOLD_STATUS_HOLD 0 = 0) ∧ nextIs (.hostPortError 0 .internal {}) coil3 (fun t => t.fld .HT_ERR_STATUS_INTERNAL 0 = 1 && t.fld .HT_HOLD_STATUS_HOLD 0 = 1) ∧
    nextIs (.d2hTimeout 0 7) (holding []) (fun t => t.fld .HT_ERR_STATUS_D2H_TIMEOUT 0 = 1) := by decide +kernel
theorem test_port_hold : nextIs (.portHoldDone 0) (holding []) (fun t => t.fld .HT_HOLD_STATUS_DONE 0 = 1) ∧ nextIs (.holdRelease 0 0xC1EA true) (holding [(.HT_HOLD_STATUS_DONE, 0, 1)]) (fun t => t.fld .HT_HOLD_STATUS_HOLD 0 = 0 && t.fld .HT_HOLD_STATUS_RELEASE_STATUS 0 = 0) ∧
    nextIs (.holdRelease 0 0xC1EB true) (holding [(.HT_HOLD_STATUS_DONE, 0, 1)]) (fun t => t.fld .HT_HOLD_STATUS_HOLD 0 = 1 && t.fld .HT_HOLD_STATUS_RELEASE_STATUS 0 = 2) ∧ nextIs (.holdRelease 0 0xC1EA true) (holding []) (fun t => t.fld .HT_HOLD_STATUS_RELEASE_STATUS 0 = 1) ∧
    nextIs (.holdRelease 0 0xC1EA true) coil3 (fun t => t.fld .HT_HOLD_STATUS_RELEASE_STATUS 0 = 3) ∧ nextIs (.portHold 0) coil3 (fun t => t.fld .HT_HOLD_STATUS_HOLD 0 = 1 && t.fld .HT_HOLD_STATUS_CAUSE 0 = 3) ∧ nextIs (.portRelease 0) (holding []) (fun t => t.out = [.pldmReply 0 [1]]) := by decide +kernel
def keyed (a : Bool) : State := hp { linked with ide := [(1, { programmed := [(2, 1, 0)], active := if a then [(2, 1, 0)] else [] }), (5, { programmed := [(0, 1, 1)] })] } ready0
theorem test_ide : nextIs (.query 0) (hp linked ready0) (fun t => t.out = [.ideReply 0 true [1, 4]]) ∧ nextIs (.cxlQuery 0) (hp linked ready0) (fun t => t.out = [.ideReply 0 true [1]]) ∧ nextIs (.keyProg 0 1 2 1 0) (keyed true) (fun t => t.out = [.ideReply 0 false []]) ∧ nextIs (.keyProg 0 4 2 1 1) (hp linked ready0) (fun t => (t.ide 0 4).programmed = [(2, 1, 1)]) ∧
    nextIs (.kSetGo 0 1 2 1 0) (keyed false) (fun t => (t.ide 0 1).active = [(2, 1, 0)]) ∧ nextIs (.kSetGo 0 1 2 1 1) (keyed false) (fun t => t.out = [.ideReply 0 false []]) ∧ nextIs (.kSetStop 0 1 2 1 0) (keyed true) (fun t => (t.ide 0 1).active = [] && (t.ide 0 1).programmed = []) := by decide +kernel
theorem test_cxl_ide : nextIs (.cxlKeyProg 0 1 0) (hp linked ready0) (fun t => (t.ide 0 5).programmed = [(0, 1, 0)]) ∧ nextIs (.cxlKSetGo 0 1 1) (keyed false) (fun t => (t.ide 0 5).active = [(0, 1, 1)]) ∧ nextIs (.cxlKSetStop 0 1 1) (keyed false) (fun t => (t.ide 0 5).programmed = []) ∧
    nextIs (.cxlGetkey 0 1 0) (hp linked ready0) (fun t => (t.ide 0 5).programmed = [(0, 1, 0)]) ∧ nextIs (.ideRequire 0 true false) (hp linked ready0) (fun t => t.fld .HT_IDE_CTL_REQUIRE_IO 0 = 1 && t.fld .HT_IDE_CTL_REQUIRE_CXL 0 = 0) := by decide +kernel
def free4 : List (Fld × Nat × Nat) := (.CP_COIL_ADMIN_STATE, 4, 1) :: ready0
def bound4 : List (Fld × Nat × Nat) := [(.HT_VF_BIND_VALID, 31, 1), (.HT_VF_BIND_COIL, 31, 4), (.CP_COIL_ADMIN_HOME_VALID, 4, 1)] ++ free4
theorem witness_HostBindings : (hp linked free4).fld .HT_LINK_STATUS_READY 0 ≠ 0 ∧ (hp linked free4).fld .HT_VF_BIND_VALID 31 = 0 ∧ (hp linked free4).inFlr 0 32 = false ∧ (hp linked bound4).coilInFlight 4 = 0 ∧ (hp linked free4).channelIdle 12288 = true ∧ (hp linked free4).homeOf 3 = some 0 := by decide +kernel
/-- VF 32, the last, binds coil 4; coil 3 has a home already; coil 5 is free. -/
theorem test_vf_bind : nextIs (.vfBind 0 32 4) (hp linked free4) (fun t => t.homeOf 4 = some 0 && t.fld .HT_VF_BIND_VALID 31 = 1) ∧ nextIs (.vfBind 0 32 3) (hp linked free4) (fun t => t.fld .HT_VF_BIND_STATUS 31 = 1) ∧ nextIs (.vfBind 0 1 5) (hp linked free4) (fun t => t.fld .HT_VF_BIND_STATUS 0 = 2) ∧
    nextIs (.vfUnbind 0 32) (hp linked bound4) (fun t => t.homeOf 4 = none && t.fld .HT_VF_BIND_VALID 31 = 0) ∧ nextIs (.tkOwnerWrite 0 63 0 3 true) (hp linked free4) (fun t => t.fld .HT_TK_OWNER_VALID 63 = 1 && t.fld .HT_TK_OWNER_COIL 63 = 3) ∧
    nextIs (.tkOwnerWrite 0 63 0 4 true) (hp linked free4) (fun t => t.fld .HT_TK_OWNER_VALID 63 = 0 && t.fld .HT_TK_OWNER_STATUS 63 = 3) ∧ nextIs (.tkOwnerWrite 0 0 7 3 true) (hp linked ((.HT_TK_OWNER_VALID, 0, 1) :: free4)) (fun t => t.fld .HT_TK_OWNER_STATUS 0 = 1) ∧
    nextIs (.tkOwnerWrite 0 0 0 3 false) (hp linked ((.HT_TK_OWNER_VALID, 0, 1) :: free4)) (fun t => t.fld .HT_TK_OWNER_VALID 0 = 0) := by decide +kernel

/-! ### Tackle and ply caches (chapters 9 and 15) -/

/-- Channel 64, the first of ply 2, of coil 3; the carved scratch of ply 2 is one way. Its ring lies at DVA 0x3000. -/
def ch (x : Channel) (l : List (Fld × Nat × Nat)) : State := { flds coil3 ([(.TK_CH_RING_BASE, 64, 0xC0), (.PC_STATUS_WAYS, 2, 1), (.TK_CH_CTL_ENABLE, 64, 1)] ++ l) with channels := [(64, x)] }
theorem witness_TackleChannels : coil3.plyCoil (64 / 32) = some 3 ∧ coil3.homeOf 3 = some 0 ∧ (ch {} []).chCoil 64 = some 3 ∧ (ch {} []).fld .TK_CH_RING_BASE 64 % 2 ^ (ch {} []).fld .TK_CH_RING_LOG2 64 = 0 ∧ (ch {} []).chOutstanding 64 = false ∧
    coil3.fld .HT_TK_OWNER_VALID 0 = 0 ∧ 12288 ≤ 12288 ∧ (0 = (12288 - 12288) / 64) := by decide +kernel
def state64 (i : Instr) (s : State) (n : Nat) : Bool := nextIs i s (fun t => t.fld .TK_CH_STATUS_STATE 64 = n)
theorem test_channels : state64 (.channelEnable 0 64) (ch {} [(.TK_CH_CTL_ENABLE, 64, 0)]) 1 ∧ nextIs (.channelEnable 0 64) (ch {} [(.TK_CH_CTL_ENABLE, 64, 0), (.TK_CH_RING_BASE, 64, 0xC1), (.TK_CH_RING_LOG2, 64, 4)]) (fun t => t.fld .TK_CH_CTL_STATUS 64 = 1) ∧
    nextIs (.channelEnable 0 12288) coil3 (fun t => t.fld .TK_CH_CTL_STATUS 12288 = 2) ∧ state64 (.channelDisable 0 64) (ch {} [(.TK_CH_TAIL_TAIL, 64, 5)]) 6 ∧ state64 (.pause 0 64) (ch {} [(.TK_CH_STATUS_STATE, 64, 2)]) 3 ∧ state64 (.paused 64) (ch {} [(.TK_CH_STATUS_STATE, 64, 3)]) 4 ∧
    state64 (.pauseClear 0 64) (ch {} [(.TK_CH_STATUS_STATE, 64, 4)]) 1 ∧ state64 (.pauseClear 0 64) (ch {} [(.TK_CH_STATUS_STATE, 64, 4), (.TK_CH_TAIL_TAIL, 64, 1)]) 2 ∧ state64 (.channelStopped 64) (ch {} [(.TK_CH_STATUS_STATE, 64, 6), (.TK_CH_CTL_ENABLE, 64, 0)]) 0 := by decide +kernel
/-- A ring of 2^LOG2 slots takes as many descriptors, and not one more. -/
theorem test_tail : nextIs (.tailWrite 0 64 16) (ch {} [(.TK_CH_RING_LOG2, 64, 4), (.TK_CH_STATUS_STATE, 64, 1)]) (fun t => t.fld .TK_CH_TAIL_TAIL 64 = 16 && t.fld .TK_CH_STATUS_STATE 64 = 2) ∧ nextIs (.tailWrite 0 64 17) (ch {} [(.TK_CH_RING_LOG2, 64, 4)]) (fun t => t.fld .TK_CH_TAIL_TAIL 64 = 0 && t.fld .TK_CH_TAIL_STATUS 64 = 2) ∧
    nextIs (.tailWrite 0 64 1) (ch {} [(.TK_CH_CTL_ENABLE, 64, 0)]) (fun t => t.fld .TK_CH_TAIL_STATUS 64 = 1) ∧ nextIs (.tailWrite 0 64 1) (ch {} [(.TK_CH_CTL_WATCH, 64, 1)]) (fun t => t.fld .TK_CH_TAIL_STATUS 64 = 3) := by decide +kernel
/-- A copy of 8 bytes from offset 64 to offset 128 of the scratch of ply 2. -/
def copy8 : TackleDesc := { src := 0x2000040, dst := 0x2000080, length := 8, rows := 1, ctl := 40 }
theorem copy8_fields : copy8.op = 0 ∧ copy8.srcSpace = 2 ∧ copy8.dstSpace = 2 ∧ copy8.srcWrap = 0 ∧ copy8.dstWrap = 0 ∧ copy8.hint = false ∧ copy8.barrier = false := by decide +kernel
def run (x : Channel) : State := (ch x [(.TK_CH_STATUS_STATE, 64, 2), (.TK_CH_TAIL_TAIL, 64, 1)]).store (scr + 0x2000040) 2 0xBEEF
def beat : Beat := { id := 0, row := 0, off := 0, len := 8, stage := .staged, data := 0xBEEF, desc := copy8 }
theorem witness_TackleTransfers : (run { cur := some copy8 }).mayBeat 64 = true ∧ ((run { cur := some copy8 }).chan 64).unread = true ∧ (run {}).targetCheck (some 3) none ((scr + 0x2000040) / 64) = spOk ∧ (run {}).targetCheck (some 3) none ((scr + copy8.dstAt 0 0) / 64) = spOk ∧
    (run {}).carveHolds (scr + 0x2000040) = false ∧ ((run { cur := some copy8, row := 1 }).chan 64).unread = false ∧ chPly 64 = some 2 ∧
    (∀ r < copy8.rows, ∀ y < copy8.length, ∀ q < copy8.rows, ∀ z < copy8.length, copy8.srcAt r y ≠ copy8.dstAt q z) := by decide +kernel
theorem test_overlap : copy8.overlaps = false ∧ ({ copy8 with dst := 0x2000047 } : TackleDesc).overlaps = true ∧ ({ copy8 with dst := 0x2000048 } : TackleDesc).overlaps = false ∧
    ({ copy8 with dst := 0x2000038, rows := 2, dstStride := 9 } : TackleDesc).overlaps = true ∧ ({ copy8 with dst := 0x2000078, ctl := 40 + 6 * 2 ^ 12, length := 16 } : TackleDesc).overlaps = true := by decide +kernel
theorem test_transfer : nextIs (.beatReadData 64) (run { cur := some copy8 }) (fun t => (t.chan 64).beats.map (fun b => (b.stage, b.len, b.data)) = [(.staged, 8, 0xBEEF)] && (t.chan 64).row = 1) ∧
    nextIs (.beatWriteAck 64) (run { cur := some copy8, row := 1, beats := [beat] }) (fun t => t.load (scr + 0x2000080) 8 = 0xBEEF && (t.chan 64).beats = [] && t.fld .TK_CH_BYTES_COUNT 64 = 8) ∧
    nextIs (.descriptorComplete 64) (run { cur := some copy8, row := 1 }) (fun t => (t.chan 64).status) := by decide +kernel
/-- The ply cache of ply 2 holds the descriptor in slot 0 of the ring; its status write goes to the same line. -/
def descLine : LineData := BitVec.ofNat 512 (0x2000040 + 2 ^ 64 * 0x2000080 + 2 ^ 128 * (8 + 2 ^ 32) + 2 ^ 256 * 40)
def ringed (x : Channel) : State := { run x with plies := [(2, { cache := [(0x2003000 / 64, { st := .m, data := descLine })] })] }
theorem test_descriptor : nextIs (.descriptorFetched 64 none) (ringed {}) (fun t => (t.chan 64).cur = some copy8 && (t.chan 64).bad = none) ∧
    nextIs (.statusWriteAck 64) (ringed { cur := some copy8, row := 1, status := true }) (fun t => t.fld .TK_CH_DONE_DONE 64 = 1 && (t.chan 64).cur = none && (((t.ply 2).copy (0x2003000 / 64)).map (fun c => c.data.toNat / 2 ^ 384 % 2)) = some 1) := by decide +kernel
/-- The word that the channel watches lies at DVA 0x4000, in the ply cache. -/
def watching : State := { ch {} [(.TK_CH_CTL_WATCH, 64, 1), (.TK_CH_WATCH_ADDR, 64, 0x4000 / 8), (.TK_CH_STATUS_STATE, 64, 1), (.TK_CH_RING_LOG2, 64, 4)] with plies := [(2, { cache := [(0x2004000 / 64, { st := .s, data := 3 })] })] }
theorem test_watch : nextIs (.tailWordChange 64) watching (fun t => t.fld .TK_CH_TAIL_TAIL 64 = 3 && t.fld .TK_CH_STATUS_STATE 64 = 2) := by decide +kernel
theorem test_tile_power : nextIs (.tileStorePowerUp 16) (flds coil3 [(.CR_STATUS_PSTATE, 16, 4)]) (fun t => t.fld .CR_STATUS_PSTATE 16 = if (flds coil3 [(.CR_STATUS_PSTATE, 16, 4)]).wantsTile 16 then 3 else 4) ∧
    nextIs (.flushReadDone 0 3 true) { kn with cores := [(64, { (kn.core 64) with flushing := [(0, 3)] })], ports := [(0, { linked with tags := [{ tag := 3, fn := 0, src := .core 64 0, addr := 0, len := 0 }] })] } (fun t => (t.core 64).flushing = [] && (t.port 0).tags = []) := by decide +kernel

/-- A load of core 16, of ply 2, waits for the second piece of a line of its scratch. -/
def l1d : State := { run {} with cores := [(16, { coil := some 3, accesses := [{ id := 0, op := .load (.g 5 8 false), parts := [{ elem := 0, wpa := scr + 0x2000050, size := 8 }] }] })] }
theorem witness_CoreBuffers : placeOf (scr + 0x2000040) = .scratch 2 64 ∧ plyOfCore 16 = 2 ∧ l1d.scratchValid 2 64 = true ∧ l1d.l1dPieces 16 ((scr + 0x2000040) / 64) = 0 ∧ l1d.targetCheck (some 3) none ((scr + 0x2000040) / 64) = spOk ∧ l1d.scratchPoisoned (scr + 0x2000050) = false := by decide +kernel
theorem test_l1d : nextIs (.l1dFillPiece 16 ((scr + 0x2000040) / 64) 1) (l1d.store (scr + 0x2000050) 2 0xABC) (fun t => (t.core 16).rg 5 = 0xABC && (t.core 16).accesses = [] && t.l1dPieces 16 ((scr + 0x2000040) / 64) = 2) ∧ nextIs (.l1dFillPiece 16 ((scr + 0x2000040) / 64) 0) l1d (fun t => (t.core 16).accesses.length = 1) := by decide +kernel
def buffered (d : Bool) : State := { run {} with cores := [(16, { coil := some 3, mb := [{ line := (scr + 0x2000040) / 64, mask := 0xF00, data := 0x77 <<< 64, draining := d }], nt := [{ block := (scr + 0x2000100) / 256, mask := 1, data := 9, draining := d }] })] }
theorem test_drains : nextIs (.mbDrainTimeout 16 ((scr + 0x2000040) / 64)) (buffered false) (fun t => (t.core 16).mb.map (·.draining) = [true]) ∧ nextIs (.mbDrainAck 16 ((scr + 0x2000040) / 64)) (buffered true) (fun t => t.load (scr + 0x2000048) 4 = 0x77 && t.load (scr + 0x2000040) 2 = 0xBEEF && (t.core 16).mb = []) ∧
    nextIs (.ntDrainTimeout 16 ((scr + 0x2000100) / 256)) (buffered false) (fun t => (t.core 16).nt.map (·.draining) = [true]) ∧ nextIs (.ntDrainAck 16 ((scr + 0x2000100) / 256)) (buffered true) (fun t => t.load (scr + 0x2000100) 1 = 9 && (t.core 16).nt = []) := by decide +kernel
def remote (op : AccOp) : State := { run {} with cores := [(24, { coil := some 3, accesses := [{ id := 6, op := op, parts := [{ elem := 0, wpa := scr + 0x2000040, size := 4 }] }] })] }
theorem test_remote_atomic : nextIs (.coreAccessResponse 24 6 {}) (remote (.amo 0x11 1 0 5)) (fun t => (t.core 24).rg 5 = 0xBEEF && t.load (scr + 0x2000040) 4 = 0xBEF0) ∧ nextIs (.coreAccessResponse 24 6 {}) (remote (.ldrsv 5)) (fun t => (t.core 24).rg 5 = 0xBEEF && (t.core 24).rsv = some { base := scr + 0x2000040, size := 64 }) := by decide +kernel

def ply (x : Ply) : State := { flds coil3 [(.PC_STATUS_WAYS, 2, 1)] with plies := [(2, x)] }
theorem witness_Carving : (ply {}).plyBusy 2 = false ∧ ((ply {}).ply 2).carving = none ∧ (ply {}).sealed 3 = false ∧ (ply {}).carved 2 = 1 ∧ (ply { carving := some 8 }).scratchWaits 2 0x7FFFFF = true ∧ (ply { carving := some 8 }).scratchWaits 2 0x800000 = false ∧
    (ply { maint := some { op := 1, way := 0, set := 0 } }).plyBusy 2 = false := by decide +kernel
theorem test_carve : nextIs (.carve 0 2 8) (ply {}) (fun t => (t.ply 2).carving = some 8 && t.fld .PC_STATUS_CARVE_BUSY 2 = 1 && t.carved 2 = 1) ∧ nextIs (.carve 0 2 9) (ply {}) (fun t => (t.ply 2).carving = none && t.fld .PC_SCRATCH_STATUS 2 = 0) ∧ nextIs (.carve 0 2 0) (ply { carving := some 8 }) (fun t => t.fld .PC_SCRATCH_STATUS 2 = 1) ∧
    nextIs (.carveDone 2) ((ply { carving := some 2 }).store (scr + 0x2100000) 1 7) (fun t => t.carved 2 = 2 && t.load (scr + 0x2100000) 1 = 0 && (t.ply 2).carving = none) := by decide +kernel
def ways : State := ply { cache := [(ln, { st := .m, data := 0xCD, way := 4 })] }
theorem witness_MaintenanceByWay : ways.lineOfWay 2 4 (plySet ln) = some ln ∧ (ways.ply 2).copy ln ≠ none ∧ (ways.ply 2).maint = none ∧ ways.maintQuiet 2 ln = true ∧ (wb .wb 0).maintQuiet 8 ln = false ∧ 16 - ways.carved 2 = 15 := by decide +kernel
/-- Way 14 is the last of the cache, way 15 the carved one, way 17 and set 16384 beyond both. -/
theorem test_ways : nextIs (.cleanWay 0 2 4 (plySet ln)) ways (fun t => ((t.ply 2).copy ln).map (·.st) = some .e && (t.bus 0).wbs.map (fun w => (w.line, w.kind, w.data)) = [(ln, .cln, some 0xCD)]) ∧ nextIs (.invWay 0 2 4 (plySet ln)) ways (fun t => (t.ply 2).copy ln = none) ∧
    nextIs (.cleanInvWay 0 2 4 (plySet ln)) ways (fun t => (t.ply 2).copy ln = none && (t.ply 2).maint.map (·.waits) = some [ln]) ∧ nextIs (.cleanInvAll 0 2) ways (fun t => (t.ply 2).cache = []) ∧ nextIs (.cleanWay 0 2 14 0) ways (fun t => t.fld .PC_MAINT_STATUS 2 = 0) ∧
    nextIs (.cleanWay 0 2 15 0) ways (fun t => t.fld .PC_MAINT_STATUS 2 = 2) ∧ nextIs (.cleanWay 0 2 17 0) ways (fun t => t.fld .PC_MAINT_STATUS 2 = 3) ∧ nextIs (.cleanWay 0 2 0 16384) ways (fun t => t.fld .PC_MAINT_STATUS 2 = 3) := by decide +kernel
theorem test_maint_done : nextIs (.maintDone 2 none) (ply { maint := some { op := 1, way := 0, set := 0 } }) (fun t => (t.ply 2).maint = none) ∧ nextIs (.maintDone 8 (some (64, 1))) { kn with cores := [(64, { (kn.core 64) with accesses := [{ id := 1, op := .maint 1, parts := [{ elem := 0, wpa := 64 * ln, size := 64 }] }] })] } (fun t => (t.core 64).accesses = []) := by decide +kernel
def bnc : State := { coil3 with buses := [(0, { reqs := [{ ply := 2, line := ln, req := .bnc, coil := some 3 }] })] }
theorem test_bnc : nextIs (.bnc 2 ln {}) (bnc.store (64 * ln) 2 0x1234) (fun t => ((t.ply 2).copy ln).map (fun z => (z.st, z.data, z.str)) = some (.s, 0x1234, true) && (t.bus 0).reqs = []) := by decide +kernel

/-! ### Spool, coils, fences and the Net (chapters 6, 7, 18 and 19) -/

def f3 (l : List (Fld × Nat × Nat)) : State := flds coil3 l
theorem witness_VaultOwnership : coil3.module.railsOn = true ∧ coil3.module.controlPort = 0 ∧ coil3.striped 0 = false ∧ coil3.hdmNames 0 = false ∧ (f3 [(.CP_COIL_ADMIN_STATE, 3, 2)]).sealed 3 = true ∧ (f3 [(.SP_HDM_MAP_VALID, 1, 1)]).hdmNames 0 = true ∧
    coil3.fences.vaults.contains 3071 = false := by decide +kernel
theorem test_vault_assign : nextIs (.vaultAssign 0 3071 4) coil3 (fun t => t.vaultCoil 3071 = some 4 && t.fld .SP_VAULT_STATUS_STATE 3071 = 1) ∧ nextIs (.vaultAssign 0 0 4) coil3 (fun t => t.vaultCoil 0 = some 3 && t.fld .SP_VAULT_OWNER_STATUS 0 = 1) ∧ nextIs (.vaultAssign 0 1 4) (f3 [(.SP_VAULT_STATUS_STATE, 1, 2)]) (fun t => t.fld .SP_VAULT_OWNER_STATUS 1 = 2) ∧
    nextIs (.vaultAssign 0 1 4) (f3 [(.SP_VAULT_STATUS_STATE, 1, 3)]) (fun t => t.fld .SP_VAULT_OWNER_STATUS 1 = 3) ∧ nextIs (.vaultRelease 0 0) coil3 (fun t => t.vaultCoil 0 = none && t.fld .SP_VAULT_STATUS_STATE 0 = 2) ∧ nextIs (.vaultRelease 0 0) (f3 [(.SP_HDM_MAP_VALID, 1, 1)]) (fun t => t.fld .SP_VAULT_OWNER_STATUS 0 = 2) ∧
    nextIs (.vaultRelease 0 0) (f3 [(.CP_COIL_ADMIN_STATE, 3, 2)]) (fun t => t.vaultCoil 0 = some 3) := by decide +kernel
theorem test_vault_clear : nextIs (.vaultClearDone 0) { f3 [(.SP_VAULT_STATUS_STATE, 0, 2)] with lines := [(ln, { tag := some 3 })] } (fun t => t.fld .SP_VAULT_STATUS_STATE 0 = 0 && t.mem = [] && t.lines = []) ∧
    nextIs (.spareRowCopyDone 0 7) { coil3 with vaults := [(0, { copying := [7, 8] })] } (fun t => (t.vault 0).copying = [8]) ∧ nextIs (.vaultRefreshChange 0 85) coil3 (fun t => t.fld .SP_VAULT_STATUS_REFRESH 0 = 0) ∧ nextIs (.vaultRefreshChange 0 86) coil3 (fun t => t.fld .SP_VAULT_STATUS_REFRESH 0 = 1) ∧
    nextIs (.vaultRefreshChange 0 96) coil3 (fun t => t.fld .SP_VAULT_STATUS_REFRESH 0 = 2) := by decide +kernel
/-- The governor's capacity of 3,072 vaults of 64 GB/s. -/
def wafer : State := f3 [(.SP_GOV_CAPACITY, 0, 196608)]
def stripe (v : Nat) : State := f3 [(.SP_STRIPE_CTL_COUNT, 3, 2), (.SP_STRIPE_LIST_VAULT, 9217, v), (.SP_VAULT_OWNER_COIL, 5, 3), (.SP_VAULT_OWNER_VALID, 5, 1)]
theorem witness_SpoolRegisters : coil3.homeOf 3 = some 0 ∧ coil3.fld .SP_KEY_CTL_VALID 3 ≠ 0 ∧ coil3.ownsVault 3 = true ∧ coil3.ownsVault 4 = false ∧ (stripe 5).vaultCoil 5 = some 3 ∧ (stripe 6).vaultCoil 6 ≠ some 3 ∧ coil3.fld .SP_RSV_GBPS 3 = 0 ∧ coil3.usableOwned 3 = 1 ∧
    80 * 64 * 1 < 100 * 52 ∧ ¬ 80 * 64 * 1 < 100 * 51 ∧ ¬ 80 * wafer.fld .SP_GOV_CAPACITY 0 < 100 * 52 := by decide +kernel
theorem test_keys : nextIs (.keyGenerate 0 3) coil3 (fun t => t.fld .SP_KEY_CTL_STATUS 3 = 1) ∧ nextIs (.keyGenerate 0 3) (f3 [(.SP_KEY_CTL_VALID, 3, 0)]) (fun t => t.keyed 3) ∧ nextIs (.keyClear 0 3) coil3 (fun t => t.fld .SP_KEY_CTL_STATUS 3 = 2 && t.keyed 3) ∧
    nextIs (.keyClear 0 3) (f3 [(.SP_VAULT_OWNER_VALID, 0, 0)]) (fun t => !t.keyed 3) := by decide +kernel
/-- Byte 4096 of the second of two vaults of 4 KiB chunks is chunk 3 of the stripe. -/
theorem test_stripes : nextIs (.stripeActivate 0 3) (stripe 5) (fun t => t.fld .SP_STRIPE_CTL_ACTIVE 3 = 1 && t.stripeWpa 3 (3 * 4096 + 1) = some (5 * vaultSize + 4096 + 1)) ∧ nextIs (.stripeActivate 0 3) (stripe 6) (fun t => t.fld .SP_STRIPE_CTL_STATUS 3 = 1 && t.fld .SP_STRIPE_CTL_ACTIVE 3 = 0) ∧
    nextIs (.stripeDeactivate 0 3) (f3 [(.SP_STRIPE_CTL_ACTIVE, 3, 1)]) (fun t => t.fld .SP_STRIPE_CTL_ACTIVE 3 = 0) ∧ nextIs (.stripeActivate 0 3) (f3 [(.SP_STRIPE_CTL_COUNT, 3, 3073)]) (fun t => t.fld .SP_STRIPE_CTL_STATUS 3 = 3) := by decide +kernel
theorem test_hdm_map : nextIs (.hdmMapWrite 0 16383 2 3 true) coil3 (fun t => t.fld .SP_HDM_MAP_VALID 16383 = 1 && t.fld .SP_HDM_MAP_FATHOM 16383 = 2) ∧ nextIs (.hdmMapWrite 0 0 2 4 true) coil3 (fun t => t.fld .SP_HDM_MAP_STATUS 0 = 1) ∧ nextIs (.hdmMapWrite 0 0 0x12000 3 true) coil3 (fun t => t.fld .SP_HDM_MAP_STATUS 0 = 2) ∧
    nextIs (.hdmMapWrite 0 1 0 0 false) (f3 [(.SP_HDM_MAP_VALID, 1, 1)]) (fun t => t.fld .SP_HDM_MAP_VALID 1 = 0) := by decide +kernel
/-- One vault of 64 GB/s: 80 % of it is 51.2. -/
theorem test_reservation : nextIs (.reservationWrite 0 3 51) wafer (fun t => t.fld .SP_RSV_GBPS 3 = 51) ∧ nextIs (.reservationWrite 0 3 52) wafer (fun t => t.fld .SP_RSV_GBPS 3 = 0 && t.fld .SP_RSV_STATUS 3 = 2) ∧ nextIs (.reservationWrite 0 3 0x3FFFF) wafer (fun t => t.fld .SP_RSV_STATUS 3 = 1) ∧
    nextIs .sliceBoundary (flds coil3 [(.SP_GOV_STATE, 0, 2), (.SP_GOV_SEALED_PAUSE_Q, 0, 1), (.CP_COIL_ADMIN_STATE, 3, 2), (.CP_COIL_ADMIN_STATE, 4, 2)]) (fun t => t.fld .CP_COIL_CTL_PAUSED 4 = 1 && t.fld .CP_COIL_CTL_PAUSED 3 = 0) := by decide +kernel

/-- Coil 3 owns the plies of bay 0, reserves 51 GB/s and has a share; a lone core-ply of another bay would refuse the seal. -/
def sealable : State := f3 [(.CP_PLY_OWNER_VALID, 0, 1), (.CP_PLY_OWNER_COIL, 0, 3), (.CP_PLY_OWNER_VALID, 1, 1), (.CP_PLY_OWNER_COIL, 1, 3), (.CP_PLY_OWNER_VALID, 3, 1), (.CP_PLY_OWNER_COIL, 3, 3), (.CP_COIL_CTL_FIXED_OP, 3, 2),
  (.SP_RSV_GBPS, 3, 51), (.CP_COIL_POWER_SHARE_W, 3, 118)]
/-- The worked figure of R613: eight bays at point 2 need 940 W. -/
theorem test_least_share : leastShare 8 2 = 940 ∧ leastShare 1 2 = 118 := by decide +kernel
theorem witness_CoilControl : (sealable.baysOf 3).length = 1 ∧ sealable.coilInFlight 3 = 0 ∧ sealable.cap.clearing = [] ∧ sealable.holdsSplice 3 = false ∧ coil3.fld .CP_COIL_ADMIN_STATE 4 = 0 ∧ (f3 [(.CP_COIL_RUN_RESETTING, 3, 1)]).coilQuiet 3 = true ∧
    10 * 8 ≤ 8 * (min 20000 (935 * (coil3.capW - 60) / 1000) - 4500) := by decide +kernel
def adminStatus (i : Instr) (s : State) (n : Nat) : Bool := nextIs i s (fun t => t.fld .CP_COIL_ADMIN_STATUS 3 = n && t.fld .CP_COIL_ADMIN_STATE 3 = s.fld .CP_COIL_ADMIN_STATE 3)
theorem test_create_destroy : nextIs (.create 0 4) coil3 (fun t => t.fld .CP_COIL_ADMIN_STATE 4 = 1) ∧ adminStatus (.create 0 3) coil3 2 ∧ nextIs (.destroy 0 3) coil3 (fun t => t.fld .CP_COIL_ADMIN_STATE 3 = 3 && t.fld .CP_COIL_ADMIN_DESTROY_BUSY 3 = 1) ∧ adminStatus (.destroy 0 3) (f3 [(.SP_HDM_MAP_VALID, 1, 1), (.SP_HDM_MAP_COIL, 1, 3)]) 8 ∧
    nextIs (.coilRepeatableWrite 0 3 true) (f3 [(.CP_SRING_CFG_ENABLE, 192, 0)]) (fun t => t.fld .CP_COIL_ADMIN_REPEATABLE 3 = 1) ∧ adminStatus (.coilRepeatableWrite 0 3 true) coil3 1 := by decide +kernel
theorem test_seal : nextIs (.seal 0 3) sealable (fun t => t.sealed 3) ∧ adminStatus (.seal 0 3) (flds sealable [(.SP_KEY_CTL_VALID, 3, 0)]) 1 ∧ adminStatus (.seal 0 3) coil3 3 ∧ adminStatus (.seal 0 3) (flds sealable [(.CP_COIL_CTL_FIXED_OP, 3, 7)]) 4 ∧
    adminStatus (.seal 0 3) (flds sealable [(.SP_RSV_GBPS, 3, 0)]) 5 ∧ adminStatus (.seal 0 3) (flds sealable [(.CP_COIL_POWER_SHARE_W, 3, 117)]) 6 ∧ adminStatus (.seal 0 3) (flds sealable [(.DT_SHARE_A_VALID, 255, 1), (.DT_SHARE_A_GRANTEE, 255, 3)]) 7 := by decide +kernel
theorem test_coil_run : nextIs (.quiesce 0 3) coil3 (fun t => t.fld .CP_COIL_CTL_QUIESCED 3 = 1) ∧ nextIs (.resume 0 3) (f3 [(.CP_COIL_CTL_QUIESCED, 3, 1)]) (fun t => t.fld .CP_COIL_CTL_QUIESCED 3 = 0) ∧ nextIs (.resume 0 3) (f3 [(.HT_HOLD_STATUS_HOLD, 0, 1)]) (fun t => t.fld .CP_COIL_RUN_STATUS 3 = 2) ∧
    nextIs (.shareWrite 0 3 8) coil3 (fun t => t.fld .CP_COIL_POWER_SHARE_W 3 = 8) ∧ nextIs (.shareWrite 0 3 65535) coil3 (fun t => t.fld .CP_COIL_POWER_SHARE_W 3 = 0 && t.fld .CP_COIL_POWER_STATUS 3 = 1) ∧ nextIs (.coilResetEnd 3) (f3 [(.CP_COIL_RUN_RESETTING, 3, 1)]) (fun t => t.fld .CP_COIL_RUN_RESETTING 3 = 0) := by decide +kernel
theorem test_coil_reset : nextIs (.reset 0 3) (flds kn [(.DT_CTX_CTL_ENABLE, 3, 0)]) (fun t => t.fld .CP_COIL_RUN_RESETTING 3 = 1 && t.fld .CP_SRING_CFG_ENABLE 192 = 0 && (t.core 64).ending && t.cap.tasks = []) ∧ nextIs (.reset 0 3) (f3 [(.CP_COIL_RUN_RESETTING, 3, 1)]) (fun t => t.fld .CP_COIL_RUN_STATUS 3 = 1) := by decide +kernel
def plyStatus (i : Instr) (s : State) (y n : Nat) : Bool := nextIs i s (fun t => t.fld .CP_PLY_OWNER_STATUS y = n && t.plyCoil y = s.plyCoil y)
theorem witness_PliesAndDestruction : coil3.plyEnabled 383 = true ∧ coil3.plyInUse 2 = false ∧ ({ coil3 with fences := { cores := span 3064 8 } } : State).plyEnabled 383 = false ∧ coil3.grantsDrained 3 = true ∧ coil3.invDrained 3 none = true ∧ coil3.vaultsOf 3 = [0] := by decide +kernel
theorem test_plies : nextIs (.plyAssign 0 383 3) coil3 (fun t => t.plyCoil 383 = some 3) ∧ plyStatus (.plyAssign 0 2 4) coil3 2 1 ∧ plyStatus (.plyAssign 0 5 3) (f3 [(.CP_PLY_OWNER_CLEARING, 5, 1)]) 5 2 ∧ plyStatus (.plyAssign 0 383 3) { coil3 with fences := { cores := span 3064 8 } } 383 3 ∧ plyStatus (.plyAssign 0 383 4) coil3 383 4 ∧
    nextIs (.plyRelease 0 2) coil3 (fun t => t.plyCoil 2 = none && t.fld .CP_PLY_OWNER_CLEARING 2 = 1) ∧ plyStatus (.plyRelease 0 8) (flds kn [(.CP_PLY_OWNER_VALID, 8, 1), (.CP_PLY_OWNER_COIL, 8, 3)]) 8 2 := by decide +kernel
def clr (n : Nat) : State := { (f3 [(.CP_PLY_OWNER_CLEARING, 2, 1), (.PC_STATUS_WAYS, 2, 1)]).store (scr + 0x2000000) 1 9 with cap := { clearing := [(2, { coil := 3, step := n })] } }
def clrNext (i : Instr) (n m : Nat) : Bool := nextIs i (clr n) (fun t => (t.cap.clearing.map (·.2.step)) = [m])
theorem test_ply_clear : clrNext (.plyClearStepEnd 2) 1 2 ∧ clrNext (.plyClearStepEnd 2) 2 3 ∧ clrNext (.plyClearStepEnd 2) 3 4 ∧ nextIs (.plyClearStepEnd 2) (clr 3) (fun t => t.carved 2 = 0 && t.load (scr + 0x2000000) 1 = 0) ∧ nextIs (.plyClearStepEnd 2) (clr 4) (fun t => t.cap.clearing = [] && t.fld .CP_PLY_OWNER_CLEARING 2 = 0) := by decide +kernel
def dst (n : Nat) (v : List Nat) : State := { f3 [(.CP_COIL_ADMIN_STATE, 3, 3), (.CP_COIL_ADMIN_DESTROY_BUSY, 3, 1)] with cap := { destroy := [(3, { step := n, vaults := v })] } }
def dstNext (i : Instr) (n m : Nat) : Bool := nextIs i (dst n []) (fun t => t.cap.destroy.map (·.2.step) = [m])
theorem test_destruction_4 : dstNext (.destructionStepEnd 3) 4 5 := by decide +kernel
theorem test_destruction_5 : dstNext (.destructionStepEnd 3) 5 6 := by decide +kernel
theorem test_destruction_7 : dstNext (.destructionStepEnd 3) 7 8 := by decide +kernel
theorem test_destruction_8 : dstNext (.destructionStepEnd 3) 8 9 := by decide +kernel
theorem test_destruction_end : nextIs (.destructionStepEnd 3) (dst 9 []) (fun t => t.fld .CP_COIL_ADMIN_STATE 3 = 0 && t.cap.destroy = []) := by decide +kernel
theorem test_destruction_plies : nextIs (.destructionStepEnd 3) (dst 5 []) (fun t => t.plyCoil 2 = none) := by decide +kernel
theorem test_destruction_vaults : nextIs (.destructionStepEnd 3) (dst 7 []) (fun t => t.vaultCoil 0 = none && t.fld .SP_VAULT_STATUS_STATE 0 = 2) := by decide +kernel

def later : State := { coil3 with clockUs := 86400000000 }
def failed (c : Nat) : State := { later with cores := [(c, { ueAt := [1] })], plies := [(2, { errorAt := some 1 })], vaults := [(5, { faultAt := some 0 })] }
theorem witness_ErrorResets : (failed 64).within24h 1 = true ∧ (failed 64).within24h 0 = false ∧ (failed 64).fences.cores = [] ∧ ((failed 64).ply 2).resetting = false ∧ (failed 64).fencedUnit ⟨.ply, 2⟩ = false ∧ ((ending none).core 64).ending = true := by decide +kernel
def fencedAs (i : Instr) (s : State) (u : UnitRef) (cause : Nat) : Bool := nextIs i s (fun t => t.fencedUnit u && t.fld .CL_CAPACITY_FENCE_GEN 0 = 1 && t.nvm.live.causes.getLast?.map (fun r => (r.unit, r.cause)) = some (u, cause) && t.fld .CL_CAPACITY_CORES 0 = 3072 - t.fences.cores.length)
theorem test_core_errors : nextIs (.coreStateUe 64) coil3 (fun t => (t.core 64).resetting && t.fld .CR_STATUS_PSTATE 64 = 4 && t.fences.cores = []) ∧ fencedAs (.coreStateUe 64) (failed 64) ⟨.core, 64⟩ 2 ∧ nextIs (.terminationWatchdog 64) (ending none) (fun t => (t.core 64).resetting) := by decide +kernel
theorem test_ply_and_vault_errors : nextIs (.plyCacheTagUe 2) coil3 (fun t => (t.ply 2).resetting && t.fences.cores = []) ∧ fencedAs (.plyCacheTagUe 2) (failed 64) ⟨.ply, 2⟩ 5 ∧ nextIs (.tackleInternalFault 2) coil3 (fun t => (t.ply 2).resetting) ∧
    nextIs (.vaultControllerFault 5) (failed 64) (fun t => (t.vault 5).resetting && t.fences.vaults = []) ∧ fencedAs (.vaultControllerFault 0) { later with vaults := [(0, { faultAt := some 1 })] } ⟨.vault, 0⟩ 11 := by decide +kernel
theorem test_pawl : fencedAs (.pawlWatchdog 2) coil3 ⟨.bay, 2⟩ 7 := by decide +kernel
theorem witness_FenceRequests : requestable ⟨.core, 3071⟩ = true ∧ requestable ⟨.core, 3072⟩ = false ∧ coil3.attached 40 = false ∧ coil3.attached 54 = true ∧ coil3.cleatUp = true ∧ (coil3.pawl 5).resetting = false := by decide +kernel
theorem test_fence_request : fencedAs (.fenceRequest ⟨.core, 3071⟩) coil3 ⟨.core, 3071⟩ 12 ∧ nextIs (.fenceRequest ⟨.core, 3072⟩) coil3 (fun t => t.out = [.pldmReply 0x83 []]) ∧ nextIs (.fenceRequest ⟨.router, 54⟩) coil3 (fun t => t.out = [.pldmReply 0x82 []]) ∧
    nextIs (.clFenceReq 0 4 3071) coil3 (fun t => t.fencedUnit ⟨.vault, 3071⟩ && t.fld .CL_FENCE_REQ_STATUS 0 = 0) ∧ nextIs (.clFenceReq 0 4 3072) coil3 (fun t => t.fld .CL_FENCE_REQ_STATUS 0 = 3) ∧ nextIs (.bayReset 96) coil3 (fun t => t.out = [.pldmReply 0x83 []]) ∧
    nextIs (.bayReset 95) coil3 (fun t => (t.pawl 95).resetting && (t.core 3071).resetting) := by decide +kernel
theorem test_reset_ends : nextIs (.coreResetEnd 64) { coil3 with cores := [(64, { resetting := true })] } (fun t => t.cores = [] && t.out = [.notice ⟨.core, 64⟩ true]) ∧ nextIs (.plyResetEnd 2) { coil3 with plies := [(2, { resetting := true })] } (fun t => t.out = [.notice ⟨.ply, 2⟩ true]) ∧
    nextIs (.bayResetEnd 5) { coil3 with pawls := [(5, { resetting := true })] } (fun t => t.out = [.notice ⟨.bay, 5⟩ true]) ∧ nextIs (.vaultResetEnd 5) { coil3 with vaults := [(5, { resetting := true })] } (fun t => t.out = [.notice ⟨.vault, 5⟩ true]) := by decide +kernel

theorem witness_NetLinks : neighbour 17 1 = some 18 ∧ neighbour 95 2 = none ∧ coil3.fences.routers = [] ∧ (coil3.router 17).down = [] ∧ coil3.fld .NT_CTL_BANK 0 ≤ 1 := by decide +kernel
theorem test_link_retries : nextIs (.flitCrcFail 17 1 true) { coil3 with routers := [(17, { retries := [(1, 14)] })] } (fun t => (t.router 17).retries = [(1, 15)] && t.fld .NT_CRC_COUNT_RETRIES 17 = 1 && t.net.step = 0) ∧
    nextIs (.flitCrcFail 17 1 true) { coil3 with routers := [(17, { retries := [(1, 15)] })] } (fun t => (t.router 17).down = [1] && (t.router 18).down = [3] && t.net.step ≠ 0) ∧ nextIs (.netLinkDown 17 2) coil3 (fun t => (t.router 17).down = [2] && (t.router 29).down = [0]) := by decide +kernel
theorem test_route_change : nextIs .netQuiet { coil3 with net := { step := 5 }, routers := [(40, { packets := [{ src := .ply 8 ln, held := true }] })] } (fun t => t.net.step = 0 && t.fld .NT_CTL_BANK 0 = 1 && (t.router 40).packets.map (·.held) = [false]) ∧
    nextIs .routeTablesLoaded { coil3 with net := { step := 3 }, routers := [(17, { down := [1] }), (18, { down := [3] })] } (fun t => t.net.step = 5 && t.fld .NT_CTL_PAUSE 0 = 1 && t.routeEntry 1 17 18 false ≠ 1 && t.routeEntry 0 17 18 false = 1) := by decide +kernel
/-- Core 64 waits for a line of vault 0. -/
def netted : State := { kn with cores := [(64, { (kn.core 64) with accesses := [{ id := 2, op := .amo 0x11 1 0 5, parts := [{ elem := 0, wpa := 64 * ln, size := 4 }] }] })], vaults := [(0, { resetting := true })] }
theorem witness_NetLedgers : netted.ledger 2 = [.core 64 2] ∧ netted.targetOf (.core 64 2) = some ⟨.vault, 0⟩ ∧ netted.unitDown ⟨.vault, 0⟩ = true ∧ netted.covers ⟨.vault, 0⟩ ⟨.vault, 0⟩ = true ∧ netted.covers ⟨.core, 5⟩ ⟨.vault, 0⟩ = false ∧ netted.packet 2 (.core 64 2) = some { src := .core 64 2 } ∧
    kn.unitDown ⟨.vault, 0⟩ = false ∧ kn.packet 2 (.core 64 2) = none ∧ netted.net.step = 0 := by decide +kernel
theorem test_ledgers : nextIs (.fenceNotice 2 ⟨.vault, 0⟩) netted (fun t => (t.core 64).accesses = [] && (t.core 64).fault.map (·.code) = some 3 && t.fld .NT_PROXY_COUNT_FENCED 2 = 1 && (t.router 2).noticed = [⟨.vault, 0⟩]) ∧
    nextIs (.clearingNotice 2 ⟨.vault, 0⟩) { kn with routers := [(2, { noticed := [⟨.vault, 0⟩] })] } (fun t => t.routers = []) ∧ nextIs (.netTimeout 2 (.core 64 2)) { netted with vaults := [] } (fun t => (t.core 64).accesses = [] && t.fld .NT_LEDGER_TIMEOUTS 2 = 1 && t.fencedUnit ⟨.vault, 0⟩) := by decide +kernel
def aged (n : Nat) : State := { netted with routers := [(2, { packets := [{ src := .core 64 2, age := n }] })] }
theorem test_packets : nextIs (.escapeWait 2 (.core 64 2)) netted (fun t => (t.packet 2 (.core 64 2)).map (·.esc) = some true && t.fld .NT_ESC_COUNT_ESCAPES 2 = 1) ∧ nextIs (.ageIncrement 2 (.core 64 2)) (aged 254) (fun t => (t.packet 2 (.core 64 2)).map (·.age) = some 255 && t.fld .NT_AGE_SAT_COUNT_SATURATED 2 = 1) ∧
    nextIs (.ageIncrement 2 (.core 64 2)) (aged 255) (fun t => (t.packet 2 (.core 64 2)).map (·.age) = some 255 && t.fld .NT_AGE_SAT_COUNT_SATURATED 2 = 0) := by decide +kernel

/-! ### Power, core states and heat (chapter 16), the module (chapters 2, 3 and 23) -/

def coilOn0 : State := coilOn {}
def meas : TickMeas := { pMeas := 9000, nonbay := 4000, bays := [] }
/-- Task 0 of coil 3 waits at the pawl of bay 2 with slack for OP0 and more; core 64 is parked in CLKSTOP, OP0. -/
def queuedIn (st : Nat) : State :=
  { flds coil3 [(.CR_STATUS_PSTATE, 64, st), (.CPW_STATUS_PLL, 2, 1), (.CP_PLY_OWNER_COIL, 8, 3), (.CP_PLY_OWNER_VALID, 8, 1)] with
    cap := { tasks := [(0, { coil := 3, state := .queued 2, entry := 0x1000, ticket := { args := [7, 8], opmax := 4 } })], nextTask := 1 }
    pawls := [(2, { left := 2000, target := 4 })] }
theorem witness_PowerAndDispatch : up.module.railsOn = true ∧ up.module.wakeState = .ready ∧ up.cleatUp = true ∧ up.ready = true ∧ (queuedIn 2).pawlUp 2 = true ∧ (queuedIn 2).chooseCore 0 2 = some 64 ∧ (queuedIn 2).payable 0 2 64 = some 4 ∧
    (queuedIn 3).payable 0 2 64 = some 4 ∧ (queuedIn 2).fld .CP_COIL_CTL_PAUSED 3 = 0 ∧ (coilOn0.cap.tasks = [(0, { coil := 3, state := .running 64 })]) ∧ (coilOn0.core 64).changing = none := by decide +kernel
/-- R545: with a cap of 21,500 W the rectifier term is 0.935 × 21,440 = 20,046 W, so E is 20,000 W. -/
theorem test_slack_tick : nextIs (.slackTick meas) up (fun t => t.fld .CP_POWER_E_W 0 = 20000 && t.fld .CP_POWER_ALLOW_W 0 = 9180 && t.fld .CP_TICK_TICKS 0 = 1 && t.fld .CP_BAY_HEADROOM 95 = 1024) := by decide +kernel
theorem test_placement : nextIs (.taskPlacement 0) { (flds coil3 [(.CP_BAY_GIVE, 2, 100), (.CP_PLY_OWNER_COIL, 8, 3), (.CP_PLY_OWNER_VALID, 8, 1), (.CP_PLY_OWNER_VALID, 2, 0)]) with cap := { tasks := [(0, { coil := 3, state := .ready })] } } (fun t => (t.task 0).state = .queued 2) := by decide +kernel
theorem test_dispatch : nextIs (.dispatch 2) (queuedIn 1) (fun t => (t.task 0).state = .running 64 && (t.core 64).pc = 0x1000 && (t.core 64).rg 2 = 8 && t.fld .CR_STATUS_OP 64 = 4 && (t.pawl 2).left = 1300) ∧
    nextIs (.dispatch 2) (queuedIn 3) (fun t => (t.task 0).state = .starting 64 && (t.core 64).waking && (t.pawl 2).left = 1291) := by decide +kernel
theorem test_caps : nextIs (.powerCapVolatile 8000) up (fun t => t.cleat.capVolatile = 8000 && t.fld .CP_POWER_E_W 0 = 7423) ∧ nextIs (.powerCapVolatile 7999) up (fun t => t.cleat.capVolatile = 0 && t.out = [.pldmReply 2 []]) ∧
    nextIs (.powerCapPersistent 21500) up (fun t => t.nvm.live.cap = 21500) ∧ nextIs (.powerCapPersistent 21501) up (fun t => t.nvm.live.cap = 0) := by decide +kernel
/-- The term falls at once and rises by 100 W: 66.3 W × 14 × (82 − 60) − 900 W = 19,520 W for 14 L/min at 60 °C. -/
theorem test_coolant : nextIs (.coolantTermUpdate (some 600) (some 700) (some 140)) { up with power := { up.power with coolant := 20000 } } (fun t => t.power.coolant = 19520) ∧
    nextIs (.coolantTermUpdate (some 400) (some 500) (some 140)) { up with power := { up.power with coolant := 1000 } } (fun t => t.power.coolant = 1100) := by decide +kernel
def braked : State := { flds coilOn0 [(.CR_STATUS_OP, 64, 3)] with power := { coilOn0.power with brake := true } }
theorem test_brake : nextIs .pwrbrakeNAssert (flds coilOn0 [(.CR_STATUS_OP, 64, 3)]) (fun t => t.braked && t.goal 64 = 0 && t.fld .CR_STATUS_OP 64 = 0) ∧ nextIs .pwrbrakeNDeassert braked (fun t => !t.braked) ∧
    nextIs .pumpFaultIn (flds coilOn0 [(.CR_STATUS_OP, 64, 3), (.CL_GPIO_FUNC, 2, 5)]) (fun t => t.power.pump && t.goal 64 = 0) ∧ nextIs .pumpFaultInRelease { up with power := { up.power with pump := true } } (fun t => !t.power.pump) := by decide +kernel

def parked (st : Nat) (x : Core) : State := { flds coil3 [(.CR_STATUS_PSTATE, 64, st), (.CPW_STATUS_PLL, 2, 1), (.CP_PARK_DARK_MS, 0, 10)] with cores := [(64, x)] }
theorem witness_CoreStates : (parked 2 {}).coreIdle 64 = true ∧ (parked 3 {}).pawlUp (bayOfCore 64) = true ∧ (parked 3 {}).fences.cores = [] ∧ ({ parked 4 { waking := true } with cap := { tasks := [(0, { coil := 3, state := .starting 64 })] } } : State).fld .CPW_STATUS_PLL 2 ≠ 0 ∧
    (∀ j, j / 32 = 95 → j < 3072 → 2 < coil3.fld .CR_STATUS_PSTATE j) := by
  refine ⟨by decide +kernel, by decide +kernel, by decide +kernel, by decide +kernel, fun j h _ => ?_⟩
  have : j = 3040 + j % 32 := by omega
  have h' : ∀ k, k < 32 → 2 < coil3.fld .CR_STATUS_PSTATE (3040 + k) := by decide +kernel
  rw [this]; exact h' _ (Nat.mod_lt _ (by decide))
theorem test_park : nextIs (.coreParkRetain 64) (parked 2 { tile := [(0, 5)], l1i := [1] }) (fun t => t.fld .CR_STATUS_PSTATE 64 = 3 && (t.core 64).tile = [(0, 5)] && (t.core 64).l1i = []) ∧
    nextIs (.coreParkDark 64) (parked 3 { tile := [(0, 5)] }) (fun t => t.fld .CR_STATUS_PSTATE 64 = 4 && (t.core 64).tile = []) ∧ nextIs (.coreParkDark 64) (parked 2 {}) (fun t => t.fld .CR_STATUS_PSTATE 64 = 2) := by decide +kernel
theorem test_wake_done : nextIs (.coreWakeDone 64) { parked 4 { waking := true } with cap := { tasks := [(0, { coil := 3, state := .starting 64, entry := 0x1000 })] } } (fun t => (t.task 0).state = .running 64 && t.fld .CR_STATUS_PSTATE 64 = 0 && t.fld .CR_WAKES_FROM_DARK 64 = 1) ∧
    nextIs (.coreWakeDone 64) (flds (parked 4 { waking := true }) [(.CPW_STATUS_PLL, 2, 0)]) (fun t => (t.core 64).waking) := by decide +kernel
theorem test_pll : nextIs (.bayPllStop 95) (flds coil3 [(.CPW_STATUS_PLL, 95, 1)]) (fun t => t.fld .CPW_STATUS_PLL 95 = 0) ∧ nextIs (.bayPllStop 2) (parked 2 {}) (fun t => t.fld .CPW_STATUS_PLL 2 = 1) ∧
    nextIs (.bayPllLock 95) { coil3 with pawls := [(95, { relocking := true })] } (fun t => t.fld .CPW_STATUS_PLL 95 = 1 && !(t.pawl 95).relocking) := by decide +kernel
theorem test_op_change : nextIs (.opChangeDone 64) (parked 0 { changing := some 3 }) (fun t => t.fld .CR_STATUS_OP 64 = 3 && (t.core 64).changing = none) ∧ nextIs (.opChangeDone 64) (parked 0 { changing := some 4, opNext := some 1 }) (fun t => t.fld .CR_STATUS_OP 64 = 1 && (t.core 64).changing = some 1) ∧
    nextIs (.opChangeDone 64) (parked 0 { changing := some 1, opNext := some 4 }) (fun t => t.fld .CR_STATUS_OP 64 = 1 && (t.core 64).changing = some 4) := by decide +kernel
theorem test_patrol : nextIs (.patrolTestStart 64) (parked 3 {}) (fun t => (t.core 64).patrol) ∧ nextIs (.patrolTestDone 64 true) (parked 3 { patrol := true }) (fun t => !(t.core 64).patrol && t.fences.cores = []) ∧ fencedAs (.patrolTestDone 64 false) (parked 3 { patrol := true }) ⟨.core, 64⟩ 4 := by decide +kernel

def hot (l : List Nat) : State := { later with pawls := [(2, { trips := l })], power := { later.power with trips := l } }
theorem witness_HeatAndTrips : up.module.railsOn = true ∧ up.power.invalid.contains 3455 = false ∧ ((hot [1, 2]).pawl 2).tripped = false ∧ (((hot [1, 2]).pawl 2).trips.filter (hot [1, 2]).within24h).length = 2 ∧ (((hot [0, 2]).pawl 2).trips.filter (hot [0, 2]).within24h).length = 1 ∧
    (hot [1, 2]).fencedUnit ⟨.bay, 2⟩ = false ∧ up.module.aoOn = true ∧ up.power.manual = false ∧ up.cleatUp = true ∧ up.module.wakeState ≠ .recovery ∧ up.nvm.writing = none := by decide +kernel
/-- Table 16.7 in eighths of a degree: 97.5 °C is band 2; back past 97.5 − 2 = 95.5 °C. -/
theorem test_bands : nextIs (.thermalBandChange 0 780) up (fun t => t.band 0 = 2) ∧ nextIs (.thermalBandChange 0 779) up (fun t => t.band 0 = 1) ∧ nextIs (.thermalBandChange 0 764) { up with power := { up.power with bands := [(0, 2)] } } (fun t => t.band 0 = 2) ∧
    nextIs (.thermalBandChange 0 763) { up with power := { up.power with bands := [(0, 2)] } } (fun t => t.band 0 = 1) ∧ nextIs (.thermalBandChange 0 840) up (fun t => t.band 0 = 5) := by decide +kernel
theorem test_sensor_fault : nextIs (.sensorFault 3455) up (fun t => t.power.invalid = [3455] && !(t.pawl 95).tripped) ∧ nextIs (.sensorFault 0) { up with power := { up.power with invalid := span 1 35 } } (fun t => (t.pawl 0).tripped) := by decide +kernel
theorem test_bay_trip : nextIs (.bayTrip 2) (hot [0, 2]) (fun t => (t.pawl 2).tripped && (t.pawl 2).trips = [2, 86400000000] && (t.core 64).resetting && t.fences.cores = []) ∧ fencedAs (.bayTrip 2) (hot [1, 2]) ⟨.bay, 2⟩ 8 ∧
    nextIs (.bayTripRecovery 2) { up with pawls := [(2, { tripped := true })] } (fun t => !(t.pawl 2).tripped) ∧ nextIs (.bayTripRecovery 2) { up with pawls := [(2, { tripped := true, limit := true })] } (fun t => (t.pawl 2).tripped) := by decide +kernel
theorem test_wafer_trip : nextIs (.waferTrip 1) (hot [0, 2]) (fun t => t.module.tripped = some 1 && !t.module.railsOn && t.mem = [] && !t.power.manual) ∧ nextIs (.waferTrip 5) (hot [1, 2]) (fun t => t.power.manual) ∧ nextIs (.waferTrip 7) coil3 (fun t => t.power.manual) ∧
    nextIs (.waferTrip 8) up (fun t => t.module.railsOn) := by decide +kernel
theorem test_input : nextIs (.inputRange true) coil3 (fun t => t.module.tripped = some 6 && t.module.inputBad) ∧ nextIs .leakIn (flds coil3 [(.CL_GPIO_FUNC, 0, 2)]) (fun t => t.module.tripped = some 7) ∧ nextIs (.inputLoss true) { up with nvm := { writing := some (5, { cap := 9000 }) } } (fun t => t.nvm.stored.cap = 9000 && !t.module.aoOn) ∧
    nextIs (.inputLoss false) { up with nvm := { writing := some (5, { cap := 9000 }) } } (fun t => t.nvm.stored.cap = 0 && t.nvm.torn = [5]) := by decide +kernel
theorem test_warm_wakes : nextIs .waferTripRecovery { up with module := { up.module with tripped := some 1, railsOn := false } } (fun t => t.module.wakeStep = 4 && t.module.tripped = none) ∧ nextIs .waferReset coil3 (fun t => t.module.wakeStep = 4 && t.module.wakeCount = 1 && t.out = [.pldmReply 0 []]) ∧
    nextIs .waferReset { up with module := { up.module with wakeState := .recovery } } (fun t => t.out = [.pldmReply 4 []]) ∧ nextIs .capstanWatchdog coil3 (fun t => t.module.wakeStep = 4) ∧
    nextIs .capstanWatchdog { later with power := { later.power with capFaults := [1, 2] } } (fun t => t.module.wakeState = .failed && !t.module.railsOn) := by decide +kernel

def waking (n : Nat) : State := { coil3 with module := { aoOn := true, railsOn := true, wakeState := .test, wakeStep := n } }
def image (v : Nat) (ok : Bool) : Image := { version := v, valid := ok }
theorem witness_WakeSequence : (waking 2).module.aoOn = true ∧ (waking 8).mergeMaps.wakeFails = false ∧ { waking 8 with module := { (waking 8).module with step7 := [⟨.central, 0⟩] } }.mergeMaps.wakeFails = true ∧ State.reset.module.aoOn = false ∧
    coil3.portPresent 0 = true ∧ up.cleatUp = true ∧ up.ready = true ∧ (up.port 7).resetting = false ∧ coil3.fld .CL_CAPACITY_BELOW_RATED 0 = 0 := by decide +kernel
def boots (a b : Image) (o : WakeObs) (p : State → Bool) : Bool := nextIs (.wakeStepEnd o) { waking 2 with cleat := { slotA := a, slotB := b, fusedMin := 5 } } p
theorem test_boot : boots (image 5 true) (image 9 true) {} (fun t => t.module.wakeStep = 3 && !t.cleat.booted) ∧ boots (image 4 true) (image 5 true) {} (fun t => t.module.wakeStep = 3 && t.cleat.booted) ∧
    boots (image 5 true) (image 5 true) { imageA := false, imageB := false } (fun t => t.module.wakeState = .recovery && t.cleat.running) := by decide +kernel
theorem test_wake_steps : nextIs (.wakeStepEnd {}) { waking 3 with nvm := { live := { testMode := .once }, torn := [2] } } (fun t => t.module.wakeStep = 4 && t.module.full && t.nvm.torn = []) ∧ nextIs (.wakeStepEnd {}) { waking 5 with module := { (waking 5).module with full := true } } (fun t => t.module.wakeStep = 7) ∧
    nextIs (.wakeStepEnd {}) (waking 5) (fun t => t.module.wakeStep = 6 && (t.port 7).present) ∧ nextIs (.wakeStepEnd { failed := [⟨.vault, 9⟩] }) (waking 7) (fun t => t.module.wakeStep = 8 && t.module.step7 = [⟨.vault, 9⟩]) ∧ nextIs (.wakeStepEnd { links := [(17, 1)] }) (waking 9) (fun t => t.module.wakeStep = 10 && (t.router 17).down = [1]) ∧
    nextIs (.wakeStepEnd {}) (waking 11) (fun t => t.module.wakeStep = 12 && t.mem = []) ∧ nextIs (.wakeStepEnd {}) (waking 14) (fun t => t.module.wakeStep = 14) := by decide +kernel
theorem test_wake_fences : nextIs (.wakeStepEnd {}) { waking 8 with module := { (waking 8).module with step7 := [⟨.vault, 9⟩, ⟨.core, 3071⟩] } } (fun t => t.module.wakeStep = 9 && t.fences.vaults = [9] && t.fences.cores = [3071]) ∧
    nextIs (.wakeStepEnd {}) { waking 8 with module := { (waking 8).module with step7 := [⟨.central, 0⟩] } } (fun t => t.module.wakeState = .failed && !t.module.railsOn) := by decide +kernel
theorem test_wake_ends : nextIs (.wakeStepEnd {}) { waking 13 with nvm := { live := { testMode := .once } } } (fun t => t.module.wakeState = .ready && t.nvm.live.testMode = .quick && t.plate.wanted.word = .live) := by decide +kernel
theorem test_always_on : nextIs .alwaysOnStart { coil3 with module := {}, nvm := { stored := { cap := 9000 } } } (fun t => t.module.aoOn && t.module.wakeStep = 2 && t.nvm.live.cap = 9000 && t.regs = []) ∧ nextIs .aoEnFall coil3 (fun t => !t.module.aoOn && t.plate.shown.word = .safeToRemove) ∧
    nextIs (.testAccessPort false false) coil3 (fun t => t.module.tap = .runTestIdle) ∧ nextIs (.testAccessPort true true) { up with module := { up.module with tap := .shiftDr } } (fun t => t.module.tap = .testLogicReset) := by decide +kernel
theorem test_port_reset : nextIs (.portReset false 7) coil3 (fun t => (t.port 7).resetting && t.out.contains (.pldmReply 0 [])) ∧ nextIs (.portReset false 8) coil3 (fun t => t.out = [.pldmReply 0x83 []]) ∧ nextIs (.portReset true 6) coil3 (fun t => t.out = [.pldmReply 0x83 []]) ∧
    nextIs (.portReset true 5) coil3 (fun t => t.out.contains (.pldmReply 0 [])) := by decide +kernel

/-- The wafer with Cleat as `c`. -/
def cl (c : Cleat) : State := { coil3 with cleat := { c with running := true } }
def plated (p : Plate) (n : NvmObjects) : State := { coil3 with plate := p, nvm := { stored := n } }
def warn : Event := { code := 0x0103, cls := .warning, coil := some 3 }
def counting (n : Nat) : State := { coil3 with log := { coalescing := [{ last := warn, count := n }], second := 1 } }
/-- Coil 3 is at home on port 0 and asks Cleat to verify a file. -/
def verifying : SkeinCheck := { coil := 3, file := 0x8000, base := 0x40000, port := 0 }
theorem witness_CleatServices : up.cleatUp = true ∧ up.ready = true ∧ sameEvent warn { code := 0x0103, kind := .none, unit := 0, coil := some 3 } = true ∧ (counting 2).log.inSecond < 10000 ∧ gpioLegal 0 2 = true ∧ gpioLegal 1 2 = false ∧ gpioLegal 3 6 = true ∧ coil3.fld .CL_GPIO_FUNC 3 = 0 ∧
    coil3.module.controlPort = 0 ∧ coil3.homeOf 3 = some 0 ∧ coil3.fld .CL_SKV_CMD_BUSY 0 = 0 ∧ up.module.inputBad = false ∧ up.plate.step = 0 ∧ (cl {}).cleat.sync ≠ .locked ∧ SMap.get 0 (cl { osfp := [(23, 1)] }).cleat.osfp (4 * 5 + 3) ≠ 0 := by decide +kernel
theorem test_gwyn : nextIs .cleatWatchdog coil3 (fun t => !t.cleat.running) ∧ nextIs .gwynResume { coil3 with cleat := {} } (fun t => t.cleat.running) ∧ nextIs .nvmUpdateDone { coil3 with nvm := { writing := some (5, { cap := 9000 }), torn := [5] } } (fun t => t.nvm.stored.cap = 9000 && t.nvm.torn = []) := by decide +kernel
theorem test_plate : nextIs (.plateUpdateStart [1]) (plated { urgent := true } {}) (fun t => t.plate.step = 1 && t.plate.seq = 1 && t.plate.content.readings = [1]) ∧ nextIs .plateStepDone (plated { step := 1, seq := 2 } { plateBegin := some (2, {}) }) (fun t => t.plate.step = 2 && t.plate.hatch) ∧
    nextIs .plateStepDone (plated { step := 1, seq := 2 } {}) (fun t => t.plate.step = 1) ∧ nextIs .plateStepDone (plated { step := 3, content := { word := .tripped } } {}) (fun t => t.plate.step = 4 && t.plate.shown.word = .tripped) ∧
    nextIs .plateStepDone (plated { step := 4, seq := 2, hatch := true } {}) (fun t => t.plate.step = 5 && !t.plate.hatch && t.nvm.live.plateEnd = 2) ∧ nextIs .plateStepDone (plated { step := 5, seq := 2 } { plateEnd := 2 }) (fun t => t.plate.step = 0) ∧
    nextIs .plateRedraw coil3 (fun t => t.plate.whole) := by decide +kernel
theorem test_event_timers : nextIs (.coalesceExpiry 0x0103 ⟨.none, 0⟩ (some 3)) (counting 0) (fun t => t.log.coalescing = [] && t.log.ring = []) ∧ nextIs (.coalesceExpiry 0x0103 ⟨.none, 0⟩ (some 3)) (counting 2) (fun t => t.log.ring.map (·.ev.count) = [2]) ∧
    nextIs (.eventVectorHoldoff 7) { coil3 with log := { holdoff := [(7, true)], due := [(7, true)] } } (fun t => t.log.holdoff = [] && t.log.due = []) ∧
    nextIs (.eventPop 0) { coil3 with log := { ring := [{ ev := warn, home := some 0 }], next := 1 } } (fun t => t.readPos 0 = 1) := by decide +kernel
theorem test_gpio : nextIs (.clGpioWrite 0 3 6 true) coil3 (fun t => t.fld .CL_GPIO_FUNC 3 = 6 && t.fld .CL_GPIO_OUT 3 = 1) ∧ nextIs (.clGpioWrite 0 2 4 true) (flds coil3 [(.CL_GPIO_FUNC, 2, 5)]) (fun t => t.fld .CL_GPIO_FUNC 2 = 5 && t.fld .CL_GPIO_STATUS 2 = 1) ∧
    nextIs (.clGpioWrite 0 3 0 false) (flds coil3 [(.CL_GPIO_FUNC, 3, 6), (.CL_GPIO_VIA, 3, 1)]) (fun t => t.fld .CL_GPIO_FUNC 3 = 0) ∧ nextIs (.gpioClaim 2 5 true) coil3 (fun t => t.fld .CL_GPIO_FUNC 2 = 5 && t.nvm.live.gpio = [(2, 5)]) ∧
    nextIs (.gpioClaim 2 5 true) (flds coil3 [(.CL_GPIO_FUNC, 2, 4)]) (fun t => t.out = [.pldmReply 0x80 []]) ∧ nextIs (.gpioClaim 2 6 true) coil3 (fun t => t.out = [.pldmReply 2 []]) := by decide +kernel
theorem test_time : nextIs (.tsyncEdge 100000) (cl { accepted := 2 }) (fun t => t.cleat.accepted = 3 && t.cleat.sync = .free) ∧ nextIs (.tsyncEdge (-100000)) { cl { accepted := 3 } with regs := (flds coil3 [(.CL_TIME_UTC_NS, 0, 2600000000)]).regs } (fun t => t.cleat.sync = .locked && t.fld .CL_TIME_UTC_NS 0 = 3000000000) ∧
    nextIs (.tsyncEdge 100001) (cl { sync := .locked, missed := 7, accepted := 4 }) (fun t => t.cleat.sync = .holdover && t.fld .CL_TIME_STATUS_REJECTED 0 = 1) ∧ nextIs .tsyncEdgeMissed (cl { sync := .locked, sawEdge := true, missed := 6 }) (fun t => t.cleat.sync = .locked && t.cleat.missed = 7) ∧
    nextIs (.setTime 77) (cl {}) (fun t => t.fld .CL_TIME_UTC_NS 0 = 77) ∧ nextIs (.setTime 77) (cl { sync := .locked }) (fun t => t.cleat.pendingTime = some 77 && t.fld .CL_TIME_UTC_NS 0 = 0) := by decide +kernel
theorem test_locate_and_cages : nextIs (.locateN true) coil3 (fun t => t.outputs.locate) ∧ nextIs (.locate true 65535) coil3 (fun t => t.cleat.locate && t.cleat.locateTimed) ∧ nextIs (.locate true 65536) coil3 (fun t => !t.cleat.locate) ∧
    nextIs .locateTimeout (cl { locate := true, locateTimed := true }) (fun t => !t.cleat.locate) ∧ nextIs (.osfpInsert 5 3) (flds coil3 [(.BD_CTL_ENABLE, 5, 1)]) (fun t => t.cleat.osfp = [(23, 2)]) ∧ nextIs (.osfpFault 5 3) (cl { osfp := [(23, 1)] }) (fun t => t.cleat.osfp = [(23, 3)]) := by decide +kernel
theorem test_skein_verify : nextIs (.skeinVerify 0 3) (flds coil3 [(.CL_SKV_FILE_DVA, 0, 0x8000), (.CL_SKV_BASE_LOAD_BASE, 0, 0x40000)]) (fun t => t.fld .CL_SKV_CMD_BUSY 0 = 1 && t.cleat.skv = some verifying) ∧ nextIs (.skeinVerify 0 3) (flds coil3 [(.CL_SKV_CMD_BUSY, 0, 1)]) (fun t => t.fld .CL_SKV_CMD_STATUS 0 = 1) ∧
    nextIs (.skeinVerifyDone 0 4096) (cl { skv := some verifying }) (fun t => t.cleat.skv = none && t.cleat.verified = [⟨3, 0x40000, 4096⟩]) ∧ nextIs (.skeinVerifyDone 0 4096) (cl { skv := some { verifying with lapsed := true } }) (fun t => t.fld .CL_SKV_CMD_STATUS 0 = 5 && t.cleat.verified = []) := by decide +kernel

def imgs (c : Cleat) : State := cl { c with slotA := image 3 true, slotB := image 4 true }
theorem witness_ManagementCommands : (cl {}).cleatUp = true ∧ (cl {}).ready = true ∧ (waking 4).ready = false ∧ { waking 4 with cleat := { running := true } }.cleatUp = true ∧ (unitsMap [⟨.core, 5⟩]).cores = [5] := by decide +kernel
theorem test_pldm : nextIs (.selfTestMode 2) { waking 4 with cleat := { running := true } } (fun t => t.out = [.pldmReply 4 []]) ∧ nextIs (.setEndpointId 254) (cl {}) (fun t => t.cleat.eid = 254) ∧ nextIs (.setEndpointId 255) (cl {}) (fun t => t.cleat.eid = 0) ∧
    nextIs (.selfTestMode 2) (cl {}) (fun t => t.nvm.live.testMode = .always) ∧ nextIs (.selfTestMode 3) (cl {}) (fun t => t.out = [.pldmReply 2 []]) ∧ nextIs (.controlPort 7) (cl {}) (fun t => t.nvm.live.controlPort = 7) ∧ nextIs (.controlPort 8) (cl {}) (fun t => t.out = [.pldmReply 0x83 []]) ∧
    nextIs (.bendSettings 5 7 [9]) (cl {}) (fun t => t.nvm.live.bend = [(5, { ctl := 7, routes := [9] })]) ∧ nextIs (.eventConfig 3) (cl {}) (fun t => t.out = [.pldmReply 0x83 []]) ∧ nextIs (.eventConfig 2) (cl {}) (fun t => t.cleat.pldmThreshold = 2) ∧
    nextIs (.getNumericEffecterValue 0x1001) (cl { capVolatile := 8000 }) (fun t => t.out = [.pldmReply 0 [8000]]) ∧ nextIs (.getSensorReading 9 0) (cl {}) (fun t => t.out = [.pldmReply 0 [0, 21500]]) := by decide +kernel
def journaled : State := { cl {} with nvm := { live := { fences := { cores := [5, 6] }, plog := [{ entry := { ev := { wake := 1, index := 9 } } }] } }, log := { ring := [{ ev := warn }], next := 1 } }
theorem test_maps : nextIs (.stopperClear true [⟨.core, 5⟩]) journaled (fun t => t.nvm.live.fences.cores = [6] && t.nvm.live.testMode ≠ .quick) ∧ nextIs (.stopperClear false [⟨.core, 5⟩]) journaled (fun t => t.out = [.pldmReply 0x85 []]) ∧ nextIs (.stopperClear true [⟨.core, 5⟩]) { journaled with cleat := { running := true, factory := { cores := [5] } } } (fun t => t.out = [.pldmReply 0x86 []]) ∧
    nextIs (.mapRead 1) journaled (fun t => t.out = [.pldmReply 0 [], .maps { cores := [5, 6] } []]) ∧ nextIs (.eventRead false 0 1) journaled (fun t => t.out = [.pldmReply 0 [], .events [warn]]) ∧ nextIs (.eventRead false 1 1) journaled (fun t => t.out = [.pldmReply 0x83 []]) ∧
    nextIs (.eventAck 1 9) journaled (fun t => t.nvm.live.plog.all (·.acked.isSome)) ∧ nextIs (.eventAck 1 8) journaled (fun t => t.out = [.pldmReply 0x83 []]) := by decide +kernel
theorem witness_ImagesAndSpdm : (imgs {}).cleat.fusedMin < 3 ∧ (imgs {}).cleat.raises < 63 ∧ (imgs {}).cleat.trial = false ∧ (imgs {}).cleat.phase = .idle ∧ (imgs {}).measurement 1 ≠ none ∧ (imgs {}).cleat.sessions.length < 4 ∧ 24 * 2 ^ 20 ≤ 24 * 2 ^ 20 := by decide +kernel
theorem test_update : nextIs .requestUpdate (imgs {}) (fun t => t.cleat.phase = .requested) ∧ nextIs (.passComponentTable 1) (imgs {}) (fun t => t.out = [.pldmReply 0x80 []]) ∧ nextIs (.passComponentTable 1) (imgs { phase := .requested }) (fun t => t.cleat.phase = .tablePassed) ∧
    nextIs (.updateComponent 1) (imgs { phase := .tablePassed }) (fun t => t.cleat.phase = .receiving && t.cleat.target) ∧ nextIs (.firmwareDataReceived 8 true true 5) (imgs { phase := .receiving, target := true }) (fun t => t.cleat.phase = .verified && t.cleat.slotB = image 5 true) ∧
    nextIs (.firmwareDataReceived 8 true false 5) (imgs { phase := .receiving, target := true }) (fun t => t.cleat.phase = .idle && !t.cleat.slotB.valid && t.cleat.slotA = image 3 true) ∧ nextIs .activateFirmware (imgs { phase := .verified }) (fun t => !t.cleat.running && t.cleat.trial) := by decide +kernel
theorem test_trial : nextIs .fwCommit (imgs { trial := true }) (fun t => t.cleat.booted && !t.cleat.trial && !t.cleat.slotA.valid) ∧ nextIs .fwRollback (imgs { trial := true }) (fun t => !t.cleat.trial && !t.cleat.running) ∧ nextIs .trialTimeout (imgs { trial := true }) (fun t => t.cleat.booted) ∧
    nextIs .imageCopyDone (imgs { copying := true, booted := true }) (fun t => t.cleat.slotA = image 4 true) ∧ nextIs (.fuseMinVersion 3) (imgs {}) (fun t => t.cleat.fusedMin = 3 && t.cleat.raises = 1) ∧ nextIs (.fuseMinVersion 4) (imgs {}) (fun t => t.cleat.fusedMin = 0 && t.out = [.pldmReply 0x83 []]) := by decide +kernel
theorem test_spdm : nextIs .keyExchange (imgs { sessions := [1, 2, 3], nextSession := 9 }) (fun t => t.cleat.sessions = [1, 2, 3, 9]) ∧ nextIs .keyExchange (imgs { sessions := [1, 2, 3, 4] }) (fun t => t.out = [.spdmReply false []]) ∧ nextIs (.keyUpdate 2) (imgs { sessions := [2] }) (fun t => t.cleat.keyGen = [(2, 1)]) ∧
    nextIs (.heartbeat 2) (imgs {}) (fun t => t.out = [.spdmReply false [2]]) ∧ nextIs (.getCertificate 1) (imgs {}) (fun t => t.out = [.spdmReply false []]) := by decide +kernel

/-! ### Register accesses (chapters 4 and 24) -/

/-- Port 0 serves requests: its link is ready. VF 1 of port 0 is bound to coil 3, and VFs are on. -/
def reg (l : List (Fld × Nat × Nat)) : State :=
  let s := f3 ([(.HT_LINK_STATUS_READY, 0, 1), (.HT_VF_BIND_VALID, 0, 1), (.HT_VF_BIND_COIL, 0, 3), (.HT_LINK_STATUS_READY, 1, 1)] ++ l)
  { s with ports := [(0, { present := true, released := true, linkUp := true }), (1, { present := true, released := true, linkUp := true })] }
def inRig (s : State) : State := { s with cores := [(64, { rig := true })] }
theorem witness_RegisterReads : (reg []).gate 0 0 false = .open' ∧ (reg []).visible 0 0 = true ∧ pfPlace 0 95 0x10 = .space 0x2000010 ∧ regAt 0x2000010 = some (.HT_BAY_WINDOW, 0) ∧ (reg []).spaceDown 0x2000010 = false ∧ (reg []).cleatCut = false ∧
    pfPlace 0 95 0x2FFFFF8 = .space 0x6FFFFFF8 ∧ pfPlace 0 95 0x108008 = .void ∧ vfPlace 3 0x18 = .space (cpOff 3 0x18) ∧ vfPlace 3 0x4000 = .void := by decide +kernel
/-- `i` sends the message alone. -/
def tells (i : Instr) (s : State) (m : Out) : Bool := nextIs i s (fun t => t.out = [m])
theorem test_register_reads : tells (.rcRead (.pf 0) 0x10 8) (reg [(.HT_BAY_WINDOW_BAY, 0, 95)]) (.ioReply 0 0 95 false) ∧ tells (.rcRead (.pf 0) 0x14 4) (reg [(.HT_BAY_WINDOW_BAY, 0, 95)]) (.ioReply 0 0 0 false) ∧ tells (.rcRead (.pf 0) 0x10 2) (reg []) (.ioReply 0 1 0 false) ∧
    tells (.rcRead (.pf 0) 0x108008 8) (reg []) (.ioReply 0 0 0 false) ∧ tells (.rcRead (.vf 0 2) 0 8) (reg []) (.ioReply 0 1 0 false) ∧ nextIs (.rcRead (.pf 2) 0x10 8) (reg []) (fun t => t.out = []) ∧
    nextIs (.rcRead (.pf 0) 0x10 8) (reg [(.HT_HOLD_STATUS_HOLD, 0, 1)]) (fun t => t.fld .HT_HOLD_COUNT_NP_UR 0 = 1) ∧ tells (.rcRead (.table 0) 1 2) { reg [] with module := { (reg []).module with rigTable := [1, 2, 3] } } (.ioReply 0 0 0x302 false) ∧
    nextIs (.rcRead (.rig 64) 0x2000010 8) (inRig (reg [(.HT_BAY_WINDOW_BAY, 0, 95)])) (fun t => t.out = [.regData 95]) ∧ nextIs (.rcRead .cleat 0x6000000 8) (reg []) (fun t => t.out ≠ []) := by decide +kernel
theorem witness_RegisterWrites : regAt 0x1000018 = some (.CP_PARK, 0) ∧ pfPlace 0 0 0x400018 = .space 0x1000018 ∧ (inRig (reg [])).module.controlPort = 0 ∧ reservedCode (reg []) .HT_BAY_WINDOW_BAY 0 96 = true ∧ reservedCode (reg []) .HT_BAY_WINDOW_BAY 0 95 = false ∧
    regAt 0x6000000 = some (.NT_CTL, 0) := by decide +kernel
theorem test_register_writes : nextIs (.registerWrite (.pf 0) 0x10 8 95) (reg []) (fun t => t.fld .HT_BAY_WINDOW_BAY 0 = 95) ∧ nextIs (.registerWrite (.pf 0) 0x10 8 96) (reg []) (fun t => t.fld .HT_BAY_WINDOW_BAY 0 = 0) ∧ nextIs (.registerWrite (.pf 0) 0x10 2 95) (reg []) (fun t => t.fld .HT_BAY_WINDOW_BAY 0 = 0) ∧
    nextIs (.registerWrite (.pf 1) 0x400018 8 0) (reg []) (fun t => t.out.contains .regDenied && t.fld .CP_PARK_CLK_US 0 = 50) ∧ nextIs (.registerWrite (.pf 0) 0x400018 8 0) (reg []) (fun t => t.fld .CP_PARK_CLK_US 0 = 0) ∧
    nextIs (.registerWrite (.rig 64) 0x1000018 8 0) (inRig (reg [])) (fun t => t.out.contains .regDenied && t.log.ring.map (·.ev.code) = [0x0702]) ∧ nextIs (.registerWrite .cleat 0x6000000 8 1) (reg []) (fun t => t.fld .NT_CTL_BANK 0 = 1) := by decide +kernel
/-- The virtual functions of port 0 are on. -/
def vfs (l : List (Fld × Nat × Nat)) : State := { reg l with ports := [(0, { present := true, released := true, linkUp := true, cfg := [(CfgField.vfEnable.ctorIdx, 1)] })] }
theorem test_vf_access : tells (.rcRead (.vf 0 1) 0x3F8 8) (vfs []) (.ioReply 0 0 0 false) ∧ nextIs (.registerWrite (.vf 0 1) 0x8 8 7) (vfs []) (fun t => t.out.contains .regDenied || t.out = []) ∧ nextIs (.registerWrite (.vf 0 1) 0x0 8 7) (vfs []) (fun t => !t.out.contains .regDenied) := by decide +kernel
theorem witness_ReservedOffsets : regAt 0x30 = none ∧ pfPlace 0 0 0x200030 = .space 0x30 ∧ (reg []).spaceDown 0x30 = false ∧ (vfs []).gate 0 1 false = .open' ∧ (vfs []).fld .HT_VF_BIND_VALID 0 = 1 ∧ regAt (cpOff 3 0x3F8) = none ∧ vfPlace 3 0x3F8 = .space (cpOff 3 0x3F8) ∧ (reg []).cleatCut = false := by decide +kernel
theorem test_reserved : tells (.rcRead (.pf 0) 0x200030 8) (reg []) (.ioReply 0 0 0 false) ∧ nextIs (.registerWrite (.pf 1) 0x200030 8 7) (reg []) (fun t => t.out = [] && t.log.ring = [] && t.regs = (reg []).regs) ∧ nextIs (.registerWrite (.rig 64) 0x30 8 7) (inRig (reg [])) (fun t => t.out = [] && t.log.ring = []) := by decide +kernel

/-! ### Bend (chapter 20) -/

/-- Bend port 5 of wafer 3, system 9, in state `st`, with `x` beyond its registers; coil 3's DVA fathom 0 lies behind splice entry 7 for coil 9 of wafer 16. -/
def bend (st : Nat) (x : BendPort) (l : List (Fld × Nat × Nat)) : State :=
  { f3 ([(.BD_STATUS_STATE, 5, st), (.BD_CTL_ENABLE, 5, 1), (.BD_CTL_WAFER_ID, 5, 3), (.BD_CTL_SYSTEM_ID, 5, 9), (.BD_SPLICE_A_VALID, 1287, 1), (.BD_SPLICE_A_COIL, 1287, 3), (.BD_SPLICE_A_R, 1287, 1),
      (.BD_SPLICE_A_W, 1287, 1), (.BD_SPLICE_A_SRC_WAFER, 1287, 16), (.BD_SPLICE_A_SRC_COIL, 1287, 9), (.BD_SPLICE_B_WORD, 1287, 2 ^ 24), (.BD_ROUTE_PORT, 336, 5), (.BD_ROUTE_VALID, 336, 1)] ++ l) with
    bends := [(5, { x with present := true })] }
/-- A flit of type `ty` as R670 and R671 spell it. -/
def flit (ty seq payload : Nat) : BitVec 2048 :=
  let body := flitHeader ty seq 0 false 0 0 + payload * 2 ^ 64
  BitVec.ofNat 2048 (body + flitCrc body * 2 ^ 1984)
theorem witness_BendLinks : ((bend 3 {} []).module.railsOn = true ∧ (bend 3 {} []).module.controlPort = 0) ∧ (bend 1 {} []).mayTrain 5 = true ∧ (bend 3 {} []).fld .BD_CTL_ENABLE 5 ≠ 0 ∧ widthOf 0xFFFFFFFF 0 = (3, 15) ∧ widthOf 0xFFFF00FF 1 = (2, 12) ∧ widthOf 0xFF000000 0 = (1, 8) ∧ widthOf 0x7F7F7F7F 0 = (0, 0) ∧
    (bend 1 {} []).bends = [(5, { present := true })] := ⟨⟨by decide, by decide⟩, by decide +kernel, by decide +kernel, by decide, by decide, by decide, by decide, rfl⟩
theorem test_bend_enable : nextIs (.bendEnable 0 5) (bend 0 {} [(.BD_CTL_ENABLE, 5, 0)]) (fun t => t.fld .BD_CTL_ENABLE 5 = 1 && t.fld .BD_STATUS_STATE 5 = 1 && (t.bend 5).step = 1) ∧
    nextIs (.bendEnable 0 5) (bend 0 {} [(.BD_CTL_ENABLE, 5, 0), (.BD_CTL_ENABLE, 0, 1)]) (fun t => t.fld .BD_CTL_STATUS 5 = 2 && t.fld .BD_CTL_ENABLE 5 = 0) ∧ nextIs (.bendDisable 0 5) (bend 0 {} []) (fun t => t.fld .BD_CTL_ENABLE 5 = 0) ∧
    nextIs (.retrain 0 5) (bend 3 {} []) (fun t => t.fld .BD_STATUS_STATE 5 = 4) ∧ nextIs (.retrain 0 5) (bend 3 { recoveries := [0, 0] } []) (fun t => t.fld .BD_STATUS_STATE 5 = 1 && (t.bend 5).step = 1) := by decide +kernel
def trained (n : Nat) (i : Instr) (l : List (Fld × Nat × Nat)) (p : State → Bool) : Bool := nextIs i (bend 1 { step := n } l) p
theorem test_training : trained 1 (.trainingStepEnd 5 {}) [] (fun t => (t.bend 5).step = 2) ∧ trained 2 (.trainingStepEnd 5 { peerSystem := 9, peerWafer := 16, lanes := 0xFFFF }) [] (fun t => (t.bend 5).step = 3 && (t.bend 5).seen = some (9, 16, 0) && t.fld .BD_STATUS_LANES 5 = 0xFFFF) ∧
    trained 2 (.trainingStepEnd 5 { peerSystem := 9, peerWafer := 3 }) [] (fun t => (t.bend 5).step = 0 && (t.bend 5).fails = 1) ∧ trained 3 (.trainingStepEnd 5 {}) [(.BD_STATUS_LANES, 5, 0xFFFF)] (fun t => t.fld .BD_STATUS_WIDTH 5 = 2 && t.fld .BD_STATUS_CAGES 5 = 3) ∧ trained 3 (.trainingStepEnd 5 {}) [] (fun t => (t.bend 5).fails = 1) ∧
    nextIs (.trainingStepEnd 5 { ok := false }) (bend 1 { step := 4, fails := 2 } []) (fun t => t.fld .BD_STATUS_STATE 5 = 5) ∧ nextIs (.trainingRetry 5) (bend 5 {} []) (fun t => t.fld .BD_STATUS_STATE 5 = 1) := by decide +kernel
theorem test_init : nextIs (.init 5 16 9 1 [10, 11]) (bend 2 { step := 6, seen := some (9, 16, 1), gotAck := true } []) (fun t => t.fld .BD_STATUS_STATE 5 = 3 && t.fld .BD_STATUS_PEER_WAFER 5 = 16 && SMap.get 0 (t.bend 5).peerInit 1 = 11) ∧
    nextIs (.init 5 17 9 1 []) (bend 2 { step := 6, seen := some (9, 16, 1) } []) (fun t => (t.bend 5).fails = 1) ∧ nextIs (.initAck 5) (bend 2 { step := 6, gotInit := true } []) (fun t => t.fld .BD_STATUS_STATE 5 = 3) ∧ nextIs (.down 5) (bend 3 {} []) (fun t => t.fld .BD_STATUS_STATE 5 = 1) ∧
    nextIs (.lossOfSignal 5) (bend 1 {} []) (fun t => t.fld .BD_STATUS_STATE 5 = 1 && (t.bend 5).step = 0) ∧ nextIs (.recoveryEnd 5 true 0xFFFF) (bend 4 {} [(.BD_STATUS_WIDTH, 5, 3)]) (fun t => t.fld .BD_STATUS_STATE 5 = 3 && t.fld .BD_STATUS_WIDTH 5 = 2) := by decide +kernel
theorem test_init_resend : nextIs (.initResend 5) (bend 2 {} []) (fun t => t.out = [.flit 5 (flit 2 0 (initPayload 3 9 5))]) := by decide +kernel
/-- The header of a WR of 128 B, as 20_bend.md spells it. -/
theorem test_packet_words : ({ opc := 2, dst := 16, src := 3, dstPort := 5, dl := true, tag := 0x1A, entry := 7, hops := 15, coil := 9, off := 0x01234000, len := 128 } : BPkt).word0 = 0x0090F0701A450D02 ∧
    ({ opc := 2, dst := 16, src := 3, dstPort := 5, dl := true, tag := 0x1A, entry := 7, hops := 15, coil := 9, off := 0x01234000, len := 128 } : BPkt).word1 = 0x00007F0001234000 := by decide +kernel
/-- A response in one cell, from wafer 16 to port 5 of wafer 3. -/
def cmpPkt (st : Nat) : BPkt := { opc := 9, dst := 3, src := 16, retPort := 5, tag := 0x1A, status := st, hops := 15 }
theorem witness_BendFlits : (bend 3 {} []).fld .BD_STATUS_STATE 5 = 3 ∧ (cmpPkt 0).cells = 1 ∧ pktOf ((cmpPkt 0).image % 2 ^ 128) = some (cmpPkt 0) ∧ (bend 3 { replay := [(6, 0), (7, 9), (8, 4)] } []).bends ≠ [] ∧ (SMap.get 0 ({} : BendPort).recv 2 + 1) % 65536 ≤ vcCells 2 := by decide +kernel
theorem test_flit_uncorrectable : nextIs (.flitReceived 5 0 0 true) (bend 3 {} []) (fun t => t.fld .BD_ERR_FEC_UNCORR 5 = 1 && (t.bend 5).rxSeq = 0 && (t.bend 5).nakSent && t.out.length = 1) := by decide +kernel
theorem test_replays : nextIs (.nak 5 7) (bend 3 { replay := [(6, 0), (7, 9)] } []) (fun t => (t.bend 5).replay = [(7, 9)] && (t.bend 5).replayRun = 1 && t.out.length = 1) ∧ nextIs (.nak 5 5) (bend 3 { replay := [(6, 0)] } []) (fun t => (t.bend 5).replay = [(6, 0)] && t.out = []) ∧
    nextIs (.replayTimeout 5) (bend 3 { replay := [(6, 0)], replayRun := 7 } []) (fun t => (t.bend 5).replayRun = 8) ∧ nextIs (.replayTimeout 5) (bend 3 { replay := [(6, 0)], replayRun := 8 } []) (fun t => t.fld .BD_STATUS_STATE 5 = 4 && t.out = []) ∧
    nextIs (.ackTimer 5) (bend 3 { ackDue := 3 } []) (fun t => (t.bend 5).ackDue = 0 && t.out.length = 1) := by decide +kernel

/-- A request of coil 9 of wafer 16 to entry 7 of port 5. -/
def remoteReq (opc : Nat) (len data : Nat) : BPkt := { opc := opc, dst := 3, src := 16, dstPort := 5, retPort := 1, tag := 0x1A, entry := 7, hops := 15, coil := 9, len := len, data := data, arr := some (5, 0) }
/-- DVA 0 of coil 3 is 0x2000000 of Spool. -/
def asked (p : BPkt) (l : List (Fld × Nat × Nat)) : State := (bend 4 { arrived := [p] } l).store 0x2000000 8 0x1122334455667788
def outIs (f : BPkt → Bool) (t : State) : Bool := (t.bend 5).arrived = [] && (t.bend 5).outq.length = 1 && (t.bend 5).outq.all f
theorem witness_RemoteRequests : (asked (remoteReq 1 8 0) []).memPieces 5 (remoteReq 1 8 0) .read 8 0 = some [{ wpa := 0x2000000, n := 8 }] ∧ (asked (remoteReq 1 8 0) []).quietLine (0x2000000 / 64) = true ∧ (asked (remoteReq 1 8 0) []).vaultCheck 0 (some 3) none = spOk ∧
    (asked (remoteReq 1 8 0) []).arrivedReq 5 1 = some (remoteReq 1 8 0) ∧ (asked (remoteReq 1 8 0) [(.BD_SPLICE_A_R, 1287, 0)]).memPieces 5 (remoteReq 1 8 0) .read 8 0 = none ∧ (asked (remoteReq 1 8 0) []).bendUp 5 = true := by decide +kernel
theorem test_remote : nextIs (.rd 5 {}) (asked (remoteReq 1 8 0) []) (outIs (fun p => p.opc = 8 && p.status = 0 && p.data = 0x1122334455667788 && p.dst = 16 && p.tag = 0x1A && p.retPort = 1)) ∧ nextIs (.rd 5 {}) (asked (remoteReq 1 8 0) [(.BD_SPLICE_A_R, 1287, 0)]) (outIs (fun p => p.status = 2)) ∧
    nextIs (.wr 5) (asked (remoteReq 2 8 5) []) (fun t => outIs (fun p => p.opc = 9 && p.status = 0) t && (t.bend 5).pend.length = 1 && t.load 0x2000000 8 = 0x1122334455667788) := by decide +kernel
theorem test_bend_atomic : nextIs (.bendAtom 5) (asked { remoteReq 3 0 7 with asz := 3, atop := 1 } []) (fun t => outIs (fun p => p.opc = 10 && p.data = 0x1122334455667788) t && t.load 0x2000000 8 = 0x112233445566778F) := by decide +kernel
def fencing : State := { asked (remoteReq 4 0 0) [] with bends := [(5, { present := true, arrived := [remoteReq 4 0 0], pend := [{ entry := 7, coil := 3, pieces := [{ wpa := 0x2000000, n := 8, value := 5 }] }] })] }
theorem test_remote_fence : nextIs (.wfence 5) fencing (fun t => outIs (fun p => p.opc = 9 && p.status = 0) t && t.load 0x2000000 8 = 5 && (t.bend 5).pend = []) := by decide +kernel
def bendTag : BTag := { tag := 0x1A, opc := 1, dst := 16, len := 8, req := { src := .core 64 1, op := .read, size := 8, coil := 3 } }
/-- Core 64 waits for a load through a window of port 5. -/
def loading (opc st : Nat) (g : BTag) : State :=
  { bend 4 { arrived := [{ cmpPkt st with opc := opc, len := 8, data := 77 }], tags := [g] } [] with cores := [(64, { running := true, coil := some 3, task := some 0, accesses := [{ id := 1, op := .load (.g 5 8 false), parts := [{ elem := 0, wpa := 0, size := 8 }] }] })] }
theorem witness_RemoteResponses : ((loading 8 0 bendTag).bend 5).tags = [bendTag] ∧ (((loading 8 0 bendTag).bend 5).arrived.find? (fun z => z.opc = 8)).isSome = true ∧ answerOf 1 = 8 ∧ answerOf 3 = 10 ∧ answerOf 4 = 9 ∧ ((loading 8 0 bendTag).core 64).ending = false := by decide +kernel
theorem test_bend_responses : nextIs (.rdData 5) (loading 8 0 bendTag) (fun t => (t.bend 5).tags = [] && ((t.core 64).rg 5) = 77 && (t.core 64).accesses = []) ∧ nextIs (.rdData 5) (loading 8 2 bendTag) (fun t => (t.core 64).fault.map (·.code) = some fcPerm) ∧
    nextIs (.rdData 5) (loading 8 0 { bendTag with tag := 0x1B }) (fun t => (t.bend 5).arrived = [] && (t.bend 5).tags.length = 1) ∧ nextIs (.cmp 5) (loading 9 1 { bendTag with opc := 2, req := { src := .cleat, op := .write, core := some 64 } }) (fun t => (t.bend 5).lost = [(64, 0, 1)]) ∧
    nextIs (.atomData 5) (loading 10 0 { bendTag with opc := 3 }) (fun t => ((t.core 64).rg 5) = 77) ∧ nextIs (.bendRequestTimeout 5 0x1A) (loading 8 0 bendTag) (fun t => t.fld .BD_ERR_TIMEOUTS 5 = 1 && (t.core 64).fault.map (·.code) = some fcFenced) := by decide +kernel

def win (l : List (Fld × Nat × Nat)) : State := bend 3 {} l
def winStatus (i : Instr) (l : List (Fld × Nat × Nat)) (n : Nat) : Bool := nextIs i (win l) (fun t => t.fld .BD_WIN_STATUS 1535 = n)
def spStatus (i : Instr) (l : List (Fld × Nat × Nat)) (n : Nat) : Bool := nextIs i (win l) (fun t => t.fld .BD_SPLICE_A_STATUS 1535 = n)
theorem witness_SpliceWindows : ((win []).module.railsOn = true ∧ 3 < 32 ∧ (win []).homeOf 3 = some 0) ∧ (win []).fld .CP_COIL_ADMIN_STATE 3 = 1 ∧ (win [(.BD_SPLICE_B_WORD, 1535, 4 * 2 ^ 36)]).fld .BD_SPLICE_B_WORD 1535 = 4 * 2 ^ 36 ∧ spLog2 (4 * 2 ^ 36) = 4 ∧ spFathoms (65536 * 2 ^ 24) = 65536 ∧ spKnotCount (2 ^ 40) = 2 ^ 20 := ⟨⟨by decide, by decide, by decide +kernel⟩, by decide +kernel, by decide +kernel, by decide, by decide, by decide⟩
theorem test_window_open : nextIs (.windowOpen 0 5 255 3 63 5 255 1 65536) (win []) (fun t => t.fld .BD_WIN_OPEN 1535 = 1 && t.fld .BD_WIN_FATHOMS 1535 = 65536 && t.fld .BD_WIN_ENTRY 1535 = 255) ∧ winStatus (.windowOpen 0 5 255 3 16 0 7 0 0) [] 1 ∧ winStatus (.windowOpen 0 5 255 3 16 0 7 0 65537) [] 2 ∧
    winStatus (.windowOpen 0 5 255 3 3 0 7 0 1) [] 2 ∧ winStatus (.windowOpen 0 5 255 3 16 0 7 0 1) [(.BD_WIN_OPEN, 1535, 1), (.BD_WIN_COIL, 1535, 4)] 3 ∧ winStatus (.windowOpen 0 5 255 3 16 0 7 0 1) [(.CP_COIL_ADMIN_STATE, 3, 3)] 4 ∧
    winStatus (.windowOpen 0 5 255 3 16 0 7 0 1) [(.CP_COIL_ADMIN_STATE, 3, 2)] 5 ∧ winStatus (.windowOpen 0 5 255 3 16 0 7 0 1) [(.BD_WIN_BUSY, 1535, 1)] 6 := by decide +kernel
theorem test_splice_entry : nextIs (.spliceEntryValid 0 5 255 3 1 true false 16 9) (win [(.BD_SPLICE_B_WORD, 1535, 16 * 2 ^ 36)]) (fun t => t.fld .BD_SPLICE_A_VALID 1535 = 1 && t.fld .BD_SPLICE_A_KIND 1535 = 1) ∧ spStatus (.spliceEntryValid 0 5 255 3 0 true false 16 9) [] 1 ∧
    spStatus (.spliceEntryValid 0 5 255 3 1 true false 16 9) [(.BD_SPLICE_B_WORD, 1535, 17 * 2 ^ 36)] 2 ∧ spStatus (.spliceEntryValid 0 5 255 3 2 true false 16 9) [(.BD_SPLICE_B_WORD, 1535, 2 ^ 20), (.BD_SPLICE_A_VALID, 1535, 1), (.BD_SPLICE_A_COIL, 1535, 4)] 3 ∧
    spStatus (.spliceEntryValid 0 5 255 3 2 true false 16 9) [(.BD_SPLICE_B_WORD, 1535, 2 ^ 20), (.BD_SPLICE_A_BUSY, 1535, 1)] 6 := by decide +kernel
theorem test_splice_close : nextIs (.windowClose 0 5 255) (win [(.BD_WIN_OPEN, 1535, 1), (.BD_WIN_COIL, 1535, 3)]) (fun t => t.fld .BD_WIN_OPEN 1535 = 0 && t.fld .BD_WIN_BUSY 1535 = 0) ∧ nextIs (.spliceEntryInvalidate 0 5 7) (win []) (fun t => t.fld .BD_SPLICE_A_VALID 1287 = 0 && t.fld .BD_SPLICE_A_BUSY 1287 = 0) ∧
    nextIs (.spliceEntryInvalidate 0 5 7) fencing (fun t => t.fld .BD_SPLICE_A_BUSY 1287 = 1) ∧ nextIs (.windowDrained 5 false 255) (win [(.BD_WIN_BUSY, 1535, 1)]) (fun t => t.fld .BD_WIN_BUSY 1535 = 0) ∧
    nextIs (.msgPartialTimeout 5 2 4) (bend 3 { blocks := [{ window := 2, block := 4 }] } []) (fun t => (t.bend 5).blocks = [] && t.log.ring.map (·.ev.code) = [0x090C]) := by decide +kernel
/-- A token for knot 4 of the range of entry 7, of count 2. -/
def tokenMsg (k : Nat) : State := bend 4 { arrived := [remoteReq 5 0 (2 + k * 2 ^ 64 + 2 * 2 ^ 96)] } [(.BD_SPLICE_A_KIND, 1287, 2), (.BD_SPLICE_B_WORD, 1287, 5 * 2 ^ 20)]
/-- A message of 240 B into the ring of 16 slots at DVA 0, of which `n` are written. -/
def mail (n head : Nat) : State := (bend 4 { arrived := [remoteReq 5 0 (1 + 240 * 2 ^ 16 + 0x77 * 2 ^ 128)] } [(.BD_SPLICE_A_KIND, 1287, 1), (.BD_SPLICE_B_WORD, 1287, 4 * 2 ^ 36), (.BD_SPLICE_C_WRITE, 1287, n)]).store (0x2000000 + 4096) 8 head
theorem witness_BendMessages : ((mail 0 0).bend 5).arrived.find? (fun z => z.opc = 5) = some (remoteReq 5 0 (1 + 240 * 2 ^ 16 + 0x77 * 2 ^ 128)) ∧ (mail 0 0).entryOk 5 (remoteReq 5 0 0) [1] = true ∧ (mail 0 0).fld .BD_SPLICE_A_BUSY 1287 = 0 ∧ (tokenMsg 4).knotCount 3 = 16 ∧
    ((mail 0 0).remotePieces 3 .write 6 16 240 0x77).map (·.length) = some 4 := by decide +kernel
theorem test_mailbox : nextIs (.msg 5) (mail 17 2) (fun t => outIs (fun p => p.opc = 9 && p.status = 0) t && t.fld .BD_SPLICE_C_WRITE 1287 = 18 && t.load (0x2000000 + 256 + 16) 8 = 0x77 && t.load (0x2000000 + 256) 8 = 1 + 240 * 2 ^ 16 + 16 * 2 ^ 33 + 9 * 2 ^ 39) := by decide +kernel
theorem test_mailbox_full : nextIs (.msg 5) (mail 17 1) (fun t => outIs (fun p => p.status = 5) t && t.fld .BD_SPLICE_C_DROPPED 1287 = 1) := by decide +kernel
theorem test_token : nextIs (.msg 5) (tokenMsg 4) (fun t => outIs (fun p => p.status = 0) t && Knot.decode (t.load (0x3000000 + 32) 8) = { value := -2 }) ∧ nextIs (.msg 5) (tokenMsg 5) (fun t => outIs (fun p => p.status = 2) t) := by decide +kernel

/-! ### Halyard (chapter 21) -/

def hcfg : HCfg := { vocab := 3, eos := 2, blockTokens := 16, maxContext := 64, maxBatch := 1, tokenBudget := 16, prefillChunk := 16 }
/-- A running request of two prompt tokens in block 0; its prompt is being prefilled. -/
def hseq : HSeq := { id := 1, loc := .running, prompt := [1, 1], maxNew := 4, blocks := [(0, 0)], started := true }
def hal (h : Halyard) : State := { coil3 with halyards := [(3, h)] }
def prefilling : Halyard := { state := 2, cfg := hcfg, seqs := [hseq], work := [.prefill 1 2 true], nextId := 2 }
/-- Core 64 runs the Halyard task of coil 3 with its SCB at DVA 0x10000; the words of the SCB that pass their checks. -/
def serving (l : List (Nat × Nat)) : State :=
  let s := flds kn [(.CP_COIL_KNOTS_LOG2, 3, 6), (.CP_SRING_CFG_SPAWN, 192, 1), (.CP_CRING_CFG_LOG2, 192, 16)]
  let t := l.foldl (fun s e => s.store (0x2010000 + e.1) 8 e.2) ((s.store 0x2008000 8 (2 ^ 48)).store 0x2008008 8 1)
  { t with cap := { tasks := [(0, { coil := 3, state := .running 64, ticket := { args := [0x10000] } })], nextTask := 1 } }
def scbWords : List (Nat × Nat) := [(0, 0x44525948 + 2 ^ 32), (0x20, 3 + 2 * 2 ^ 32), (0x30, 1 + 16 * 2 ^ 16 + 2 ^ 32), (0x38, 64), (0x40, 1 + 16 * 2 ^ 16 + 16 * 2 ^ 32 + 2 ^ 48), (0x58, 0xFFFF)]
theorem witness_HalyardService : (hal prefilling).hal 3 = prefilling ∧ hseq.blocks.length = hcfg.need (hseq.kv + 2 + 1) ∧ hseq.blocks.length ≤ hcfg.pool ∧ sampleToken hseq [0, 0x3F800000, 0] 0 = some 1 ∧ 1 ≠ hcfg.eos ∧ hseq.gen.length + 1 < hseq.maxNew ∧
    hseq.prompt.length + hseq.gen.length + 1 < hcfg.maxContext ∧ hcfg.reqs = [] ∧ ((serving []).core 64).task = some 0 ∧ ((serving []).svcAt 3 0x10010 .write).isSome = true := by decide +kernel
theorem witness_halyard_fault : (serving []).scbFault 3 0x10000 = some 0 ∧ (serving (scbWords.take 1)).scbFault 3 0x10000 = some 4 := by decide +kernel
theorem test_halyard_start : nextIs (.halyardStart 64) (serving []) (fun t => t.hal 3 = {} && t.load 0x2010010 8 = 4 && t.log.ring.map (·.ev.code) = [0x0A03]) := by decide +kernel
theorem test_halyard_stop : nextIs (.halyardStop 3) (hal { state := 2, cfg := hcfg }) (fun t => t.hal 3 = {}) ∧ nextIs (.halyardStop 3) (hal prefilling) (fun t => (t.hal 3).state = 3) := by decide +kernel
theorem test_halyard_step : nextIs (.halyardStep 3 [{ rows := [[0, 0x3F800000, 0]] }]) (hal prefilling) (fun t => (t.hal 3).work = [.decode [1]] && (t.hal 3).seqs.map (fun x => (x.gen, x.kv)) = [([1], 2)]) := by decide +kernel
theorem test_halyard_fault : nextIs (.halyardStep 3 [{ fault := some 3 }]) (hal prefilling) (fun t => (t.hal 3).work = [] && (t.hal 3).seqs.map (fun x => x.backlog.map (·.status)) = [[8]]) := by decide +kernel
theorem test_halyard_recovery : nextIs (.halyardRecovery 3) (hal prefilling) (fun t => (t.hal 3).seqs.map (fun x => (x.kv, x.prompt)) = [(0, [1, 1])]) := by decide +kernel
theorem test_halyard_timeouts : nextIs (.forwardTimeout 3 5) (hal { prefilling with work := [], seqs := [{ hseq with loc := .forwarded 0 5 }] }) (fun t => (t.hal 3).seqs.map (fun x => x.backlog.map (·.status)) = [[9]]) ∧
    nextIs (.fragmentTimeout 3 16 5) (hal { prefilling with frags := [⟨16, 5, 1, 9, 0⟩, ⟨16, 6, 1, 9, 0⟩] }) (fun t => (t.hal 3).frags.map (·.serial) = [6]) ∧
    nextIs (.requestSubmit 3 1 7) (hal { prefilling with scb := 0x10000 }) (fun t => t.load 0x2010108 8 = 7) := by decide +kernel
/-- The words of the SCB that pass their checks. -/
def scbGood : State := serving scbWords
def scbLeaf : Leaf := { coil := 3, fathom := 0, fathoms := 1, target := .near, base := 0x2000000, r := true, w := true, x := true, region := .coh }
/-- What Halyard reads of its SCB. -/
theorem scb_word (o : Nat) (ho : o < 4096) : scbGood.svcWord 3 (0x10000 + o) = scbGood.cohLoad (0x2010000 + o) 8 := by
  have hw : scbGood.walk 3 0 = .inl scbLeaf := by decide +kernel
  have hv : scbGood.vaultCheck 0 (some 3) none = spOk := by decide +kernel
  have hl : lineVault ((0x2010000 + o) / 64) = some 0 := by
    have h1 : 64 * ((0x2010000 + o) / 64) < spoolSize := by simp only [show spoolSize = 1236950581248 from by decide +kernel]; omega
    have h2 : 64 * ((0x2010000 + o) / 64) / vaultSize = 0 := by apply Nat.div_eq_of_lt; simp only [show vaultSize = 402653184 from by decide +kernel]; omega
    simp only [lineVault, placeOf, h1, h2, if_true]
  have ha : scbGood.svcAt 3 (0x10000 + o) .read = some (0x2010000 + o, none) := by
    have hb : scbLeaf.base + (0x10000 + o - scbLeaf.fathom * 0x1000000) = 0x2010000 + o := by
      show 0x2000000 + (0x10000 + o - 0 * 0x1000000) = 0x2010000 + o
      omega
    have hf : (0x10000 + o) / 0x1000000 = 0 / 0x1000000 := by rw [Nat.zero_div]; exact Nat.div_eq_of_lt (by omega)
    unfold State.svcAt
    rw [walk_fathom scbGood 3 _ 0 hf, hw]
    show some (scbLeaf.base + (0x10000 + o - scbLeaf.fathom * 0x1000000), Option.none) = _
    rw [hb]
  unfold State.svcWord State.svcRead
  rw [ha]
  simp only [hl, hv, if_true]


theorem scb_zero (o : Nat) (ho : 0x400 ≤ o) (h1 : o < 4096) : scbGood.cohLoad (0x2010000 + o) 8 = 0 := by
  have hp : ∀ f, scbGood.dirtyCopies f = [] := fun f => by
    have : scbGood.plies = [] := by decide +kernel
    simp [State.dirtyCopies, this]
  have hm : scbGood.mem.all (fun c => decide (c.1 < 0x2010400 ∨ 0x2011000 ≤ c.1)) = true := by decide +kernel
  have hb : ∀ j, j < 64 → scbGood.byte (64 * ((0x2010000 + o) / 64) + j) = 0 := by
    intro j hj
    refine SMap.get_lacks _ _ _ ?_
    intro q hq e
    have := List.all_eq_true.mp hm q hq
    simp only [decide_eq_true_eq] at this
    omega
  unfold State.cohLoad State.cohLine
  simp only [hp, State.lineAt, State.load, State.bytes_zero _ _ _ hb]
  simp
theorem scb_tail (i : Nat) (h : 128 ≤ i) (hi : i < 512) : scbGood.scbWordOk 3 (fun off => scbGood.svcWord 3 (0x10000 + off)) (8 * i) = true := by
  have hz : scbGood.svcWord 3 (0x10000 + 8 * i) = 0 := by rw [scb_word _ (by omega), scb_zero _ (by omega) (by omega)]
  have ne : ∀ k, k < 0x400 → 8 * i ≠ k := fun k hk => by omega
  unfold State.scbWordOk
  simp only [hz, ne _ (show 0 < 0x400 by decide), ne _ (show 8 < 0x400 by decide), ne _ (show 0x10 < 0x400 by decide), ne _ (show 0x18 < 0x400 by decide), ne _ (show 0x20 < 0x400 by decide), ne _ (show 0x28 < 0x400 by decide),
    ne _ (show 0x30 < 0x400 by decide), ne _ (show 0x38 < 0x400 by decide), ne _ (show 0x40 < 0x400 by decide), ne _ (show 0x48 < 0x400 by decide), ne _ (show 0x50 < 0x400 by decide), ne _ (show 0x58 < 0x400 by decide), ne _ (show 0x60 < 0x400 by decide),
    ne _ (show 0x380 < 0x400 by decide), ne _ (show 0x388 < 0x400 by decide), if_false]
  rw [if_neg (by omega), if_neg (by omega), if_neg (by omega), if_neg (by omega), if_neg (by omega)]
  split <;> simp
theorem scb_head : ∀ i, i < 128 → scbGood.scbWordOk 3 (fun off => if 4096 ≤ off then scbGood.svcWord 3 (0x10000 + off) else scbGood.cohLoad (0x2010000 + off) 8) (8 * i) = true := by decide +kernel
/-- The SCB passes every check. -/
theorem witness_halyard_start : scbGood.scbFault 3 0x10000 = none := by
  have hw : (fun off => if 4096 ≤ off then scbGood.svcWord 3 (0x10000 + off) else scbGood.cohLoad (0x2010000 + off) 8) = (fun off => scbGood.svcWord 3 (0x10000 + off)) := by
    funext off
    split
    · rfl
    · exact (scb_word off (by omega)).symm
  unfold State.scbFault
  rw [List.find?_eq_none]
  intro i hi
  have hi := List.mem_range.mp hi
  by_cases h : i < 128
  · have := scb_head i h
    rw [hw] at this
    simp [this]
  · simp [scb_tail i (by omega) hi]

/-! ### The machine: the queue, reset, pins, memory and well-formed commands -/

def queueOf (l : List Instr) (s : State) : State := { s with pending := l }
theorem witness_StepRunsTheFrontCommand : (queueOf [.aoEnFall, .alwaysOnStart] State.reset).pending = .aoEnFall :: [.alwaysOnStart] ∧ State.reset.pending = [] ∧ up.module.aoOn = true ∧ (∀ b, b < 6 → (up.bend b).pend = []) := by decide +kernel
theorem test_step_front : stepIs (queueOf [.alwaysOnStart, .aoEnFall] State.reset) (fun t => t.pending = [.aoEnFall] && t.module.aoOn && t.module.wakeStep = 2) := by decide +kernel
theorem test_step_idle : stepIs up (fun t => t.clockUs = 1 && t.pending = [] && t.fld .CL_TIME_UTC_NS 0 = 1000) ∧ stepIs State.reset (fun t => t.clockUs = 1 && t.fld .CL_TIME_UTC_NS 0 = 0) := by decide +kernel
theorem reset_pins : State.reset.settled := by unfold State.settled; decide
theorem reset_memory_wf : Memory.wf State.reset.mem = true := by decide
/-- The locate indicator blinks, and GPIO1 drives low. -/
def pinned : State := { flds up [(.CL_GPIO_FUNC, 1, 1), (.CL_GPIO_OUT, 1, 0)] with outputs := { locate := true, gpioLow := [false, true, false, false] }, cleat := { running := true, locate := true } }
theorem witness_EveryStepSettlesThePins : PinsFollow pinned := by
  refine ⟨fun h => ?_, fun _ => ⟨?_, ?_, ?_, by decide, ?_, ?_, fun h => ?_⟩⟩
  · exact absurd h (by decide)
  · exact ⟨fun h => absurd h (by decide), fun h => by obtain ⟨e, h, _⟩ := h; cases h⟩
  · refine ⟨fun h => absurd h (by decide), fun h => ?_⟩
    obtain ⟨p, hp, h⟩ := h
    exact absurd h ((by decide +kernel : ∀ p, p < 8 → ¬ pinned.fld .HT_PM_STATUS_WAKE p ≠ 0) p hp)
  · exact ⟨fun _ => Or.inr (by decide), fun _ => by decide⟩
  · exact (by decide +kernel : ∀ n, n < 4 → pinned.fld .CL_GPIO_FUNC n = 1 → (pinned.outputs.gpioLow.getD n false = true ↔ pinned.fld .CL_GPIO_OUT n = 0))
  · exact (by decide +kernel : ∀ n, n < 4 → pinned.fld .CL_GPIO_FUNC n = 0 → pinned.outputs.gpioLow.getD n false = false)
  · exact absurd h (by decide +kernel)
/-- R754: SMB_ALERT_N is low while an entry waits for its acknowledgement; GPIO2 as MODULE_OK falls at a trip. -/
theorem test_pins : nextIs (.locateN true) { pinned with nvm := { live := { plog := [{}] } } } (fun t => t.outputs.smbAlertLow && t.outputs.locate && t.outputs.gpioLow = [false, true, false, false]) ∧ nextIs .aoEnFall pinned (fun t => t.outputs = {}) := by decide +kernel
theorem test_memory : (State.reset.store 5 4 0xAABBCCDD).load 6 2 = 0xBBCC ∧ (State.reset.store 5 4 0xAA00CCDD).mem.length = 3 ∧ ((State.reset.store 5 2 7).store 5 2 0).mem = [] := by decide +kernel
theorem test_register_addresses : regAt 0x59890018 = some (.CR_FAULT_PC, 2345) ∧ regAt 0x39422428 = some (.TK_CH_STATUS, 32 * 166 + 5) ∧ regAt 0x30 = none := by decide +kernel
theorem test_reset_values : State.reset.fld .NT_CTL_ESC_WAIT 0 = 8 ∧ State.reset.fld .SP_SCRUB_CTL_PERIOD 0 = 24 ∧ State.reset.fld .CP_PARK_DARK_MS 0 = 100 := by decide +kernel
theorem witness_PacketsAndKnotsReadBack : LegalPacket { opc := 2, dst := 63, src := 3, dstPort := 5, retPort := 5, dl := true, tag := 4095, entry := 255, hops := 15, coil := 31, off := 2 ^ 40 - 1, atop := 12, asz := 3, len := 256 } ∧ (-(2 ^ 31) : Int) ≤ -(2 ^ 31) := by
  unfold LegalPacket; decide
theorem test_knot_words : ({ value := -5, mark := true } : Knot).encode % 2 ^ 32 = 2 ^ 32 - 5 ∧ Knot.decode ({ value := -(2 ^ 31), armed := true } : Knot).encode = { value := -(2 ^ 31), armed := true } := by decide +kernel

/-- `Instr.wf` refuses. -/
def ill (i : Instr) : Bool := !i.wf
theorem wf_units : ill (.perstNAssert 8) ∧ ill (.initiateFlr 0 33) ∧ ill (.vfBind 0 33 0) ∧ ill (.vfBind 0 1 32) ∧ ill (.vaultAssign 0 3072 0) ∧ ill (.hdmMapWrite 0 16384 0 0 true) ∧ ill (.shareRevoke 0 256) ∧ ill (.tailWrite 0 12800 0) ∧ ill (.tkOwnerWrite 0 64 0 0 true) ∧
    ill (.plyAssign 0 384 0) ∧ ill (.bayTrip 96) ∧ ill (.coreStateUe 3072) ∧ ill (.thermalBandChange 3456 0) ∧ ill (.sensorFault 3456) ∧ ill (.netLinkDown 96 0) := by decide +kernel
theorem wf_late : ill (.moderationExpiry 0 64) ∧ ill (.submissionRingEnable 0 0 64) ∧ ill (.windowOpen 0 6 0 0 0 0 0 0 1) ∧ ill (.windowOpen 0 0 256 0 0 0 0 0 1) ∧ ill (.spliceEntryInvalidate 0 0 256) ∧ ill (.windowDrained 0 true 256) ∧ ill (.osfpInsert 5 4) ∧ ill (.clGpioWrite 0 4 0 true) ∧
    ill (.gpioClaim 4 0 true) ∧ ill (.halyardStop 32) := by decide +kernel
theorem wf_registers : ill (.add 0 32 0 (.reg 0)) ∧ ill (.add 0 0 32 (.reg 0)) ∧ ill (.add 3072 0 0 (.reg 0)) ∧ ill (.vadd 0 0 0 32 {}) ∧ ill (.csel 0 0 0 0 32) ∧ ill (.spawn 0 0 0 64) ∧ (Instr.add 3071 31 31 (.reg 31)).wf = true := by decide +kernel
/-- No row of the table gives bits. -/
theorem test_words : decodeTableWord 32 5 = none ∧ (State.reset.withFetchWord 32 5) = State.reset := by decide

end Sys2Proof.Tests
end

section
/-!
PROOFS. The results of the scalar ALU instructions (Table 13.4, R449 to R451): every one of them writes one general register
with a value made from its sources, so each result is its function at those sources, and the frame is that of `completes_update`.
-/
namespace Sys2Proof.Machine

/-! ### Operands -/

@[simp] theorem Core.setG_pc (x : Core) (n : Nat) (v : Word) : (x.setG n v).pc = x.pc := by
  unfold Core.setG
  split <;> rfl

/-- MOD[27:0] sign-extended, as an integer (R450). -/
theorem Core.opnd_imm_signed (x : Core) {v : Nat} (hv : v < 2 ^ 28) :
    x.opnd (.imm v) false = BitVec.ofInt 64 (if v < 2 ^ 27 then (v : Int) else (v : Int) - 2 ^ 28) := by
  have hsigned : (BitVec.ofNat 28 v).toInt = if v < 2 ^ 27 then (v : Int) else (v : Int) - 2 ^ 28 := by
    rw [BitVec.toInt_eq_toNat_cond, BitVec.toNat_ofNat, Nat.mod_eq_of_lt hv]
    split <;> split <;> omega
  exact congrArg (BitVec.ofInt 64) hsigned

/-- The immediate of a shift is its own distance (R450). -/
theorem Core.opnd_imm_distance (x : Core) {n : Nat} (hn : n < 64) : (x.opnd (.imm n) true).toNat % 64 = n := by
  show (BitVec.ofNat 64 n).toNat % 64 = n
  rw [BitVec.toNat_ofNat]
  omega

/-! ### One register is written -/

section
variable {i : Sys2Proof.Instr} {s : State} {c d a b v n : Nat} {f : Word → Word → Word} {r : Word}

/-- A legal instruction that issues and writes register `d` gives it that value, and nothing else changes. -/
theorem gives_of_exec_setG {u : Uses} {value : Core → Word}
    (he : exec i s = commit s (fun s => s.instr c true u (fun s => s.update c (fun x => x.setG d (value x)))))
    (hi : s.mayIssue c u = true) : Gives i c d (value (s.core c)) s :=
  completes_update i s c u (fun x => x.setG d (value x)) he hi (Core.setG_pc _ _ _)

/-- A two-source instruction gives its function of the first source and the second operand. -/
theorem gives_of_exec_alu {o : Opnd} {shift : Bool} (he : exec i s = commit s (fun s => s.alu c d a o shift f))
    (hd : d < 32) (ha : a < 32) (ho : opndOk o shift = true) (hi : s.mayIssue c { g := d :: a :: opndRegs o } = true) :
    Gives i c d (f ((s.core c).rg a) ((s.core c).opnd o shift)) s := by
  have hlegal : (gOk [d, a] && opndOk o shift) = true := by
    simp only [gOk, List.all_cons, List.all_nil, hd, ha, ho, decide_true, Bool.and_true]
  refine gives_of_exec_setG (value := fun x => f (x.rg a) (x.opnd o shift)) (he.trans ?_) hi
  simp only [State.alu, hlegal]

/-- The register form. -/
theorem gives_of_exec_reg {shift : Bool} (hd : d < 32) (ha : a < 32) (hb : b < 32) (hi : s.mayIssue c { g := [d, a, b] } = true)
    (he : exec i s = commit s (fun s => s.alu c d a (.reg b) shift f)) (hr : f ((s.core c).rg a) ((s.core c).rg b) = r) :
    Gives i c d r s :=
  hr ▸ gives_of_exec_alu he hd ha (decide_eq_true hb) hi

/-- The form with an immediate of 28 bits. -/
theorem gives_of_exec_imm (hd : d < 32) (ha : a < 32) (hv : v < 2 ^ 28) (hi : s.mayIssue c { g := [d, a] } = true)
    (he : exec i s = commit s (fun s => s.alu c d a (.imm v) false f))
    (hr : f ((s.core c).rg a) (BitVec.ofInt 64 (if v < 2 ^ 27 then (v : Int) else (v : Int) - 2 ^ 28)) = r) : Gives i c d r s := by
  rw [← hr, ← Core.opnd_imm_signed (s.core c) hv]
  exact gives_of_exec_alu he hd ha (decide_eq_true hv) hi

/-- A shift by an immediate distance. -/
theorem gives_of_exec_shift (shift : Word → Nat → Word) (hd : d < 32) (ha : a < 32) (hn : n < 64) (hi : s.mayIssue c { g := [d, a] } = true)
    (he : exec i s = commit s (fun s => s.alu c d a (.imm n) true (fun x y => shift x (y.toNat % 64)))) :
    Gives i c d (shift ((s.core c).rg a) n) s := by
  have h := gives_of_exec_alu he hd ha (decide_eq_true hn) hi
  rwa [Core.opnd_imm_distance _ hn] at h

/-- A one-source instruction gives its function of the source. -/
theorem gives_of_exec_alu1 {f : Word → Word} {legal : Bool} (hd : d < 32) (ha : a < 32) (hi : s.mayIssue c { g := [d, a] } = true)
    (hl : legal = true) (he : exec i s = commit s (fun s => s.alu1 c d a legal f)) (hr : f ((s.core c).rg a) = r) : Gives i c d r s := by
  have hlegal : (gOk [d, a] && legal) = true := by
    simp only [gOk, List.all_cons, List.all_nil, hd, ha, hl, decide_true, Bool.and_true]
  refine hr ▸ gives_of_exec_setG (value := fun x => f (x.rg a)) (he.trans ?_) hi
  simp only [State.alu1, hlegal]

end

/-! ### Comparisons -/

theorem flagW_slt (x y : Word) : flagW (x.slt y) = if x.toInt < y.toInt then 1 else 0 := ite_cond_congr (propext BitVec.slt_iff_toInt_lt)

theorem flagW_ult (x y : Word) : flagW (x.ult y) = if x.toNat < y.toNat then 1 else 0 := ite_cond_congr (propext BitVec.ult_iff_toNat_lt)

theorem flagW_beq (x y : Word) : flagW (x == y) = if x = y then 1 else 0 := ite_cond_congr (propext beq_iff_eq)

/-! ### Division (R451) -/

theorem sdivW_intMin_allOnes : sdivW (BitVec.intMin 64) (BitVec.allOnes 64) = BitVec.intMin 64 := by decide

theorem sremW_intMin_allOnes : sremW (BitVec.intMin 64) (BitVec.allOnes 64) = 0 := by decide

/-! ### Bit counts -/

/-- The leading zeros of the low `n` bits: so many bits are clear, and the next one is set. -/
theorem clzGo_spec (x : Word) (n : Nat) :
    clzGo x n ≤ n ∧ (∀ k, k < clzGo x n → x.getLsbD (n - 1 - k) = false) ∧ (clzGo x n < n → x.getLsbD (n - 1 - clzGo x n) = true) := by
  induction n with
  | zero => exact ⟨Nat.le_refl 0, fun k hk => absurd hk (Nat.not_lt_zero k), fun h => absurd h (Nat.lt_irrefl 0)⟩
  | succ n ih =>
    obtain ⟨hle, hclear, hset⟩ := ih
    by_cases htop : x.getLsbD n = true
    · have hgo : clzGo x (n + 1) = 0 := if_pos htop
      rw [hgo]
      exact ⟨Nat.zero_le _, fun k hk => absurd hk (Nat.not_lt_zero k), fun _ => htop⟩
    · have hgo : clzGo x (n + 1) = clzGo x n + 1 := (if_neg htop).trans (Nat.add_comm 1 _)
      rw [hgo]
      refine ⟨by omega, fun k hk => ?_, fun hlt => ?_⟩
      · cases k with
        | zero => exact Bool.eq_false_iff.mpr htop
        | succ k =>
          have := hclear k (by omega)
          rwa [show n + 1 - 1 - (k + 1) = n - 1 - k by omega]
      · rw [show n + 1 - 1 - (clzGo x n + 1) = n - 1 - clzGo x n by omega]
        exact hset (by omega)

/-- The trailing zeros of the `n` bits from bit `i` on: so many bits are clear, and the next one is set. -/
theorem ctzGo_spec (x : Word) (i n : Nat) :
    ctzGo x i n ≤ n ∧ (∀ k, k < ctzGo x i n → x.getLsbD (i + k) = false) ∧ (ctzGo x i n < n → x.getLsbD (i + ctzGo x i n) = true) := by
  induction n generalizing i with
  | zero => exact ⟨Nat.le_refl 0, fun k hk => absurd hk (Nat.not_lt_zero k), fun h => absurd h (Nat.lt_irrefl 0)⟩
  | succ n ih =>
    obtain ⟨hle, hclear, hset⟩ := ih (i + 1)
    by_cases hlow : x.getLsbD i = true
    · have hgo : ctzGo x i (n + 1) = 0 := if_pos hlow
      rw [hgo]
      exact ⟨Nat.zero_le _, fun k hk => absurd hk (Nat.not_lt_zero k), fun _ => hlow⟩
    · have hgo : ctzGo x i (n + 1) = ctzGo x (i + 1) n + 1 := (if_neg hlow).trans (Nat.add_comm 1 _)
      rw [hgo]
      refine ⟨by omega, fun k hk => ?_, fun hlt => ?_⟩
      · cases k with
        | zero => exact Bool.eq_false_iff.mpr hlow
        | succ k =>
          have := hclear k (by omega)
          rwa [show i + (k + 1) = i + 1 + k by omega]
      · rw [show i + (ctzGo x (i + 1) n + 1) = i + 1 + ctzGo x (i + 1) n by omega]
        exact hset (by omega)

theorem popGo_eq_countP (x : Word) (n : Nat) : popGo x n = (List.range n).countP x.getLsbD := by
  induction n with
  | zero => rfl
  | succ n ih =>
    rw [List.range_succ, List.countP_append, List.countP_singleton, ← ih]
    exact Nat.add_comm _ _

/-! ### Bit fields -/

/-- Replacing a field leaves the bits below it and above it, and puts the new bits in between. -/
theorem setBits_eq (x lo v : Nat) {w : Nat} (hw : 0 < w) :
    setBits x lo w v = 2 ^ lo * (2 ^ w * (x / 2 ^ lo / 2 ^ w) + v % 2 ^ w) + x % 2 ^ lo := by
  have hfield : bits x (lo + w - 1) lo = x / 2 ^ lo % 2 ^ w := by
    rw [bits, Nat.shiftRight_eq_div_pow, show lo + w - 1 + 1 - lo = w by omega]
  have hlow := Nat.div_add_mod x (2 ^ lo)
  have hmid := Nat.div_add_mod (x / 2 ^ lo) (2 ^ w)
  rw [setBits, hfield]
  generalize x / 2 ^ lo / 2 ^ w = high at *
  generalize x / 2 ^ lo % 2 ^ w = field at *
  rw [← hmid] at hlow
  have hx : x - field * 2 ^ lo = 2 ^ lo * (2 ^ w * high) + x % 2 ^ lo := by
    rw [Nat.mul_add, Nat.mul_comm (2 ^ lo) field] at hlow
    omega
  rw [hx, Nat.mul_add, Nat.mul_comm (2 ^ lo) (v % 2 ^ w)]
  omega

theorem testBit_setBits (x lo v k : Nat) {w : Nat} (hw : 0 < w) :
    (setBits x lo w v).testBit k = if lo ≤ k ∧ k < lo + w then v.testBit (k - lo) else x.testBit k := by
  rw [setBits_eq x lo v hw, Nat.testBit_two_pow_mul_add _ (Nat.mod_lt _ (Nat.two_pow_pos lo))]
  by_cases hlo : k < lo
  · rw [if_pos hlo, Nat.testBit_mod_two_pow, decide_eq_true hlo, Bool.true_and, if_neg (fun h => Nat.not_lt.mpr h.1 hlo)]
  · have hfield : k - lo < w ↔ k < lo + w := by omega
    rw [if_neg hlo, Nat.testBit_two_pow_mul_add _ (Nat.mod_lt _ (Nat.two_pow_pos w))]
    by_cases hhi : k < lo + w
    · rw [if_pos (hfield.mpr hhi), Nat.testBit_mod_two_pow, decide_eq_true (hfield.mpr hhi), Bool.true_and,
        if_pos ⟨Nat.not_lt.mp hlo, hhi⟩]
    · rw [if_neg (mt hfield.mp hhi), if_neg (fun h => hhi h.2), Nat.testBit_div_two_pow, Nat.testBit_div_two_pow]
      congr 1
      omega

/-- MOVK replaces quarter `h` of a word. -/
theorem getLsbD_setBits_quarter (x : Word) (h imm : Nat) {k : Nat} (hk : k < 64) :
    (BitVec.ofNat 64 (setBits x.toNat (16 * h) 16 imm)).getLsbD k = if k / 16 = h then imm.testBit (k % 16) else x.getLsbD k := by
  have hquarter : (16 * h ≤ k ∧ k < 16 * h + 16) ↔ k / 16 = h := by omega
  rw [BitVec.getLsbD_ofNat, decide_eq_true hk, Bool.true_and, testBit_setBits _ _ _ _ (by decide), BitVec.testBit_toNat]
  simp only [hquarter]
  split
  · next hq => rw [show k - 16 * h = k % 16 by omega]
  · rfl

/-! ### The instructions -/

/-- Bits 63 down to 63 - n + 1 are clear and bit 63 - n, when there is one, is set: CLZ gives that n. -/
theorem gives_clz {s : State} {c d a : Nat} (hd : d < 32) (ha : a < 32) (hi : s.mayIssue c { g := [d, a] } = true) :
    ∃ n ≤ 64, (∀ k, k < n → ((s.core c).rg a).getLsbD (63 - k) = false) ∧ (n < 64 → ((s.core c).rg a).getLsbD (63 - n) = true) ∧
      Gives (.clz c d a) c d (BitVec.ofNat 64 n) s := by
  obtain ⟨hle, hclear, hset⟩ := clzGo_spec ((s.core c).rg a) 64
  exact ⟨_, hle, hclear, hset, gives_of_exec_alu1 hd ha hi rfl rfl rfl⟩

theorem gives_ctz {s : State} {c d a : Nat} (hd : d < 32) (ha : a < 32) (hi : s.mayIssue c { g := [d, a] } = true) :
    ∃ n ≤ 64, (∀ k, k < n → ((s.core c).rg a).getLsbD k = false) ∧ (n < 64 → ((s.core c).rg a).getLsbD n = true) ∧
      Gives (.ctz c d a) c d (BitVec.ofNat 64 n) s := by
  obtain ⟨hle, hclear, hset⟩ := ctzGo_spec ((s.core c).rg a) 0 64
  simp only [Nat.zero_add] at hclear hset
  exact ⟨_, hle, hclear, hset, gives_of_exec_alu1 hd ha hi rfl rfl rfl⟩

theorem gives_csel {s : State} {c d a b e : Nat} (hd : d < 32) (ha : a < 32) (hb : b < 32) (he : e < 32)
    (hi : s.mayIssue c { g := [d, a, b, e] } = true) :
    Gives (.csel c d a b e) c d (if (s.core c).rg e ≠ 0 then (s.core c).rg a else (s.core c).rg b) s := by
  have hlegal : gOk [d, a, b, e] = true := by
    simp only [gOk, List.all_cons, List.all_nil, hd, ha, hb, he, decide_true, Bool.and_true]
  refine gives_of_exec_setG (value := fun x => if x.rg e ≠ 0 then x.rg a else x.rg b) ?_ hi
  show execCsel c d a b e s = _
  simp only [execCsel, hlegal]

theorem gives_movk {s : State} {c d imm h : Nat} (hd : d < 32) (himm : imm < 2 ^ 16) (hh : h < 4) (hi : s.mayIssue c { g := [d] } = true) :
    Gives (.movk c d imm h) c d (BitVec.ofNat 64 (setBits ((s.core c).rg d).toNat (16 * h) 16 imm)) s := by
  have hlegal : (gOk [d] && decide (imm < 2 ^ 16) && decide (h < 4)) = true := by
    simp only [gOk, List.all_cons, List.all_nil, hd, himm, hh, decide_true, Bool.and_true]
  refine gives_of_exec_setG (value := fun x => BitVec.ofNat 64 (setBits (x.rg d).toNat (16 * h) 16 imm)) ?_ hi
  show execMovk c d imm h s = _
  simp only [execMovk, hlegal]

theorem scalarArithmeticResultsPart : ScalarArithmeticResultsPart := by
  intro s c d a b e hd ha hb he hi x y
  have hi3 : s.mayIssue c { g := [d, a, b] } = true := s.mayIssue_mono c (by simp) (by simp) (by simp) hi
  have reg {i f r shift} := gives_of_exec_reg (i := i) (f := f) (r := r) (shift := shift) hd ha hb hi3
  refine ⟨reg rfl rfl, reg rfl rfl, reg rfl rfl, reg rfl rfl, reg rfl rfl, reg rfl rfl, reg rfl rfl, reg rfl rfl, reg rfl rfl, ?overflow,
    reg rfl (flagW_slt x y), reg rfl (flagW_ult x y), reg rfl (flagW_beq x y),
    reg rfl (ite_cond_congr (propext BitVec.slt_iff_toInt_lt)), reg rfl (ite_cond_congr (propext BitVec.slt_iff_toInt_lt)),
    reg rfl (ite_cond_congr (propext BitVec.ult_iff_toNat_lt)), reg rfl (ite_cond_congr (propext BitVec.ult_iff_toNat_lt)), gives_csel hd ha hb he hi⟩
  case overflow =>
    intro hx hy
    constructor
    · exact reg rfl (show sdivW x y = _ by rw [hx, hy, sdivW_intMin_allOnes])
    · exact reg rfl (show sremW x y = _ by rw [hx, hy, sremW_intMin_allOnes])

theorem scalarLogicResultsPart : ScalarLogicResultsPart := by
  intro s c d a b w h imm hd ha hb hw hh himm hi x y
  have hi2 : s.mayIssue c { g := [d, a] } = true := s.mayIssue_mono c (by simp) (by simp) (by simp) hi
  have hi1 : s.mayIssue c { g := [d] } = true := s.mayIssue_mono c (by simp) (by simp) (by simp) hi
  have reg {i f r shift} := gives_of_exec_reg (i := i) (f := f) (r := r) (shift := shift) hd ha hb hi
  have one {i f r legal} := gives_of_exec_alu1 (i := i) (f := f) (r := r) (legal := legal) hd ha hi2
  exact ⟨reg rfl rfl, reg rfl rfl, reg rfl rfl, reg rfl rfl, reg rfl rfl, reg rfl rfl, reg rfl rfl, reg rfl rfl,
    gives_clz hd ha hi2, gives_ctz hd ha hi2, one rfl rfl (congrArg _ (popGo_eq_countP x 64)),
    one (decide_eq_true hw) rfl rfl, one (decide_eq_true hw) rfl rfl,
    ⟨_, fun k hk => getLsbD_setBits_quarter _ h imm hk, gives_movk hd himm hh hi1⟩⟩

theorem scalarImmediatesPart : ScalarImmediatesPart := by
  intro s c d a v n hd ha hv hn hi x y
  have imm {i f r} := gives_of_exec_imm (i := i) (f := f) (r := r) hd ha hv hi
  have shift {i} (f) := gives_of_exec_shift (i := i) f hd ha hn hi
  exact ⟨imm rfl rfl, imm rfl rfl, imm rfl rfl, imm rfl rfl, imm rfl rfl, imm rfl (flagW_slt x y), imm rfl (flagW_ult x y), imm rfl (flagW_beq x y),
    shift (fun x n => x <<< n) rfl, shift (fun x n => x >>> n) rfl, shift BitVec.sshiftRight rfl, shift BitVec.rotateRight rfl⟩

/-- Settles O37: each instruction issues and writes one register with its function of its sources, whatever the operands. -/
theorem scalarResults : Obligations.ScalarResults :=
  ⟨scalarArithmeticResultsPart, scalarLogicResultsPart, scalarImmediatesPart⟩

end Sys2Proof.Machine
end

section
/-!
PROOFS. Reserved offsets (R777): they name no register, so an access of one reaches no register, and what is left of a read is its answer
of zero and of a write nothing.
-/
namespace Sys2Proof.Machine

/-! ### Commands that answer with one message or with none -/

theorem sends_of_exec {i : Sys2Proof.Instr} {s : State} {f : State → State} {m : Out} (he : exec i s = commit s f)
    (hf : f s.silent = s.silent.send m) : Sends i s m := by
  refine ⟨_, he.trans (commit_next s f), ?_⟩
  rw [hf]
  rfl

theorem ignored_of_exec {i : Sys2Proof.Instr} {s : State} {f : State → State} (he : exec i s = commit s f) (hf : f s.silent = s.silent) :
    Ignored i s := by
  refine ⟨_, he.trans (commit_next s f), ?_⟩
  rw [hf]
  rfl

/-! ### Offsets that name no register -/

/-- A reserved offset of register space, outside the bundle window, in a unit that is up. -/
def State.ReservedAt (s : State) (x : Nat) : Prop := regAt x = none ∧ (x < 0x100000 ∨ 0x200000 ≤ x) ∧ s.spaceDown x = false

theorem regsAt_of_regAt_eq_none {x : Nat} (h : regAt x = none) (p size : Nat) : regsAt p x size = [] := by
  simp [regsAt, h]

theorem not_in_bundle_window {x : Nat} (h : x < 0x100000 ∨ 0x200000 ≤ x) : ¬(0x100000 ≤ x ∧ x < 0x200000) := by omega

theorem State.readSpace_of_reservedAt {s : State} {x : Nat} (h : s.ReservedAt x) (p size : Nat) : s.readSpace p x size = (0, s) := by
  obtain ⟨hnone, hbundle, -⟩ := h
  simp only [State.readSpace, if_neg (not_in_bundle_window hbundle), regsAt_of_regAt_eq_none hnone]
  rfl

theorem State.writeSpace_of_regAt_eq_none {x : Nat} (h : regAt x = none) (s : State) (p size v : Nat) (vf : Bool) :
    s.writeSpace p x size v vf = s := by
  simp only [State.writeSpace, regsAt_of_regAt_eq_none h, List.foldl_nil]

/-! ### Hosts -/

theorem State.gate_of_hostOpen {s : State} {p fn : Nat} (h : HostOpen s p fn) (exempt : Bool) : s.gate p fn exempt = .open' := by
  obtain ⟨hp, hlink, hvisible, hflr, hstate, hhold⟩ := h
  simp [State.gate, State.flag, hp, hlink, hvisible, hflr, hstate, hhold]

theorem State.hostGate_of_hostOpen {s : State} {p fn : Nat} (h : HostOpen s p fn) (write exempt : Bool) (f : State → State) :
    s.hostGate p fn write exempt f = f s := by
  simp only [State.hostGate, State.gate_of_hostOpen h]

theorem State.barPlace_vf {s : State} {p n : Nat} (hn : 0 < n) (hbind : s.fld .HT_VF_BIND_VALID (32 * p + (n - 1)) ≠ 0) (off : Nat) :
    s.barPlace p n off = some (vfPlace (s.fld .HT_VF_BIND_COIL (32 * p + (n - 1))) off) := by
  simp [State.barPlace, State.flag, Nat.ne_of_gt hn, hbind]

/-- BAR0 of a function has nothing at an offset: a gap between its blocks, or a reserved offset of one. -/
def State.BarReserved (s : State) (p fn off : Nat) : Prop :=
  s.barPlace p fn off = some .void ∨ ∃ x, s.barPlace p fn off = some (.space x) ∧ s.ReservedAt x

theorem State.hostRead_of_barReserved {s : State} {p fn off size : Nat} (hopen : HostOpen s p fn) (ha : regAligned off size = true)
    (h : s.BarReserved p fn off) : s.hostRead p fn off size = s.send (.ioReply p 0 0 false) := by
  simp only [State.hostRead, State.hostGate_of_hostOpen hopen, ha, Bool.not_true, Bool.false_eq_true, if_false]
  rcases h with hvoid | ⟨x, hplace, hx⟩
  · rw [hvoid]
    rfl
  · obtain ⟨-, -, hup⟩ := id hx
    simp only [hplace, hup, State.readSpace_of_reservedAt hx, Bool.false_eq_true, if_false, ite_self]
    rfl

theorem State.hostWrite_of_barReserved {s : State} {p fn off : Nat} (hopen : HostOpen s p fn) (h : s.BarReserved p fn off) (size v : Nat) :
    s.hostWrite p fn off size v = s := by
  simp only [State.hostWrite, State.hostGate_of_hostOpen hopen]
  rcases h with hvoid | ⟨x, hplace, hnone, hbundle, -⟩
  · rw [hvoid]
  · simp only [hplace, hnone, if_neg (not_in_bundle_window hbundle), State.writeSpace_of_regAt_eq_none hnone, Option.isSome_none,
      Bool.false_eq_true, if_false, ite_self]

/-! ### RIG-level code -/

/-- RIG-level code finds no unit fenced on the way to a reserved offset while Cleat is not cut off (Table 6.3). -/
theorem State.ReservedAt.not_fenced {s : State} {x : Nat} (h : s.ReservedAt x) (hcut : x < 0x1000000 → s.cleatCut = false) :
    ¬(s.spaceDown x = true ∨ (decide (x < 0x1000000) && s.cleatCut) = true) := by
  obtain ⟨-, -, hup⟩ := h
  simpa [hup] using hcut

theorem State.rigRead_of_reservedAt {s : State} {x : Nat} (h : s.ReservedAt x) (hcut : x < 0x1000000 → s.cleatCut = false) (size : Nat) :
    s.rigRead x size = (spOk, 0, s) := by
  simp only [State.rigRead, if_neg (h.not_fenced hcut), State.readSpace_of_reservedAt h]

theorem State.rigWrite_of_reservedAt {s : State} {x : Nat} (h : s.ReservedAt x) (hcut : x < 0x1000000 → s.cleatCut = false) (c size v : Nat) :
    s.rigWrite c x size v = (spOk, s) := by
  obtain ⟨hnone, hbundle, -⟩ := id h
  have hreserved : ((regAt x).isNone && !(decide (0x100000 ≤ x) && decide (x < 0x200000))) = true := by
    simp [hnone]
    omega
  simp only [State.rigWrite, if_neg (h.not_fenced hcut), hreserved, if_true]

/-! ### The commands -/

/-- The one argument for physical and virtual functions: they differ in what BAR0 maps alone. -/
theorem host_reads_zero_and_write_ignored {s : State} {a : Agent} {p fn off size v : Nat}
    (hread : exec (.rcRead a off size) s = commit s (fun s => s.hostRead p fn off size))
    (hwrite : exec (.registerWrite a off size v) s = commit s (fun s => s.hostWrite p fn off size v))
    (hopen : HostOpen s p fn) (ha : regAligned off size = true) (h : s.BarReserved p fn off) :
    Sends (.rcRead a off size) s (.ioReply p 0 0 false) ∧ Ignored (.registerWrite a off size v) s :=
  ⟨sends_of_exec hread (State.hostRead_of_barReserved (s := s.silent) hopen ha h),
    ignored_of_exec hwrite (State.hostWrite_of_barReserved (s := s.silent) hopen h size v)⟩

theorem pf_reads_zero_and_write_ignored {s : State} {p off size : Nat} (v : Nat) (hopen : HostOpen s p 0) (ha : regAligned off size = true)
    (h : s.BarReserved p 0 off) :
    Sends (.rcRead (.pf p) off size) s (.ioReply p 0 0 false) ∧ Ignored (.registerWrite (.pf p) off size v) s :=
  host_reads_zero_and_write_ignored rfl rfl hopen ha h

theorem vf_reads_zero_and_write_ignored {s : State} {p n off size : Nat} (v : Nat) (hn : 0 < n) (hopen : HostOpen s p n)
    (ha : regAligned off size = true) (h : s.BarReserved p n off) :
    Sends (.rcRead (.vf p n) off size) s (.ioReply p 0 0 false) ∧ Ignored (.registerWrite (.vf p n) off size v) s := by
  have hvf : n ≠ 0 := Nat.ne_of_gt hn
  refine host_reads_zero_and_write_ignored ?_ ?_ hopen ha h
  · show execRcRead (.vf p n) off size s = _
    simp only [execRcRead, if_neg hvf]
  · show execRegisterWrite (.vf p n) off size v s = _
    simp only [execRegisterWrite, if_neg hvf]

theorem exec_rcRead_rig (c off size : Nat) (s : State) :
    exec (.rcRead (.rig c) off size) s = commit s (fun s =>
      if (s.core c).rig && regAligned off size then
        let r := s.rigRead off size
        if r.1 = spOk then r.2.2.send (.regData r.2.1) else s.send (.status spFenced)
      else s) := rfl

theorem exec_registerWrite_rig (c off size v : Nat) (s : State) :
    exec (.registerWrite (.rig c) off size v) s = commit s (fun s =>
      if (s.core c).rig && regAligned off size then (s.rigWrite c off size v).2 else s) := rfl

theorem rig_reads_zero_and_write_ignored {s : State} {c off size : Nat} (v : Nat) (hrig : (s.core c).rig = true)
    (ha : regAligned off size = true) (h : s.ReservedAt off) (hcut : off < 0x1000000 → s.cleatCut = false) :
    Sends (.rcRead (.rig c) off size) s (.regData 0) ∧ Ignored (.registerWrite (.rig c) off size v) s := by
  have hread := State.rigRead_of_reservedAt (s := s.silent) h hcut size
  have hwrite := State.rigWrite_of_reservedAt (s := s.silent) h hcut c size v
  constructor
  · refine sends_of_exec (exec_rcRead_rig c off size s) ?_
    simp only [State.silent_core_of, hrig, ha, Bool.and_self, if_true, hread]
  · refine ignored_of_exec (exec_registerWrite_rig c off size v s) ?_
    simp only [State.silent_core_of, hrig, ha, Bool.and_self, if_true, hwrite]

/-- Settles O24: a reserved offset reaches no register from any side, whether it lies in a block of BAR0 or in a gap between them. -/
theorem reservedOffsets : Obligations.ReservedOffsets := by
  intro s p n c off size x v _ hsize hoff
  have ha : regAligned off size = true := by simp [regAligned, hsize, hoff]
  refine ⟨fun hopen hplace hx => ?pfBlock, fun hopen hplace => ?pfGap, fun hopen hbound hplace hx => ?vfBlock,
    fun hopen hbound hplace => ?vfGap, fun hrig hx hcut => rig_reads_zero_and_write_ignored v hrig ha hx hcut⟩
  case pfBlock => exact pf_reads_zero_and_write_ignored v hopen ha (.inr ⟨x, congrArg some hplace, hx⟩)
  case pfGap => exact pf_reads_zero_and_write_ignored v hopen ha (.inl (congrArg some hplace))
  case vfBlock =>
    obtain ⟨hn, hbind⟩ := hbound
    exact vf_reads_zero_and_write_ignored v hn hopen ha (.inr ⟨x, hplace ▸ State.barPlace_vf hn hbind off, hx⟩)
  case vfGap =>
    obtain ⟨hn, hbind⟩ := hbound
    exact vf_reads_zero_and_write_ignored v hn hopen ha (.inl (hplace ▸ State.barPlace_vf hn hbind off))

end Sys2Proof.Machine
end
